-- ==== Sys2Proof/Word.lean ====
section
/-! DEFINITION. The plain words MB3 is built from: a byte, a byte string, the 32-bit register word of the
Pilot address map (R582), the 64-bit fuse and journal word, and the sparse table used for numbered things. -/

namespace Sys2Proof

/-- One byte. -/
abbrev Byte := BitVec 8

/-- A byte string, first byte first (R590 says how a register map holds one). -/
abbrev Bytes := List Byte

/-- A 32-bit register of the Pilot address map (R582). -/
abbrev Word := BitVec 32

/-- A 64-bit value: a fuse word's data bits (R138), a key record's identity, an event number (R560). -/
abbrev DWord := BitVec 64

/-- A numbered collection kept sparsely: entries in rising number; an entry that is absent reads as the
default the reader names. -/
abbrev Tbl (α : Type) := List (Nat × α)

end Sys2Proof
end

