-- ==== Sys2Proof/Syntax.lean ====
section
/-! DEFINITION. The commands of MB3: one constructor of `Instr` for each row of the opcode table, with the
operands the row's rule gives it, and the small types those operands use. A physical outcome that MB3 cannot
choose (what a fuse pulse left in a bit, whether a self-test passed, what a chiplet answered) is an operand. -/

namespace Sys2Proof

/-- The 234 islands of MB3 by kind and instance (the table before R38). -/
inductive Island where
  | pier (n : Nat) | gangway (n : Nat) | press (n : Nat) | ferry (n : Nat)
  | hostGuard | boarding | trustCore | vaultFuse
  deriving DecidableEq, Repr

/-- A PCIe function of the host endpoint (R521). -/
inductive Func where
  | pf0 | pf1 | vf (n : Nat)
  deriving DecidableEq, Repr

/-- The transport on which MB3 is an SPDM responder (R256): the ring, with the requester's endpoint, or the PF0 mailbox. -/
inductive Transport where
  | ring (src : Byte) | pf0
  deriving DecidableEq, Repr

/-- The SPDM versions MB3 serves (R83, R256). -/
inductive SpdmVersion where
  | v12 | v13
  deriving DecidableEq, Repr

/-- A ring frame whose CRC is good (R76); LEN is the payload's length. -/
structure RingFrame where
  dst : Byte
  src : Byte
  hops : Byte
  kind : Byte
  payload : Bytes
  deriving DecidableEq, Repr

/-- A private instruction of the test chain segment (R89, R191, R192). -/
inductive JtagPrivate where
  | lcMbox | debugPort | scan
  deriving DecidableEq, Repr

/-- What one fuse word reads at the nominal, low-margin and high-margin references (R140). -/
structure FuseCell where
  nominal : BitVec 72
  low : BitVec 72
  high : BitVec 72
  deriving DecidableEq, Repr

/-- The kinds of lane microcode (R110, R278). -/
inductive UcKind where
  | pier | gangway | press | ferry
  deriving DecidableEq, Repr

/-- A chiplet's reply in Boarding (R120, R121, R259). The signature halves are checked outside the words of a
message, so the reply carries whether each half of the CHALLENGE response verified. -/
inductive BoardReply where
  /-- Step a: whether the chiplet supports SPDM 1.2 and 1.3, and which Boarding versions (bit v-1). -/
  | negotiate (spdm12 spdm13 : Bool) (versions : Byte)
  /-- Step b: the digest of the chain's root, whether every certificate and the leaf key are hybrid, whether both
  halves of the CHALLENGE response verify, and the kind the leaf names. -/
  | challenge (rootDigest : Bytes) (chainOk ecdsaOk mldsaOk : Bool) (kindId : DWord) (vendor : Bytes)
  /-- Step e: the GET_MEASUREMENTS record without nonce and signature, the digest it gives for the loaded image, and
  whether both halves of its signature verify. -/
  | measurements (record imageDigest : Bytes) (ecdsaOk mldsaOk : Bool)
  /-- Any other reply: a failed signature or an unexpected message fails the step (R122). -/
  | bad
  deriving DecidableEq, Repr

/-- One access of the Pilot cores (R581, R582). -/
structure PilotAccess where
  addr : Nat
  size : Nat
  store : Bool
  fetch : Bool
  value : Word
  deriving DecidableEq, Repr

/-- The fields of VAULT_CMD beside its OP (R234): FIELD, INDEX, TYPE and SPACE; and the entry, if any, in which RS decoding finds a word
uncorrectable as the command uses it (R24, R207): a record by its berth, slot k at 4096 + k. -/
structure VaultCmd where
  field : BitVec 3
  index : BitVec 12
  typ : BitVec 4
  space : Bool
  spoiled : Option Nat := none
  deriving DecidableEq, Repr

/-- The operation of a line (R335): a partial write carries its byte enables. -/
inductive LineOp where
  | read
  | write
  | partialWrite (enables : BitVec 64)
  deriving DecidableEq, Repr

/-- A line that reaches a Pier from the hub fabric (R335): initiator code, line number within the Pier's stack or port
(the address divided by 64), operation, and data for a write. -/
structure FabricLine where
  init : Nat
  line : Nat
  op : LineOp
  data : Bytes
  deriving DecidableEq, Repr

/-- The response to a line (R339). -/
inductive LineResp where
  | ok | accessErr | poison
  deriving DecidableEq, Repr

/-- The Piers that a register write of Pilot reaches: one, a group's block, or the all-Piers block (R369). -/
inductive PierTarget where
  | pier (n : Nat) | group (g : Nat) | all
  deriving DecidableEq, Repr

/-- The Gangway lanes that a register write of Pilot reaches: one, a group's block, or the all-lanes block (R405). -/
inductive GwTarget where
  | lane (n : Nat) | group (g : Nat) | all
  deriving DecidableEq, Repr

/-- What starts a Darn (R361). -/
inductive DarnCause where
  | comparator | controlStore | pllLoss | spotTest | noAck
  deriving DecidableEq, Repr

/-- What a spot test is run in (R366, R397, R446): a Pier group 0-8, a Gangway group 0-3, or the Press arrays. -/
inductive TestGroup where
  | piers (g : Nat) | gangway (g : Nat) | press
  deriving DecidableEq, Repr

/-- A package-wide change that Pilot broadcasts to every lane and array (R28): the new tables of a berth (R321), or the
gate of its rinse (R323). -/
inductive BroadcastKind where
  | tables (berth : Nat) | gate (berth : Nat)
  deriving DecidableEq, Repr

/-- A Gangway frame as it arrives (R373): LEN is the body's length. -/
structure GwFrame where
  kind : Byte
  flags : Byte
  ctrLo : Word
  body : Bytes
  trailer : Bytes
  deriving DecidableEq, Repr

/-- Why an array faults (R444). -/
inductive ArrayCause where
  | residue | sequencer | pllLoss
  deriving DecidableEq, Repr

/-- What an array takes from the Basket for a tile (R437, R443): the captured lines of A and B with their scale arrays, of D if there
is an addend, and of C as the chiplet wrote it, each by its line number within its region, 64 bytes a line. -/
structure TileData where
  a : List (Nat × List Byte)
  b : List (Nat × List Byte)
  d : List (Nat × List Byte)
  c : List (Nat × List Byte)
  deriving DecidableEq, Repr

/-- How a host completion ends (R511): with data, Unsupported Request, Completer Abort, or poisoned. -/
inductive CplStatus where
  | ok | ur | ca | poisoned
  deriving DecidableEq, Repr

/-- A completion for a read of MB3 (R546): status, byte count still owed with this one, lower address, data. -/
structure HostCpl where
  status : CplStatus
  byteCount : Nat
  lowerAddr : Nat
  data : Bytes
  deriving DecidableEq, Repr

/-- The peripherals that ask Ferry for service (R515): the flash FIFO, an array's feed, the sampler's records for a
berth, a Gangway lane's inbound bundle. -/
inductive Peripheral where
  | flash | press (array : Nat) | sampler (berth : Nat) | gangway (lane : Nat)
  deriving DecidableEq, Repr

/-- Why a host request is an Unsupported Request, and the Type 1 message that is dropped (R528). -/
inductive UrReason where
  | wrongKind | pasidOrAt | memorySpaceOff | duringFlr | badShape | vendorType0 | atsOff | prgUnknown | vendorType1
  deriving DecidableEq, Repr

/-- A Translation Completion (R549): status, size in bytes, untranslated-only, permissions, translated address. -/
structure TransCpl where
  status : CplStatus
  size : Nat
  untransOnly : Bool
  canRead : Bool
  canWrite : Bool
  target : Nat
  deriving DecidableEq, Repr

/-- Response code of a PRG Response (R554). -/
inductive PrgCode where
  | success | invalid | failure
  deriving DecidableEq, Repr

/-- Where REGISTER_WRITE acts: the Pilot map as Pilot sees it, with 32-bit stores or, in Pilot SRAM, byte and halfword ones (R582); the
registers JTAG reaches (LC_MBOX at their Pilot addresses, R191); BAR0 of a function, with the shapes of R527: 4 bytes, 8 bytes, bytes
of the mailbox buffer under byte enables, or a read of so many bytes; or the PCIe configuration of a function, whose registers the
model numbers itself, written or read (log entry 41). -/
inductive RegPort where
  | pilot
  | pilotNarrow (half : Bool)
  | jtag
  | bar (fn : Func)
  | barPair (fn : Func) (high : Word)
  | barBytes (fn : Func) (data : Bytes) (enables : BitVec 64)
  | barRead (fn : Func) (len : Nat)
  | config (fn : Func)
  | configRead (fn : Func)
  deriving DecidableEq, Repr

/-- What the debug port is asked for (R192): a load or a store of the Pilot map; to halt, resume or step the Pilot cores; a line trace
of a lane; or memory BIST of an island. -/
inductive DebugAct where
  | read | write | halt | resume | step
  | trace (isl : Island)
  | mbist (isl : Island)
  deriving DecidableEq, Repr

/-- How a program of the journal ends (R571): well; with a failure that left these bits of the record unwritten (set bits, byte by byte;
bytes the list does not reach were not programmed), with the Flash status; or with a failed sector erase. -/
inductive FlashEnd where
  | ok
  | failed (unwritten : Bytes) (status : Word)
  | eraseFailed (status : Word)
  deriving DecidableEq, Repr

/-- The commands MB3 takes: one constructor for each row of the opcode table. -/
inductive Instr where
  /-- MB_PORST_N_ASSERT (R66, 02_boundary.md): Assertion of MB_PORST_N resets every island and closes the ring and test-chain bypasses. -/
  | mbPorstNAssert (cutLevel : BitVec 3)
  /-- RESET_RELEASE (R66, 02_boundary.md): The filtered rising edge of MB_PORST_N releases every island, starts PLLs, the boot ROM and fuse sensing. -/
  | resetRelease (bootsel : BitVec 2) (vppPresent : Bool)
  /-- HALT_SEEN_ELSEWHERE (R70, 02_boundary.md): MB_HALT_N read back low for at least 60 ns while MB3 is not driving it is reported in unit status. -/
  | haltSeenElsewhere
  /-- REFERENCE_CLOCK_LOSS (R74, 02_boundary.md): No reference edge for 1 us makes MB3 assert MB_HALT_N with halt code 0x80. -/
  | referenceClockLoss
  /-- PLL_LOCK_LOSS (R74, 02_boundary.md): An island PLL that loses lock stops its clock; a lane or array fails closed as a lane fault. -/
  | pllLockLoss (isl : Island) (stateReadable spareOk : Bool := true)
  /-- VPP_OK_SET (R156, 04_fuses.md): VPP_FUSE held in its window for 10 us sets VPP_OK. -/
  | vppOkSet
  /-- VPP_WINDOW_EXIT (R161, 04_fuses.md): VPP_FUSE leaving its window clears VPP_OK and, during a pulse, ends it, sets VPP_LOST and stops the operation with 0x09. -/
  | vppWindowExit (level : BitVec 3)
  /-- CABLE_RING_AGENT_START (R80, 02_boundary.md): The Cable ring agent starts, raises CRING_BYP and inserts into the ring. -/
  | cableRingAgentStart
  /-- RING_FRAME_RECEIVE (R77, 02_boundary.md): A ring frame is received, CRC-checked, forwarded, taken off or discarded by HOPS. -/
  | ringFrameReceive (raw : Bytes)
  /-- RING_ENUMERATE (R78, 02_boundary.md): An enumerate frame assigns the agent its position and is forwarded with the counter incremented. -/
  | ringEnumerate (f : RingFrame)
  /-- ORDERING_TOKEN (R86, 02_boundary.md): An ordering token arrives and is held or forwarded under TOKEN_WAIT. -/
  | orderingToken (f : RingFrame)
  /-- TOKEN_WAIT_LIMIT (R87, 02_boundary.md): A TOKEN_WAIT x 100 ms limit expires, releasing the management cores or forwarding the token, with a journal event. -/
  | tokenWaitLimit
  /-- SET_ENDPOINT_ID (R82, 02_boundary.md): MCTP Set Endpoint ID assigns MB3's endpoint ID. -/
  | setEndpointId (src eid : Byte)
  /-- GET_ENDPOINT_ID (R82, 02_boundary.md): MCTP Get Endpoint ID returns MB3's endpoint ID. -/
  | getEndpointId (src : Byte)
  /-- GET_MCTP_VERSION_SUPPORT (R82, 02_boundary.md): MCTP Get MCTP Version Support returns supported versions. -/
  | getMctpVersionSupport (src : Byte)
  /-- GET_MESSAGE_TYPE_SUPPORT (R82, 02_boundary.md): MCTP Get Message Type Support returns SPDM and vendor-defined. -/
  | getMessageTypeSupport (src : Byte)
  /-- MCTP_OTHER_MESSAGE (R82, 02_boundary.md): An MCTP message of an unsupported type is answered with an error completion. -/
  | mctpOtherMessage (src msgType : Byte)
  /-- GET_VERSION (R256, 07_attestation.md): SPDM GET_VERSION on the ring or PF0 negotiates SPDM 1.2 or 1.3. -/
  | getVersion (t : Transport)
  /-- GET_CAPABILITIES (R256, 07_attestation.md): SPDM GET_CAPABILITIES returns CERT, CHAL and MEAS and the 8,192 B sizes. -/
  | getCapabilities (t : Transport) (version : SpdmVersion)
  /-- NEGOTIATE_ALGORITHMS (R256, 07_attestation.md): SPDM NEGOTIATE_ALGORITHMS selects SHA-384 and ECDSA P-384. -/
  | negotiateAlgorithms (t : Transport) (offersSha384 offersP384 : Bool)
  /-- GET_DIGESTS (R256, 07_attestation.md): SPDM GET_DIGESTS returns the digests of certificate slots 0 and 1. -/
  | getDigests (t : Transport)
  /-- GET_CERTIFICATE (R258, 07_attestation.md): SPDM GET_CERTIFICATE returns the chain of slot 0 or 1. -/
  | getCertificate (t : Transport) (slot offset length : Nat)
  /-- CHALLENGE (R257, 07_attestation.md): SPDM CHALLENGE returns a hybrid-signed response with the ML-DSA half in OpaqueData. -/
  | challenge (t : Transport) (slot : Nat) (nonce : Bytes)
  /-- GET_MEASUREMENTS (R254, 07_attestation.md): SPDM GET_MEASUREMENTS returns the requested measurement indices, signed. -/
  | getMeasurements (t : Transport) (index : Byte) (sign : Bool) (nonce : Bytes)
  /-- SPDM_UNSUPPORTED_REQUEST (R256, 07_attestation.md): An SPDM request the role does not allow is answered with ERROR UnsupportedRequest. -/
  | spdmUnsupportedRequest (t : Transport) (code : Byte)
  /-- GET_UNIT_STATUS (R84, 02_boundary.md): The vendor request returns MB_STAT code, halt state, life-cycle state, milestone and ring position. -/
  | getUnitStatus (src : Byte)
  /-- GET_BERTH_STATE (R84, 02_boundary.md): The vendor request returns a berth's state code and rinse level, or invalid-argument. -/
  | getBerthState (src : Byte) (berth : Nat)
  /-- ALARM_NOTIFY_HOLDOFF_EXPIRY (R567, 16_faults_journal.md): The one-second per-KIND limit expires and a coalesced ALARM_NOTIFY is sent. -/
  | alarmNotifyHoldoffExpiry (kind : BitVec 16)
  /-- BYPASS (R88, 02_boundary.md): The JTAG BYPASS instruction selects the bypass register. -/
  | bypass
  /-- IDCODE (R88, 02_boundary.md): The JTAG IDCODE instruction selects the 32-bit IDCODE. -/
  | idcode
  /-- SAMPLE_PRELOAD (R88, 02_boundary.md): The JTAG SAMPLE/PRELOAD instruction samples or preloads the boundary register. -/
  | samplePreload (pins preload : BitVec 21)
  /-- EXTEST (R90, 02_boundary.md): EXTEST gives the boundary register the pins and closes the host, memory and link paths until reset. -/
  | extest (pins shifted : BitVec 21 := 0)
  /-- JTAG_PRIVATE_INSTRUCTION (R89, 02_boundary.md): A private instruction reaches Pilot's debug port if rights allow, else selects BYPASS and is journalled. -/
  | jtagPrivateInstruction (i : JtagPrivate)
  /-- DEBUG_PORT_ACCESS (R583, 17_register_index.md): A debug-port access to the Pilot map is served within the granted rights. -/
  | debugPortAccess (act : DebugAct) (addr data : Word)
  /-- PWR_DOMAIN_ON (R47, 01_architecture.md): A PWR_DOMAIN_CTL write requests a domain on. -/
  | pwrDomainOn (pd : Nat)
  /-- PWR_DOMAIN_OFF (R43, 01_architecture.md): A PWR_DOMAIN_CTL write requests a domain off, refused where R43 forbids. -/
  | pwrDomainOff (pd : Nat)
  /-- DOMAIN_POWER_UP_DONE (R112, 03_startup.md): A powered-up domain's islands finish self-test and microcode install, setting DOM_UP and unparking. -/
  | domainPowerUpDone (pd : Nat)
  /-- ISLAND_SELF_TEST_START (R107, 03_startup.md): An island starts the high-current part of its self-test in its slot. -/
  | islandSelfTestStart (isl : Island)
  /-- ISLAND_SELF_TEST_DONE (R108, 03_startup.md): An island ends its self-test, reports the result and parks. -/
  | islandSelfTestDone (isl : Island) (pass : Bool)
  /-- SELF_TEST_COLLECTION_TIMEOUT (R109, 03_startup.md): At 27 ms Pilot fails unreported islands and replaces failed lanes by spares. -/
  | selfTestCollectionTimeout
  /-- CORE_ISLAND_SELF_TEST_DONE (R109, 03_startup.md): The Trust Core or vault-and-fuse island self-test ends; failure halts with 0x82 or 0x84. -/
  | coreIslandSelfTestDone (isl : Island) (pass : Bool)
  /-- FUSE_SENSING_DONE (R142, 04_fuses.md): Reset sensing ends: classes and digests checked, trims applied, SENSED set. -/
  | fuseSensingDone (complete : Bool) (drift : List (Nat × FuseCell))
  /-- ROM_POLICY (R155, 04_fuses.md): After sensing, the ROM applies fuse alarm policy and life-cycle halts. -/
  | romPolicy
  /-- ENTROPY_STARTUP_DONE (R223, 06_keys.md): The entropy source start-up tests end and the CTR_DRBG is instantiated. -/
  | entropyStartupDone (pass : Bool)
  /-- FLASH_SFDP_DONE (R94, 02_boundary.md): SFDP is read and the flash switches to 8D-8D-8D or stays in 1S-1S-1S. -/
  | flashSfdpDone (answers octal : Bool) (sectors : Nat)
  /-- BOOT_SOURCE_CHECK (R284, 08_update.md): The ROM checks a boot source's Manifest and Pilot image header in order. -/
  | bootSourceCheck
  /-- FLASH_BLOCK_READ (R105, 03_startup.md): A chain block read completes and is CRC-checked, hashed and copied or the source fails. -/
  | flashBlockRead (transferOk : Bool)
  /-- CHAIN_VERIFIED (R104, 03_startup.md): The chain verifies: TRIED programmed, code locked, CDI derived, UDS locked, SRAM scrubbed, firmware entered. -/
  | chainVerified
  /-- FIRMWARE_ENTRY (R96, 03_startup.md): Pilot firmware starts: journal scan, settings, identity check, alias certificate. -/
  | firmwareEntry
  /-- MICROCODE_INSTALL (R110, 03_startup.md): Pilot checks a microcode image and broadcasts it to every island of its kind. -/
  | microcodeInstall (k : UcKind)
  /-- MICROCODE_CRC_RETURN (R110, 03_startup.md): An island returns the CRC of stored microcode; a mismatch reinstalls or fails it. -/
  | microcodeCrcReturn (isl : Island) (crc : Word)
  /-- MGMT_FIRMWARE_LOAD (R113, 03_startup.md): Pilot streams and hashes the hub management firmware through the load port. -/
  | mgmtFirmwareLoad
  /-- OUT_GO (R125, 03_startup.md): Sends BOARD_MGMT_OUT to the management cores. -/
  | outGo
  /-- MGMT_OUT_TAKEN (R125, 03_startup.md): A management core takes the outbound message and OUT_GO clears. -/
  | mgmtOutTaken
  /-- IN_FULL_CLEAR (R125, 03_startup.md): Writing 1 to IN_FULL frees BOARD_MGMT_IN. -/
  | inFullClear
  /-- LOAD_EN (R125, 03_startup.md): Writing LOAD_EN opens or closes the hub load port, ignored while MGMT_RUN is 1. -/
  | loadEn (v : Bool)
  /-- MGMT_RUN (R113, 03_startup.md): Writing MGMT_RUN releases the management cores and clears LOAD_EN, or holds them in reset. -/
  | mgmtRun (v : Bool)
  /-- MEM_TRAINED (R97, 03_startup.md): The cores report trained stacks and ports; untrained ones leave service and boarding starts. -/
  | memTrained (stackMap : BitVec 8) (ports : BitVec 16)
  /-- LINK_TRAINED (R114, 03_startup.md): The cores report the bitmap of trained links. -/
  | linkTrained (links : BitVec 48)
  /-- ACK (R114, 03_startup.md): A management message ACK arrives. -/
  | ack (msg : Bytes)
  /-- UNKNOWN (R114, 03_startup.md): A management message of an unknown type is answered with UNKNOWN. -/
  | unknown (msg : Bytes)
  /-- BOARDING_WAVE_START (R115, 03_startup.md): A boarding wave starts every 50 ms and its sites begin step a. -/
  | boardingWaveStart (present trained : BitVec 12)
  /-- BOARDING_REPLY (R120, 03_startup.md): A chiplet's SPDM reply advances its site through steps a-f or fails it. -/
  | boardingReply (site : Nat) (r : BoardReply)
  /-- LOAD_ACK (R123, 03_startup.md): A chiplet acknowledges a LOAD; late or unsolicited acks are discarded. -/
  | loadAck (site : Nat) (late : Bool := false)
  /-- BOARDING_SLOT_END (R122, 03_startup.md): A site's slot ends at S_k + 50 ms and unfinished sites are failed. -/
  | boardingSlotEnd
  /-- PACKAGE_READY (R96, 03_startup.md): Basket zeroing ends, berths are set Free and PF1 berth commands enabled. -/
  | packageReady
  /-- SEND (R127, 03_startup.md): BOARD_SITE_CTL.SEND starts a message to a site. -/
  | send (site : Nat)
  /-- ABORT (R127, 03_startup.md): BOARD_SITE_CTL.ABORT abandons a site send or receive. -/
  | abort (site : Nat)
  /-- RX_READY_CLEAR (R128, 03_startup.md): Writing 1 to BOARD_SITE_STAT.RX_READY frees the site receive buffer. -/
  | rxReadyClear (site : Nat)
  /-- SITE_REPLY_ASSEMBLED (R128, 03_startup.md): The agent joins a site's reply into the receive buffer and sets RX_READY. -/
  | siteReplyAssembled (site : Nat) (msg : Bytes)
  /-- SITE_REPLY_TIMEOUT (R128, 03_startup.md): No reply within 10 ms sets ERR 0x02. -/
  | siteReplyTimeout (site : Nat)
  /-- SIDEBAND_DOWN (R128, 03_startup.md): A site's sideband drops, setting ERR 0x01 and failing boarding. -/
  | sidebandDown (site : Nat)
  /-- SITE_REBOARD (R124, 03_startup.md): PF0 asks Pilot to board one site again. -/
  | siteReboard (body : Bytes)
  /-- LOCKSTEP_MISMATCH (R133, 03_startup.md): A Pilot lockstep mismatch gates outputs and runs a warm restart, or halts 0x83 or 0xA5. -/
  | lockstepMismatch
  /-- WARM_RESTART_RESUME (R133, 03_startup.md): After the code digest matches, firmware re-enters, reissues broadcasts and takes queued alarms. -/
  | warmRestartResume (codeDigest : Bytes)
  /-- WARM_RESTART_GUARD_EXPIRY (R137, 03_startup.md): 100 ms after a warm restart ends a new mismatch again leads to a warm restart. -/
  | warmRestartGuardExpiry
  /-- PILOT_HALT (R132, 03_startup.md): Pilot halts on a failed check; lanes fail closed and MB_HALT_N is asserted. -/
  | pilotHalt (code : Byte)
  /-- PILOT_ACCESS_FAULT (R581, 17_register_index.md): A Pilot access outside the map or of wrong shape raises an access fault with no effect. -/
  | pilotAccessFault (a : PilotAccess)
  /-- PROGRAM (R158, 04_fuses.md): FUSE_CMD PROGRAM checks and starts burning a word. -/
  | program (arm : Byte) (word : BitVec 12)
  /-- INCREMENT (R149, 04_fuses.md): FUSE_CMD INCREMENT burns the next step word of a counter region. -/
  | increment (arm : Byte) (word : BitVec 12)
  /-- FINALISE (R151, 04_fuses.md): FUSE_CMD FINALISE computes the region digest and burns words 124-127. -/
  | finalise (arm : Byte) (word : BitVec 12)
  /-- LOCK_WRITE (R164, 04_fuses.md): FUSE_CMD LOCK_WRITE burns a region's write-lock word. -/
  | lockWrite (arm : Byte) (word : BitVec 12)
  /-- LOCK_READ (R163, 04_fuses.md): FUSE_CMD LOCK_READ burns a region's read-lock word. -/
  | lockRead (arm : Byte) (word : BitVec 12)
  /-- RESENSE (R144, 04_fuses.md): FUSE_CMD RESENSE re-senses one region. -/
  | resense (arm : Byte) (word : BitVec 12) (drift : List (Nat × FuseCell))
  /-- RESENSE_ALL (R144, 04_fuses.md): FUSE_CMD RESENSE_ALL re-senses every region. -/
  | resenseAll (arm : Byte) (word : BitVec 12) (drift : List (Nat × FuseCell))
  /-- WIPE (R170, 04_fuses.md): FUSE_CMD WIPE burns every bit of a region during a scrap transition. -/
  | wipe (arm : Byte) (word : BitVec 12)
  /-- SEAL (R147, 04_fuses.md): FUSE_CMD SEAL fills a secret region from the DRBG and finalises it. -/
  | seal (arm : Byte) (word : BitVec 12)
  /-- FUSE_RESERVED_OP (R170, 04_fuses.md): A reserved FUSE_CMD OP is refused with 0x03. -/
  | fuseReservedOp (arm : Byte) (word : BitVec 12) (op : BitVec 4)
  /-- FUSE_BIT_PULSE_DONE (R157, 04_fuses.md): A programming pulse and verify read end; the next bit, retry, word re-sense or operation end follows. -/
  | fuseBitPulseDone (level : BitVec 3)
  /-- FUSE_TACK_COMMIT (R166, 04_fuses.md): FUSE_TACK_COMMIT applies all staged tack entries or refuses them as a whole. -/
  | fuseTackCommit
  /-- GO (R184, 05_lifecycle_debug.md): LC_XFER_CTL.GO starts a life-cycle transition burn after the block's checks. -/
  | go (target : BitVec 4)
  /-- GRANT (R198, 05_lifecycle_debug.md): LC_DBG_REQ.GRANT grants rights, first destroying keys for an invasive right. -/
  | grant (rights : BitVec 10)
  /-- INVASIVE_GRANT_COMPLETE (R198, 05_lifecycle_debug.md): After rinses and DESTROY_ALL, VAULT_EMPTY lets the invasive right take effect. -/
  | invasiveGrantComplete
  /-- TRANSITION (R191, 05_lifecycle_debug.md): A JTAG mailbox TRANSITION request carries tokens for Pilot to verify and drive. -/
  | transition
  /-- DEBUG (R191, 05_lifecycle_debug.md): A JTAG mailbox DEBUG request carries a certificate or Maker bitmap. -/
  | debug
  /-- RESUME_WIPE (R201, 05_lifecycle_debug.md): A JTAG mailbox RESUME_WIPE repeats the scrap wipe on unwiped regions. -/
  | resumeWipe
  /-- LC_MBOX_RESERVED_REQ (R191, 05_lifecycle_debug.md): A reserved or disallowed mailbox request ends with RESULT 0x0C. -/
  | lcMboxReservedReq (req : BitVec 4)
  /-- END (R202, 05_lifecycle_debug.md): LC_MBOX_RESULT.END posts CODE, clears BUSY and sets DONE. -/
  | endRequest (code : Byte)
  /-- GENERATE (R213, 06_keys.md): Vault GENERATE draws a key into a slot or berth-record field. -/
  | generate (c : VaultCmd)
  /-- WRITE (R213, 06_keys.md): Vault WRITE stores firmware key material into slots 12-15. -/
  | write (c : VaultCmd)
  /-- READ (R211, 06_keys.md): Vault READ returns an FW_READ slot into VAULT_DATA. -/
  | read (c : VaultCmd)
  /-- DERIVE (R221, 06_keys.md): Vault DERIVE runs the KDF into slots 4-7 or 12-15. -/
  | derive (c : VaultCmd)
  /-- DESTROY (R233, 06_keys.md): Vault DESTROY empties a slot, a berth field or a whole record. -/
  | destroy (c : VaultCmd)
  /-- ATTR (R211, 06_keys.md): Vault ATTR narrows a slot's attribute word. -/
  | attr (c : VaultCmd)
  /-- BERTH_OPEN (R216, 06_keys.md): Vault BERTH_OPEN creates a berth record with fresh seeds. -/
  | berthOpen (c : VaultCmd)
  /-- ROTATE (R229, 06_keys.md): Vault ROTATE draws a new Tier-2 generation and starts the sweep. -/
  | rotate (c : VaultCmd)
  /-- RELEASE (R226, 06_keys.md): Vault RELEASE unwraps a tenant key into a berth field. -/
  | release (c : VaultCmd)
  /-- WRAP (R233, 06_keys.md): Vault WRAP seals a slot 12-15 into a blob. -/
  | wrap (c : VaultCmd)
  /-- UNWRAP (R233, 06_keys.md): Vault UNWRAP restores a blob into a slot 12-15. -/
  | unwrap (c : VaultCmd)
  /-- KEYPAIR (R225, 06_keys.md): Vault KEYPAIR returns the public keys of an exchange or link slot. -/
  | keypair (c : VaultCmd)
  /-- DESTROY_ALL (R198, 05_lifecycle_debug.md): Vault DESTROY_ALL performs the destructions of an invasive grant. -/
  | destroyAll (c : VaultCmd)
  /-- MAINT_ENCAP (R386, 11_gangway.md): LINK_AGREE MAINT_ENCAP encapsulates and writes maintenance keys. -/
  | maintEncap (c : VaultCmd)
  /-- MAINT_DECAP (R386, 11_gangway.md): LINK_AGREE MAINT_DECAP decapsulates and writes maintenance keys. -/
  | maintDecap (c : VaultCmd)
  /-- JOB_DRAW (R386, 11_gangway.md): LINK_AGREE JOB_DRAW draws an ephemeral seed for a job agreement. -/
  | jobDraw (c : VaultCmd)
  /-- JOB_ENCAP (R386, 11_gangway.md): LINK_AGREE JOB_ENCAP encapsulates and writes job keys and next generation. -/
  | jobEncap (c : VaultCmd)
  /-- JOB_DECAP (R386, 11_gangway.md): LINK_AGREE JOB_DECAP decapsulates and writes job keys and next generation. -/
  | jobDecap (c : VaultCmd)
  /-- PROMOTE (R391, 11_gangway.md): LINK_AGREE PROMOTE moves the next job generation in and derives the following. -/
  | promote (c : VaultCmd)
  /-- JOB_DROP (R386, 11_gangway.md): LINK_AGREE JOB_DROP zeroes the job key fields. -/
  | jobDrop (c : VaultCmd)
  /-- MAINT_DRAW (R394, 11_gangway.md): LINK_AGREE MAINT_DRAW draws a seed for a link-class rekey. -/
  | maintDraw (c : VaultCmd)
  /-- VAULT_RESERVED_OP (R235, 06_keys.md): A reserved vault OP or LINK_AGREE step is refused. -/
  | vaultReservedOp (c : VaultCmd) (op : BitVec 5)
  /-- INVALIDATION (R228, 06_keys.md): A lane receives a vault invalidation, drops its entry and acknowledges. -/
  | invalidation (isl : Island)
  /-- INVALIDATION_ACK (R228, 06_keys.md): A lane acknowledgement reaches the vault; the last sets DONE. -/
  | invalidationAck (isl : Island)
  /-- VAULT_FILL (R227, 06_keys.md): The vault serves one fill on a port's round-robin turn, or refuses it. -/
  | vaultFill (readable : Bool)
  /-- KEY_FILL_ARRIVE (R346, 10_pier.md): A fill reaches a lane; waiting lines rerun Bind and Check, or a negative entry is kept. -/
  | keyFillArrive (isl : Island)
  /-- SWEEP_DONE_REPORT (R231, 06_keys.md): A Pier reports its sweep done; the last one completes the rotation. -/
  | sweepDoneReport (pier : Nat)
  /-- SHA_384 (R238, 06_keys.md): Crypto op SHA-384. -/
  | sha384Op (keysel : BitVec 6)
  /-- SHA3_384 (R238, 06_keys.md): Crypto op SHA3-384. -/
  | sha3Op (keysel : BitVec 6)
  /-- HMAC_SHA_384 (R238, 06_keys.md): Crypto op HMAC-SHA-384 under a SYM slot. -/
  | hmacOp (keysel : BitVec 6)
  /-- AES_GCM_ENCRYPT (R238, 06_keys.md): Crypto op AES-GCM encrypt under a SYM slot. -/
  | aesGcmEncrypt (keysel : BitVec 6)
  /-- AES_GCM_DECRYPT (R238, 06_keys.md): Crypto op AES-GCM decrypt under a SYM slot. -/
  | aesGcmDecrypt (keysel : BitVec 6)
  /-- HYBRID_SIGN (R238, 06_keys.md): Crypto op hybrid sign of a 48-byte message under a SIGN slot. -/
  | hybridSign (keysel : BitVec 6)
  /-- HYBRID_VERIFY (R238, 06_keys.md): Crypto op hybrid verify, PASS only if both halves verify. -/
  | hybridVerify (keysel : BitVec 6)
  /-- DRBG_READ (R238, 06_keys.md): Crypto op DRBG_READ returns random bytes. -/
  | drbgRead (keysel : BitVec 6)
  /-- CRYPTO_RESERVED_OP (R238, 06_keys.md): A reserved crypto OP is refused with 0x02. -/
  | cryptoReservedOp (keysel : BitVec 6) (op : BitVec 4)
  /-- CRYPTO_OP_DONE (R238, 06_keys.md): A crypto operation ends and DONE sets. -/
  | cryptoOpDone
  /-- ENTROPY_TEST_FAIL (R224, 06_keys.md): A continuous entropy test fails; DRBG_OK clears and drawing commands are refused. -/
  | entropyTestFail
  /-- DRBG_RESEED (R223, 06_keys.md): A DRBG reseed with passing tests sets DRBG_OK again. -/
  | drbgReseed (pass : Bool)
  /-- HELLO (R264, 07_attestation.md): A Prirdo HELLO is checked and answered with EVIDENCE or ERROR. -/
  | hello (vf : Nat) (msg : Bytes)
  /-- PRIRDO_RELEASE (R269, 07_attestation.md): A Prirdo RELEASE is verified, its entries installed, and RESULT sent. -/
  | prirdoRelease (vf : Nat) (msg : Bytes)
  /-- PRIRDO_END (R272, 07_attestation.md): A Prirdo END ends the session and destroys its exchange slot. -/
  | prirdoEnd (vf : Nat) (msg : Bytes)
  /-- PRIRDO_RESERVED_TYPE (R261, 07_attestation.md): A Prirdo message of reserved TYPE is answered with ERROR 0x01. -/
  | prirdoReservedType (vf : Nat) (msg : Bytes)
  /-- PRIRDO_SESSION_TIMEOUT (R272, 07_attestation.md): 10 s with no key-service message ends a release session. -/
  | prirdoSessionTimeout (slot : Nat)
  /-- ENROL_CSR (R252, 07_attestation.md): PF0 ENROL_CSR returns a signing request for an identity key. -/
  | enrolCsr (body : Bytes)
  /-- ENROL_INSTALL (R252, 07_attestation.md): PF0 ENROL_INSTALL checks and stores root and identity certificates. -/
  | enrolInstall (body : Bytes)
  /-- UPDATE_STATUS (R291, 08_update.md): PF0 UPDATE_STATUS returns the update state and records. -/
  | updateStatus (body : Bytes)
  /-- UPDATE_BEGIN (R293, 08_update.md): PF0 UPDATE_BEGIN checks a Manifest and starts erasing the Slipway. -/
  | updateBegin (body : Bytes)
  /-- UPDATE_WRITE (R295, 08_update.md): PF0 UPDATE_WRITE programs and reads back part bytes. -/
  | updateWrite (body : Bytes)
  /-- UPDATE_END (R296, 08_update.md): PF0 UPDATE_END starts validation of the staged parts. -/
  | updateEnd (body : Bytes)
  /-- UPDATE_ABORT (R292, 08_update.md): PF0 UPDATE_ABORT abandons the staged update or marks the trial BAD. -/
  | updateAbort (body : Bytes)
  /-- UPDATE_CONFIRM (R297, 08_update.md): PF0 UPDATE_CONFIRM confirms a held trial or retries pending counter burns. -/
  | updateConfirm (body : Bytes)
  /-- UPDATE_ERASE_DONE (R292, 08_update.md): The Slipway erase ends and the Manifest is programmed; state STAGING. -/
  | updateEraseDone (ok : Bool)
  /-- UPDATE_VALIDATE_DONE (R296, 08_update.md): Validation ends: STAGED is programmed or the state returns to IDLE. -/
  | updateValidateDone (programOk : Bool)
  /-- TRIAL_CONFIRM (R297, 08_update.md): When its conditions hold, Pilot programs CONFIRMED and starts the copy. -/
  | trialConfirm
  /-- SLIPWAY_COPY (R298, 08_update.md): Pilot copies the Slipway into the target bank, commits it and programs COPIED. -/
  | slipwayCopy (programOk : Bool)
  /-- COUNTER_BURN (R300, 08_update.md): Pilot raises anti-rollback counters, burns revocations and retires the old bank. -/
  | counterBurn
  /-- SETTINGS_WRITE (R305, 08_update.md): Pilot writes a settings copy to the other area, COMMIT last. -/
  | settingsWrite (programOk : Bool)
  /-- BERTH_QUERY (R319, 09_berths_rinse.md): PF1 BERTH_QUERY returns a berth's state, level, resources and windows. -/
  | berthQuery (body : Bytes)
  /-- BERTH_ASSIGN (R319, 09_berths_rinse.md): PF1 BERTH_ASSIGN opens a berth record and gives the Ferry run. -/
  | berthAssign (body : Bytes)
  /-- BERTH_WINDOW (R320, 09_berths_rinse.md): PF1 BERTH_WINDOW stages a window slot. -/
  | berthWindow (body : Bytes)
  /-- BERTH_SITES (R319, 09_berths_rinse.md): PF1 BERTH_SITES stages a site bitmap. -/
  | berthSites (body : Bytes)
  /-- BERTH_COMMIT (R321, 09_berths_rinse.md): PF1 BERTH_COMMIT checks the staged set and starts wipes, zeroing and broadcast. -/
  | berthCommit (body : Bytes)
  /-- BERTH_COMMIT_CONTINUE (R321, 09_berths_rinse.md): After wipes and zeroing end, Pilot broadcasts the new tables. -/
  | berthCommitContinue (berth : Nat)
  /-- BERTH_RINSE (R319, 09_berths_rinse.md): PF1 BERTH_RINSE puts the berth into RINSING. -/
  | berthRinse (body : Bytes)
  /-- BERTH_ROTATE (R319, 09_berths_rinse.md): PF1 BERTH_ROTATE issues a vault ROTATE with the given share. -/
  | berthRotate (body : Bytes)
  /-- BERTH_RESUME (R308, 09_berths_rinse.md): PF1 BERTH_RESUME ends a suspended berth's job and returns it to ASSIGNED. -/
  | berthResume (body : Bytes)
  /-- FERRY_SHARE (R501, 14_ferry.md): PF1 FERRY_SHARE sets a channel's rate share. -/
  | ferryShare (body : Bytes)
  /-- WIPE_ACK (R316, 09_berths_rinse.md): A site acknowledges a WIPE and is unbound or cleared. -/
  | wipeAck (site : Nat) (measurement : Bytes) (signed : Bool := true)
  /-- WIPE_TIMEOUT (R317, 09_berths_rinse.md): No WIPE acknowledgement within 100 ms marks the site failed. -/
  | wipeTimeout (site : Nat)
  /-- RINSE_STEP_DONE (R323, 09_berths_rinse.md): A rinse step completes and the next step of the full rinse starts. -/
  | rinseStepDone (berth : Nat)
  /-- RINSE_SEQUENCER_TAKEOVER (R327, 09_berths_rinse.md): The hardware sequencer takes over at its 5 ms or 250 ms limit and rinses memory-only. -/
  | rinseSequencerTakeover (berth : Nat)
  /-- LANE_COMMAND_ACCEPT (R42, 01_architecture.md): At a line boundary a lane takes one waiting alarm, Pilot command or broadcast. -/
  | laneCommandAccept (isl : Island)
  /-- PIER_LINE (R341, 10_pier.md): A line from the fabric passes Bind, Check, Tap and Code or is refused. -/
  | pierLine (pier : Nat) (l : FabricLine)
  /-- PIER_READ_RETURN (R350, 10_pier.md): Read data or metadata returns from memory and is decoded, MAC-checked and returned. -/
  | pierReadReturn (pier : Nat) (stored side : Bytes)
  /-- PIER_SCRUB_WRITE (R350, 10_pier.md): A queued corrected line is written back in an idle slot. -/
  | pierScrubWrite (pier : Nat)
  /-- PIER_ZERO_WRITE (R324, 09_berths_rinse.md): A Pier issues zero writes of a zeroing range. -/
  | pierZeroWrite (pier : Nat)
  /-- UNINIT_FILL_WRITE (R356, 10_pier.md): A Pier writes encrypted zeros of an uninitialised MiB and clears its bit at the end. -/
  | uninitFillWrite (pier : Nat)
  /-- PIER_SWEEP_LINE (R230, 06_keys.md): The rotation sweep re-encrypts one old-generation line in an idle slot. -/
  | pierSweepLine (pier : Nat) (stored metaLine : Bytes)
  /-- PAIR_COMPLETION_READ (R360, 10_pier.md): After a point closes the Pier reads unreached lines and reports the partial sum when done. -/
  | pairCompletionRead (pier : Nat) (cursor : Nat) (stored side : Bytes)
  /-- PIER_COMMIT_DRAIN_DONE (R343, 10_pier.md): Lines admitted under the old tables complete and the Pier acknowledges the COMMIT. -/
  | pierCommitDrainDone (pier : Nat)
  /-- PIER_PARK (R369, 10_pier.md): PIER_CTL.PARK drains and parks the lane or returns it to service. -/
  | pierPark (pier : Nat) (park : Bool)
  /-- PIER_COMMIT_GO (R343, 10_pier.md): PIER_COMMIT.GO broadcasts the staged tables with a sequence number. -/
  | pierCommitGo (t : PierTarget) (seq : BitVec 16)
  /-- PIER_ZERO_GO (R324, 09_berths_rinse.md): PIER_ZERO_CMD.GO zeroes or pre-fills a range. -/
  | pierZeroGo (t : PierTarget)
  /-- PIER_ZERO_UNINIT (R356, 10_pier.md): PIER_ZERO_CMD.UNINIT marks a Tier-2 range uninitialised. -/
  | pierZeroUninit (t : PierTarget)
  /-- CAPTURE_PIN_RETRY (R348, 10_pier.md): A refused pin is retried after at least 100 us. -/
  | capturePinRetry (vf : Nat)
  /-- DARN (R363, 10_pier.md): A lane fault moves the lane's state to its group spare, or takes it out of service. -/
  | darn (isl : Island) (cause : DarnCause) (stateReadable spareOk : Bool)
  /-- BROADCAST_ACK_TIMEOUT (R361, 10_pier.md): A lane that does not acknowledge a broadcast within 20 us starts a Darn. -/
  | broadcastAckTimeout (isl : Island)
  /-- SPOT_TEST_START (R366, 10_pier.md): At the period a group, Gangway group or Press array starts a spot test. -/
  | spotTestStart (g : TestGroup)
  /-- SPOT_TEST_END (R366, 10_pier.md): A spot test ends and the lane is returned or failed. -/
  | spotTestEnd (g : TestGroup) (pass : Bool)
  /-- BROADCAST (R28, 01_architecture.md): Pilot closes a package gate and broadcasts a package-wide change to every lane and array. -/
  | broadcast (k : BroadcastKind)
  /-- BROADCAST_ACK (R28, 01_architecture.md): A lane or array acknowledgement reaches Pilot; the last completes the change. -/
  | broadcastAck (isl : Island)
  /-- LINK_TRAINED_EVENT (R378, 11_gangway.md): A link trains after step 5.6 and enters OPENING with GENERATE and KEYPAIR. -/
  | linkTrainedEvent (lane : Nat)
  /-- LINK_LAYER_DOWN (R382, 11_gangway.md): The link layer reports a link down and it closes. -/
  | linkLayerDown (lane : Nat)
  /-- LINK_HELLO (R380, 11_gangway.md): A LINK_HELLO arrives; the higher side encapsulates and sends LINK_KEX. -/
  | linkHello (lane : Nat) (f : GwFrame)
  /-- LINK_KEX (R381, 11_gangway.md): A LINK_KEX arrives and the lower side decapsulates. -/
  | linkKex (lane : Nat) (f : GwFrame)
  /-- LINK_EVIDENCE (R381, 11_gangway.md): A peer's LINK_EVIDENCE is checked and accepted or refused with LINK_ERROR. -/
  | linkEvidence (lane : Nat) (f : GwFrame)
  /-- LINK_FIN (R378, 11_gangway.md): LINK_FIN checked in both directions makes the link ATTESTED. -/
  | linkFin (lane : Nat) (f : GwFrame)
  /-- LINK_ERROR (R380, 11_gangway.md): A LINK_ERROR from the peer closes the opening link. -/
  | linkError (lane : Nat) (f : GwFrame)
  /-- KEEPALIVE (R382, 11_gangway.md): A KEEPALIVE frame arrives and restarts the silence limit. -/
  | keepalive (lane : Nat) (f : GwFrame)
  /-- REKEY (R393, 11_gangway.md): A REKEY frame moves a direction to the next generation or carries a link-class rekey. -/
  | rekey (lane : Nat) (f : GwFrame)
  /-- JOB_OFFER (R388, 11_gangway.md): A JOB_OFFER arrives and the higher side answers JOB_ACCEPT. -/
  | jobOffer (lane : Nat) (f : GwFrame)
  /-- JOB_ACCEPT (R388, 11_gangway.md): A JOB_ACCEPT arrives; the lower side decapsulates or retries. -/
  | jobAccept (lane : Nat) (f : GwFrame)
  /-- DISCOVER (R399, 11_gangway.md): A DISCOVER is adopted, discarded or echoed under the formation ranking. -/
  | discover (lane : Nat) (f : GwFrame)
  /-- ECHO (R399, 11_gangway.md): An ECHO arrives; a package echoes to its parent or completes as coordinator. -/
  | echo (lane : Nat) (f : GwFrame)
  /-- FORMED (R399, 11_gangway.md): FORMED gives the coordinator, epoch and member list and is passed down. -/
  | formed (lane : Nat) (f : GwFrame)
  /-- ROUTE (R402, 11_gangway.md): A ROUTE message is forwarded toward its destination or delivered. -/
  | route (lane : Nat) (f : GwFrame)
  /-- PAYLOAD (R377, 11_gangway.md): An inbound PAYLOAD bundle goes to the berth's Ferry channel or is held or discarded. -/
  | payload (lane : Nat) (f : GwFrame)
  /-- RESERVED_KIND_FRAME (R374, 11_gangway.md): A frame of reserved KIND is discarded after its trailer check. -/
  | reservedKindFrame (lane : Nat) (f : GwFrame)
  /-- LINK_HELLO_TIMEOUT (R378, 11_gangway.md): No LINK_HELLO within 10 s closes the opening link. -/
  | linkHelloTimeout (lane : Nat)
  /-- LINK_REOPEN_TIMER (R378, 11_gangway.md): 10 s in CLOSED with the link trained returns it to OPENING. -/
  | linkReopenTimer (lane : Nat)
  /-- LINK_SILENCE_TIMEOUT (R382, 11_gangway.md): No valid link-class frame for 10 ms closes the link. -/
  | linkSilenceTimeout (lane : Nat)
  /-- KEEPALIVE_TIMER (R382, 11_gangway.md): 1 ms with no link-class frame sent sends KEEPALIVE. -/
  | keepaliveTimer (lane : Nat)
  /-- CREDIT_WITHHOLD_TIMEOUT (R383, 11_gangway.md): Credit withheld for 1 s closes the link with TIMEOUT. -/
  | creditWithholdTimeout (lane : Nat)
  /-- EVIDENCE_BATCH_TIMER (R381, 11_gangway.md): 6.5 ms after the first link entered OPENING Pilot signs LINK_EVIDENCE. -/
  | evidenceBatchTimer
  /-- JOB_OFFER_RETRY (R388, 11_gangway.md): After STATUS 0x01 the lower side repeats JOB_OFFER every 100 ms. -/
  | jobOfferRetry (lane : Nat)
  /-- REKEY_THRESHOLD (R393, 11_gangway.md): A counter reaching 2^32 - 2^24 raises REKEY_PEND and sends REKEY. -/
  | rekeyThreshold (lane : Nat) (job : Bool)
  /-- CLOSE (R405, 11_gangway.md): GW_CTL.CLOSE closes the link. -/
  | close (lane : Nat)
  /-- GW_PARK (R405, 11_gangway.md): GW_CTL.PARK closes and parks the lane. -/
  | gwPark (lane : Nat) (park : Bool)
  /-- GW_COMMIT_GO (R387, 11_gangway.md): GW_COMMIT.GO applies GW_JOB and GW_JOB_RUN and starts a job agreement. -/
  | gwCommitGo (t : GwTarget) (seq : BitVec 16)
  /-- GW_CF_SEND (R405, 11_gangway.md): GW_CF_CTL.SEND seals and sends a control frame. -/
  | gwCfSend (lane : Nat)
  /-- GW_CF_RX_FREE (R405, 11_gangway.md): Writing GW_CF_CTL.RX_READY frees the head control frame and may restore credit. -/
  | gwCfRxFree (lane : Nat)
  /-- PAIR_DIGEST (R480, 13_line_pair.md): A PAIR_DIGEST reaches the class leader, which votes when all are in. -/
  | pairDigest (body : Bytes)
  /-- PAIR_VERDICT (R483, 13_line_pair.md): A PAIR_VERDICT reaches a member, which acts on its role. -/
  | pairVerdict (body : Bytes)
  /-- JOB_LEAVE (R404, 11_gangway.md): A JOB_LEAVE makes a member drop its links to the leaver. -/
  | jobLeave (body : Bytes)
  /-- JOB_OPEN (R414, 12_press.md): VF JOB_OPEN admits a job, draws PRESS_SEED and assigns a ring. -/
  | jobOpen (vf : Nat) (body : Bytes)
  /-- JOB_CLOSE (R416, 12_press.md): VF JOB_CLOSE stops the ring and settles remaining tiles. -/
  | jobClose (vf : Nat) (body : Bytes)
  /-- JOB_CLOSE_COMPLETE (R416, 12_press.md): Outstanding verdicts end; entries retire, the ring is released and the berth returns to ASSIGNED. -/
  | jobCloseComplete (vf : Nat)
  /-- PRESS_DECL_PORT (R417, 12_press.md): A 64-byte host write to PRESS_DECL_PORT enters the ring or is dropped. -/
  | pressDeclPort (vf offset : Nat) (data : Bytes)
  /-- DECLARE (R417, 12_press.md): A sideband DECLARE from a site enters the ring and is answered with DECL_STATUS. -/
  | declare (site : Nat) (data : Bytes)
  /-- DECL_HEAD_CHECK (R418, 12_press.md): The sampler checks the declaration at the ring head and rejects it or prepares to arm it. -/
  | declHeadCheck (vf : Nat)
  /-- DECL_ARM (R439, 12_press.md): When resources, ledger room and hold conditions allow, a declaration is armed and acknowledged. -/
  | declArm (vf : Nat)
  /-- RANGE_DONE (R441, 12_press.md): A Pier reports a range complete; tiles become ready or results complete. -/
  | rangeDone (pier range : Nat)
  /-- OPERAND_WAIT_TIMEOUT (R441, 12_press.md): 10 us after a result completes without operands the tile is INCOMPLETE. -/
  | operandWaitTimeout (vf : Nat) (declId : DWord) (tile : Nat)
  /-- TILE_DISPATCH (R443, 12_press.md): A ready tile is dispatched to a free array by priority. -/
  | tileDispatch (array : Nat)
  /-- TILE_COMPLETE (R447, 12_press.md): An array finishes the reference, compares the result and produces a verdict record. -/
  | tileComplete (array : Nat) (d : TileData)
  /-- ARRAY_FAULT (R444, 12_press.md): A residue, sequencer or PLL fault takes the array out and requeues its tile. -/
  | arrayFault (array : Nat) (cause : ArrayCause)
  /-- VERDICT_APPLY (R461, 13_line_pair.md): A verdict record in the ledger updates hold entries, drying or failing them. -/
  | verdictApply (vf : Nat)
  /-- PRESS_VERDICT_CONS (R452, 12_press.md): A write of PRESS_VERDICT_CONS consumes records and frees ledger room. -/
  | pressVerdictCons (vf : Nat) (value : Word)
  /-- PRESS_REGION_COMMIT (R425, 12_press.md): PRESS_REGION_COMMIT.GO applies every staged region slot. -/
  | pressRegionCommit (vf : Nat)
  /-- PRESS_PARK (R454, 12_press.md): PRESS_CTL.PARK finishes the running tile and parks the array or returns it. -/
  | pressPark (array : Nat) (park : Bool)
  /-- HOLD_CHECK (R466, 13_line_pair.md): Ferry asks the hold check about an export, answered GO, WAIT or REFUSE. -/
  | holdCheck (ch : Nat)
  /-- HOLD_QUERY (R488, 13_line_pair.md): VF HOLD_QUERY returns a segment's hold state. -/
  | holdQuery (vf : Nat) (body : Bytes)
  /-- JOB_PEERS (R473, 13_line_pair.md): VF JOB_PEERS writes entries of the member list. -/
  | jobPeers (vf : Nat) (body : Bytes)
  /-- PAIR_POINT (R476, 13_line_pair.md): VF PAIR_POINT arms Pair cursors for a point. -/
  | pairPoint (vf : Nat) (body : Bytes)
  /-- PAIR_STATUS (R489, 13_line_pair.md): VF PAIR_STATUS returns a point's outcome. -/
  | pairStatus (vf : Nat) (body : Bytes)
  /-- PAIR_CURSOR_DONE (R477, 13_line_pair.md): A Pier reports a cursor DONE; when all are done CLOSE_DECL is acknowledged and the digest sent. -/
  | pairCursorDone (pier cursor : Nat)
  /-- PAIR_DIGEST_TIMEOUT (R484, 13_line_pair.md): After 10 s the leader votes with missing members absent. -/
  | pairDigestTimeout (vf : Nat) (point : Word)
  /-- PAIR_VERDICT_TIMEOUT (R484, 13_line_pair.md): After 20 s without a verdict the member fails its gated segment with LOST. -/
  | pairVerdictTimeout (vf : Nat) (point : Word)
  /-- IDLE_TEST (R486, 13_line_pair.md): Every TEST_PERIOD Pilot sends IDLE_TEST to each eligible site. -/
  | idleTest
  /-- IDLE_TEST_REPORT (R486, 13_line_pair.md): A site's idle-slot test report passes or fails the site. -/
  | idleTestReport (site : Nat) (testId : Word) (result : Byte) (detail : DWord)
  /-- IDLE_TEST_TIMEOUT (R486, 13_line_pair.md): No report within DEADLINE_MS plus 100 ms counts as failed. -/
  | idleTestTimeout (site : Nat)
  /-- FERRY_CH_DOORBELL (R508, 14_ferry.md): A doorbell write increments DBCOUNT and may start or re-read the chain. -/
  | ferryChDoorbell (vf k : Nat)
  /-- STOP (R513, 14_ferry.md): FERRY_CH_CTL.STOP halts a running channel after its descriptor. -/
  | stop (vf k : Nat)
  /-- SKIP (R513, 14_ferry.md): FERRY_CH_CTL.SKIP abandons a halted descriptor and follows NEXT. -/
  | skip (vf k : Nat)
  /-- RESUME (R513, 14_ferry.md): FERRY_CH_CTL.RESUME restarts a halted descriptor at DONE. -/
  | resume (vf k : Nat)
  /-- DESCRIPTOR_FETCH_DONE (R495, 14_ferry.md): A fetched descriptor is checked and the channel WAITING or HALTED. -/
  | descriptorFetchDone (ch : Nat) (desc : Bytes)
  /-- ENGINE_START (R500, 14_ferry.md): A free engine takes the next eligible channel's descriptor. -/
  | engineStart (eng : Nat)
  /-- DESCRIPTOR_DONE (R509, 14_ferry.md): A descriptor's last write is accepted; the chain continues or ends. -/
  | descriptorDone (eng : Nat)
  /-- HOST_COMPLETION (R511, 14_ferry.md): A host completion arrives; data, errors or unexpected completions are handled. -/
  | hostCompletion (fn : Func) (tag : Nat) (c : HostCpl)
  /-- FABRIC_RESPONSE (R511, 14_ferry.md): A Pier's response to a Ferry line arrives, halting on ACCESS_ERR or POISON. -/
  | fabricResponse (eng : Nat) (r : LineResp) (data : Bytes)
  /-- HOST_REQUEST_RETRY (R511, 14_ferry.md): A failed host request is reissued after at least 1 us. -/
  | hostRequestRetry (fn : Func) (tag : Nat)
  /-- COMPLETION_TIMEOUT (R544, 15_host.md): A host request reaches its timeout T and is reported. -/
  | completionTimeout (fn : Func) (tag : Nat)
  /-- TAG_QUARANTINE_EXPIRY (R545, 15_host.md): 2T after issue a quarantined tag is released. -/
  | tagQuarantineExpiry (fn : Func) (tag : Nat)
  /-- FERRY_PCH_GO (R510, 14_ferry.md): FERRY_PCH_CTL.GO starts a privileged descriptor. -/
  | ferryPchGo (p : Nat)
  /-- FERRY_PCH_ABORT (R510, 14_ferry.md): FERRY_PCH_CTL.ABORT ends a privileged descriptor at the next line. -/
  | ferryPchAbort (p : Nat)
  /-- FERRY_COMMIT (R518, 14_ferry.md): FERRY_COMMIT.GO applies every staged FERRY_CH_MAP entry. -/
  | ferryCommit (seq : BitVec 16)
  /-- PERIPHERAL_REQUEST (R516, 14_ferry.md): A peripheral's asserted request starts a burst on its serving path. -/
  | peripheralRequest (p : Peripheral) (asserted : Bool)
  /-- PERIPHERAL_BURST_DONE (R516, 14_ferry.md): A peripheral burst completes whole. -/
  | peripheralBurstDone (p : Peripheral)
  /-- FERRY_ENGINE_FAULT (R562, 16_faults_journal.md): A Ferry engine fault removes it and requeues its descriptor and service work. -/
  | ferryEngineFault (eng : Nat)
  /-- ISLAND_RESTART (R563, 16_faults_journal.md): A host guard or Boarding agent island fault restarts it and reloads its state. -/
  | islandRestart (isl : Island)
  /-- VAULT_ISLAND_RESTART (R564, 16_faults_journal.md): A vault-and-fuse island fault restarts it, rerunning or completing the command in hand. -/
  | vaultIslandRestart (cutLevel : BitVec 3 := 0)
  /-- HOST_UNSUPPORTED_REQUEST (R528, 15_host.md): A host request that breaks the access rules is completed or dropped as UR. -/
  | hostUnsupportedRequest (fn : Func) (posted : Bool) (r : UrReason)
  /-- MBX_GO (R531, 15_host.md): MBX_CTL.GO hands a request fragment to the mailbox; a complete request goes to Pilot. -/
  | mbxGo (fn : Func)
  /-- NEXT (R531, 15_host.md): MBX_CTL.NEXT presents the next response fragment or returns to IDLE. -/
  | next (fn : Func)
  /-- MBX_ABORT (R532, 15_host.md): MBX_CTL.ABORT discards the message in hand. -/
  | mbxAbort (fn : Func)
  /-- MBX_EXPIRY (R532, 15_host.md): 1 s without GO or NEXT discards the mailbox and sets EXPIRED. -/
  | mbxExpiry (fn : Func)
  /-- HG_P_POP (R557, 15_host.md): HG_P_POP removes the head host event. -/
  | hgPPop
  /-- HG_P_RESP_SEND (R557, 15_host.md): HG_P_RESP.SEND presents a response from its slot. -/
  | hgPRespSend (slot : BitVec 6)
  /-- UNIT_STATUS (R534, 15_host.md): PF0 UNIT_STATUS returns the unit status reply. -/
  | unitStatus (body : Bytes)
  /-- MAILBOX_UNKNOWN_CODE (R534, 15_host.md): A command code not carried by the function returns MSTATUS 0x03. -/
  | mailboxUnknownCode (fn : Func) (code : Byte)
  /-- FLR (R540, 15_host.md): Initiate FLR of a VF silences it, rinses its berth and resets the function. -/
  | flr (fn : Func)
  /-- BUS_MASTER_CLEAR (R539, 15_host.md): Clearing Bus Master Enable stops a VF's host requests and halts its channels. -/
  | busMasterClear (fn : Func)
  /-- BUS_MASTER_SET (R539, 15_host.md): Setting Bus Master Enable releases pending MSI-X. -/
  | busMasterSet (fn : Func)
  /-- VF_ENABLE_CHANGE (R541, 15_host.md): A change of VF Enable or NumVFs resets vanished VFs. -/
  | vfEnableChange (enable : Bool) (numVfs : Nat)
  /-- CONVENTIONAL_RESET (R542, 15_host.md): An endpoint conventional reset acts as FLR of PF0 and PF1. -/
  | conventionalReset
  /-- INVALIDATE_REQUEST (R551, 15_host.md): An Invalidate Request marks matching translations invalid. -/
  | invalidateRequest (fn : Func) (itag : Nat) (base size : Nat)
  /-- INVALIDATE_COMPLETION (R551, 15_host.md): After the requests using the entries complete the Invalidate Completion is sent. -/
  | invalidateCompletion (fn : Func)
  /-- TRANSLATION_COMPLETION (R549, 15_host.md): A Translation Completion is cached, rejected or leads to a page request. -/
  | translationCompletion (fn : Func) (tag : Nat) (c : TransCpl)
  /-- PRG_RESPONSE (R554, 15_host.md): A PRG Response retranslates or fails waiting requests. -/
  | prgResponse (fn : Func) (index : Nat) (r : PrgCode)
  /-- PAGE_REQUEST_TIMEOUT (R554, 15_host.md): A page request group with no response in 100 ms fails its waiters. -/
  | pageRequestTimeout (fn : Func) (index : Nat)
  /-- PAGE_REQUEST_INDEX_RELEASE (R554, 15_host.md): After 200 ms an unanswered group's index is freed. -/
  | pageRequestIndexRelease (fn : Func) (index : Nat)
  /-- JRN_AQ_POP (R566, 16_faults_journal.md): Pilot pops an alarm entry and turns it into a numbered journal record and routes it. -/
  | jrnAqPop
  /-- JOURNAL_RECORD_COMMIT (R571, 16_faults_journal.md): A record's program and read-back end and COMMIT is programmed, or the sector moves. -/
  | journalRecordCommit (programOk : FlashEnd)
  /-- RING (R578, 16_faults_journal.md): JRN_POST_CTL.RING sends JRN_POST as ALARM_NOTIFY. -/
  | ring
  /-- HOST (R578, 16_faults_journal.md): JRN_POST_CTL.HOST posts JRN_POST to the fault window. -/
  | hostPost
  /-- FLT_CONS (R568, 16_faults_journal.md): A write of FLT_CONS consumes fault records. -/
  | fltCons (value : Word)
  /-- POWER_ON_HOUR_TICK (R573, 16_faults_journal.md): Each hour of Pilot cycles advances power-on hours. -/
  | powerOnHourTick
  /-- COUNTERS_RECORD_TIMER (R574, 16_faults_journal.md): Within 10 s of a counter change a COUNTERS record is written and an anchor burn may follow. -/
  | countersRecordTimer
  /-- TIME_NONCE (R575, 16_faults_journal.md): PF0 TIME_NONCE returns a fresh nonce. -/
  | timeNonce (body : Bytes)
  /-- TIME_NONCE_EXPIRY (R575, 16_faults_journal.md): A time nonce expires after 10 s. -/
  | timeNonceExpiry
  /-- TIME_MARK (R576, 16_faults_journal.md): PF0 TIME_MARK verifies a signed timestamp and writes a TIME record. -/
  | timeMark (body : Bytes)
  /-- JOURNAL_READ (R577, 16_faults_journal.md): PF0 JOURNAL_READ returns committed records from an event number. -/
  | journalRead (body : Bytes)
  /-- COUNTERS (R577, 16_faults_journal.md): PF0 COUNTERS returns the life-long counters and anchors. -/
  | counters (body : Bytes)
  /-- READY (R586, 17_register_index.md): CRING_CTL.READY tells the agent Pilot runs verified firmware. -/
  | ready
  /-- FORWARD (R586, 17_register_index.md): CRING_CTL.FORWARD forwards the held token. -/
  | forward
  /-- CRING_SEND (R586, 17_register_index.md): CRING_TX_CTL.SEND sends the buffer as one MCTP message. -/
  | cringSend
  /-- CRING_RX_FREE (R587, 17_register_index.md): Writing CRING_RX_INFO.RX_READY frees the ring receive buffer. -/
  | cringRxFree
  /-- REGISTER_WRITE (R7, 00_scope.md): A write to a register field with no row of its own takes effect by its access code. -/
  | registerWrite (p : RegPort) (addr : Nat) (value : Word)
  /-- PACKAGE_POWER_FAIL (R44, 01_architecture.md): Package power fails and every domain, PD0, PD1 and PD19 included, loses power, tearing any fuse pulse or flash write in progress. -/
  | packagePowerFail (cutLevel : BitVec 3)
  /-- TRST_N_ASSERT (R88, 02_boundary.md): Assertion of the TRST_N pin resets MB3's IEEE 1149.1 TAP controller and instruction register. -/
  | trstNAssert
  /-- MSIX_MASK_CHANGE (R526, 15_host.md): The host unmasks an MSI-X vector or sets a function's MSI-X Enable, and a pending message is sent once all three conditions of R526 hold. -/
  | msixMaskChange (fn : Func) (vector : Nat) (masked enable : Bool)
  /-- PRI_ENABLE_CHANGE (R554, 15_host.md): Software clears and sets PRI Enable on a VF, which lifts the block on page requests left by a Response Failure. -/
  | priEnableChange (fn : Func) (enable : Bool)
  deriving DecidableEq, Repr

end Sys2Proof
end

