-- ==== Sys2Proof/Decode.lean ====
section
/-! DEFINITION. Decoding of table words: no row of the opcode table gives a command any bits, so no word spells one. -/

namespace Sys2Proof

/-- The command that a word of the opcode table's bits spells: none, since every row's field list is empty (log entry 1). -/
def decodeTableWord (_nbits _w : Nat) : Option Instr := none

end Sys2Proof
end

