-- ==== Sys2Proof/Machine/Bytes.lean ====
section
/-! DEFINITION. Sparse tables, byte memories in canonical form, and the byte orders of the formats: little-endian
integers (R101, R193, R261, R277, R570), big-endian ones (R145, R206, R218), and the word order of R590. -/

namespace Sys2Proof.Machine

/-- Entry `k` of a table, or the default. -/
def tget {α : Type} (d : α) : Tbl α → Nat → α
  | [], _ => d
  | (j, v) :: t, k => if j = k then v else tget d t k

/-- Entry `k`, if the table lists it. -/
def tfind {α : Type} : Tbl α → Nat → Option α
  | [], _ => none
  | (j, v) :: t, k => if j = k then some v else tfind t k

/-- The table with entry `k` set to `v`; numbers keep rising. -/
def tset {α : Type} : Tbl α → Nat → α → Tbl α
  | [], k, v => [(k, v)]
  | (j, w) :: t, k, v =>
    if k < j then (k, v) :: (j, w) :: t
    else if k = j then (k, v) :: t
    else (j, w) :: tset t k v

/-- The table without entry `k`. -/
def tdel {α : Type} : Tbl α → Nat → Tbl α
  | [], _ => []
  | (j, w) :: t, k => if j = k then t else (j, w) :: tdel t k

/-- Entry `k` changed by `f`, starting from the default where it is absent. -/
def tmod {α : Type} (d : α) (t : Tbl α) (k : Nat) (f : α → α) : Tbl α := tset t k (f (tget d t k))

/-- The table lists rising numbers. -/
def tsorted {α : Type} : Tbl α → Bool
  | [] => true
  | [_] => true
  | (j, _) :: (k, w) :: t => decide (j < k) && tsorted ((k, w) :: t)

/-- The byte at an address; `d` is what an unlisted address reads as. -/
def mget (d : Byte) : List Host.Cell → Nat → Byte
  | [], _ => d
  | (j, v) :: t, a => if j = a then v else mget d t a

/-- A memory with one byte written, in canonical form: rising addresses, no entry equal to `d`. -/
def mset (d : Byte) : List Host.Cell → Nat → Byte → List Host.Cell
  | [], a, v => if v = d then [] else [(a, v)]
  | (j, w) :: t, a, v =>
    if a < j then (if v = d then (j, w) :: t else (a, v) :: (j, w) :: t)
    else if a = j then (if v = d then t else (a, v) :: t)
    else (j, w) :: mset d t a v

/-- Bytes `a` to `a + n - 1`. -/
def mread (d : Byte) (m : List Host.Cell) (a n : Nat) : Bytes := (List.range n).map (fun i => mget d m (a + i))

/-- Bytes written from address `a` up. -/
def mwrite (d : Byte) : List Host.Cell → Nat → Bytes → List Host.Cell
  | m, _, [] => m
  | m, a, b :: bs => mwrite d (mset d m a b) (a + 1) bs

/-- Every byte from `lo` up to `hi` (exclusive) returned to the default. -/
def merase (m : List Host.Cell) (lo hi : Nat) : List Host.Cell := m.filter (fun c => decide (c.1 < lo) || decide (hi ≤ c.1))

/-- The canonical form of a memory: addresses strictly rising, none holding the default. -/
def Memory.wf (d : Byte) : List Host.Cell → Bool
  | [] => true
  | [(_, v)] => v != d
  | (j, v) :: (k, w) :: t => (v != d) && decide (j < k) && Memory.wf d ((k, w) :: t)

/-- `n` zero bytes. -/
def zeros (n : Nat) : Bytes := List.replicate n 0

/-- Bytes `off` to `off + n - 1` of a string (short if the string ends). -/
def slice (b : Bytes) (off n : Nat) : Bytes := (b.drop off).take n

/-- Byte `i` of a string, 0 past its end. -/
def byteAt (b : Bytes) (i : Nat) : Byte := b.getD i 0

/-- A string cut or padded with zero bytes to length `n`. -/
def padTo (n : Nat) (b : Bytes) : Bytes := (b ++ zeros n).take n

/-- A little-endian integer. -/
def leNat : Bytes → Nat
  | [] => 0
  | b :: bs => b.toNat + 256 * leNat bs

/-- `n` bytes of an integer, least significant first. -/
def toLe : Nat → Nat → Bytes
  | 0, _ => []
  | n + 1, v => BitVec.ofNat 8 v :: toLe n (v / 256)

/-- A big-endian integer. -/
def beNat (b : Bytes) : Nat := leNat b.reverse

/-- `n` bytes of an integer, most significant first. -/
def toBe (n v : Nat) : Bytes := (toLe n v).reverse

/-- Little-endian integer field at an offset. -/
def leAt (b : Bytes) (off n : Nat) : Nat := leNat (slice b off n)

/-- The 32-bit word at offset `a` of a buffer held in a register map (R590). -/
def mword (m : List Host.Cell) (a : Nat) : Word := BitVec.ofNat 32 (leNat (mread 0 m a 4))

/-- A 32-bit word written at offset `a` of a buffer (R590). -/
def mputWord (m : List Host.Cell) (a : Nat) (v : Word) : List Host.Cell := mwrite 0 m a (toLe 4 v.toNat)

/-- A buffer holding exactly this string from offset 0. -/
def mOf (b : Bytes) : List Host.Cell := mwrite 0 [] 0 b

/-- Every byte of a string is zero. -/
def allZero (b : Bytes) : Bool := b.all (· == 0)

/-- Bitwise exclusive or of two strings, as long as the shorter. -/
def xorBytes (a b : Bytes) : Bytes := List.zipWith (· ^^^ ·) a b

/-- The characters of an ASCII string as bytes. -/
def ascii (s : String) : Bytes := s.toList.map (fun c => BitVec.ofNat 8 c.toNat)

/-- Bit `i` of a number. -/
def nbit (v i : Nat) : Bool := (v / 2 ^ i) % 2 = 1

/-- A flag as a number. -/
def b2n (b : Bool) : Nat := if b then 1 else 0

/-- Ceiling of a quotient. -/
def ceilDiv (a b : Nat) : Nat := (a + b - 1) / b

/-- The parts of a string, `n` bytes each, the last perhaps shorter; `fuel` bounds their number. -/
def chunks (n : Nat) : Nat → Bytes → List Bytes
  | 0, _ => []
  | _ + 1, [] => []
  | fuel + 1, b :: bs => (b :: bs).take n :: chunks n fuel ((b :: bs).drop n)

/-- A string in parts of `n` bytes. -/
def inChunks (n : Nat) (b : Bytes) : List Bytes := chunks n (b.length + 1) b

end Sys2Proof.Machine
end

