-- ==== Sys2Proof/Machine/Rs.lean ====
section
/-! DEFINITION. The RS(70,64) code of a Tier-1 channel (10, R349): encoding, and decoding of up to three symbols. -/

namespace Sys2Proof.Machine

/-- Multiplication by x in GF(2^8) with x^8 + x^4 + x^3 + x^2 + 1. -/
def gfX (a : Byte) : Byte := (a <<< 1) ^^^ (if a.getLsbD 7 then 0x1D else 0)

/-- Product in GF(2^8): the sum of a x^i over the bits i of b. -/
def gfMul (a b : Byte) : Byte :=
  ((List.range 8).foldl (fun (r : Byte × Byte) i => (if b.getLsbD i then r.1 ^^^ r.2 else r.1, gfX r.2)) (0, a)).1

/-- Power in GF(2^8). -/
def gfPow (a : Byte) : Nat → Byte
  | 0 => 1
  | n + 1 => gfMul a (gfPow a n)

/-- Inverse: a^254. -/
def gfInv (a : Byte) : Byte := gfPow a 254

/-- The root α of the primitive polynomial. -/
def gfAlpha : Byte := 2

/-- g(x) = (x + 1)(x + α) ... (x + α^5) without its leading term, highest power first. -/
def rsGenerator : Bytes :=
  ((List.range 6).foldl (fun (p : Bytes) i =>
    List.zipWith (· ^^^ ·) (p ++ [0]) (0 :: p.map (gfMul (gfPow gfAlpha i)))) [1]).drop 1

/-- One symbol shifted into the remainder register. -/
def rsStep (rem : Bytes) (b : Byte) : Bytes :=
  let f := b ^^^ byteAt rem 0
  List.zipWith (· ^^^ ·) (rem.drop 1 ++ [0]) (rsGenerator.map (gfMul f))

/-- The six check symbols of a line, coefficients of x^5 down to x^0. -/
def rsCheck (line : Bytes) : Bytes := line.foldl rsStep (zeros 6)

/-- The eight sideband bytes the Pier writes with a line. -/
def rsSide (line : Bytes) : Bytes := rsCheck line ++ [0, 0]

/-- Value of a polynomial, highest power first. -/
def gfEval (p : Bytes) (x : Byte) : Byte := p.foldl (fun a c => gfMul a x ^^^ c) 0

/-- The six syndromes of 70 received symbols. -/
def rsSyndromes (r : Bytes) : Bytes := (List.range 6).map (fun j => gfEval r (gfPow gfAlpha j))

/-- A determinant over GF(2^8), rows as lists; in characteristic 2 no term changes sign. -/
def gfDet : Nat → List Bytes → Byte
  | 0, _ => 1
  | n + 1, m =>
    (List.range (n + 1)).foldl (fun a j =>
      a ^^^ gfMul (byteAt (m.getD 0 []) j) (gfDet n ((m.drop 1).map (fun r => r.take j ++ r.drop (j + 1))))) 0

/-- The solution of an n by n system by Cramer's rule, if its determinant is not 0. -/
def gfSolve (n : Nat) (m : List Bytes) (rhs : Bytes) : Option Bytes :=
  let d := gfDet n m
  if d = 0 then none
  else some ((List.range n).map (fun j =>
    gfMul (gfInv d) (gfDet n ((m.zip rhs).map (fun x => x.1.set j x.2)))))

/-- The received word with the errors of v located symbols corrected, if v errors explain it. -/
def rsTry (r s : Bytes) (v : Nat) : Option Bytes :=
  match gfSolve v ((List.range v).map (fun i => slice s i v)) (slice s v v) with
  | none => none
  | some lam =>
    let loc (p : Nat) : Byte := gfEval (lam ++ [1]) (gfInv (gfPow gfAlpha p))
    let ps := (List.range 70).filter (fun p => loc p == 0)
    if ps.length ≠ v then none
    else
      match gfSolve v ((List.range v).map (fun j => ps.map (fun p => gfPow (gfPow gfAlpha p) j))) (s.take v) with
      | none => none
      | some es =>
        let c := (ps.zip es).foldl (fun (c : Bytes) x => c.set (69 - x.1) (byteAt c (69 - x.1) ^^^ x.2)) r
        if allZero (rsSyndromes c) then some c else none

/-- What decoding a line gives (R350). -/
inductive RsResult where
  | clean (line : Bytes)
  | corrected (line : Bytes)
  | uncorrectable
  deriving DecidableEq, Repr

/-- Decoding of a 64-byte line with its sideband bytes. -/
def rsDecode (line side : Bytes) : RsResult :=
  let r := padTo 64 line ++ padTo 6 side
  let s := rsSyndromes r
  if allZero s then .clean (r.take 64)
  else
    match rsTry r s 3, rsTry r s 2, rsTry r s 1 with
    | some c, _, _ => .corrected (c.take 64)
    | none, some c, _ => .corrected (c.take 64)
    | none, none, some c => .corrected (c.take 64)
    | none, none, none => .uncorrectable

end Sys2Proof.Machine
end

