-- ==== Sys2Proof/Config.lean ====
section
/-! DEFINITION. What an implementation fixes and the spec leaves open, as constants with no body: nothing in Lean can
say what they are, so a statement that speaks of one holds whatever it is. -/

namespace Sys2Proof.Config

/-- The n-th byte drawn from the CTR_DRBG since the model's counter was 0 (R223). Free value: log entry 3. -/
opaque drbgByte : Nat → Byte

/-- The fresh randomness of hybrid signature number n, 88 bytes: 56 for the ECDSA nonce and 32 for ML-DSA-87 (R222, R223). Free
value: log entry 3. -/
opaque signRandom : Nat → Bytes

/-- Tvedgetex's IANA enterprise number P (R82, R240, R257), which another manual gives. -/
opaque enterprise : Nat
/-- The model and type fields of a DICE entry, by its index (R249 names them and gives no text). Free values: log entry 152. -/
opaque tcbModel : Nat → Bytes
opaque tcbType : Nat → Bytes
/-- The version and the svn of a DICE entry that no part of the Manifest stands for (R249 gives none). Free values: log entry 152. -/
opaque tcbVersion : Nat → Bytes
opaque tcbSvn : Nat → Nat
/-- The SPDM transcript digest a signed response covers: request and response fields (SPDM 1.2, 1.3; R257). -/
opaque spdmTranscript : List Bytes → Bytes
/-- The bytes of an SPDM response with this code and these fields (SPDM 1.2, 1.3; R256, log entry 35). -/
opaque spdmResponse : List Bytes → Bytes

/-- A byte of the boot ROM, whose content the spec does not give (log entry 57). -/
opaque romByte : Nat → Byte
/-- KIND, ARG0 and ARG1 of the record of a "not run" report, for which R566 has no row (R486). Free values: log entry 182. -/
opaque notRunRecord : Nat → BitVec 16 × Word × Word
/-- Z where the peer's ECDH key is no point of the curve: the spec gives none (log entry 175). -/
opaque offCurveZ : Bytes → Bytes → Bytes
/-- A settings section converted from one format to a later one (R304): old format, new format, bytes. -/
opaque settingsConvert : Nat → Nat → Bytes → Bytes

/-- The ring position of an endpoint that has sent MB3 nothing (R82; the ring carries no such map: log entry 33). -/
opaque ringPosition : Byte → Byte
/-- What a vendor-defined ring message asks (R82, R84): 0 GET_UNIT_STATUS, 1 GET_BERTH_STATE, anything else neither. Its
words and Tvedgetex's enterprise number are in another manual. -/
opaque vendorRequest : Bytes → Nat
/-- The bytes, after the message type, of a vendor-defined ring message with these fields: the same manual's. -/
opaque vendorMessage : List Bytes → Bytes
/-- The bytes, after the message type, of a ring request with this code and these fields: SPDM's, or the other manual's (log entry 33). -/
opaque requestBytes : List Bytes → Bytes
/-- Tvedgetex's identifier in a vendor-defined sideband message (R91): UCIe 1.1's and another manual's. -/
opaque sidebandId : Bytes
/-- The bytes of a Boarding message with this code and these fields (R91, R120). The spec gives no layout. -/
opaque siteMessage : List Bytes → Bytes

/-- The digest of the boot ROM, fixed for each die revision (R254 index 1). -/
opaque romDigest : Nat → Bytes
/-- Tvedgetex's 11-bit JEDEC manufacturer identity (R88 leaves it to another manual). -/
opaque jedecId : BitVec 11

/-- The first two of the three BF16 parts a Press array splits an FP32 operand into (R435), from its sign and magnitude,
in units of 2^-160; the third is the exact rest. The spec gives the number of parts and not the split: log entry 43. -/
opaque fp32Parts : Bool → Nat → Int × Int

/-- Clocks for which an array was busy with a tile that did not complete there (PRESS_CNT_1, R454), from its number and its busy
clocks so far, cut to TILE_CLOCKS: the time that passes is no rule's (free, log entry 186). -/
opaque cutClocks : Nat → Nat → Nat

/-- Whether the segment with this closing number settles more than its DEADLINE_US after its close: the time that passes is
no rule's (R470; free, log entry 126). -/
opaque settledLate : Nat → Nat → Bool
/-- Whether a mailbox's fragment has been taken by look number n at TX_BUSY: the time that passes is no rule's (R531; free,
log entry 187). -/
opaque fragmentTaken : Nat → Bool
/-- Clocks of 1.3 GHz that pass before look number n at a channel's credit: the time that passes is no rule's (R501; free,
log entry 136). -/
opaque creditClocks : Nat → Nat
/-- The channel 0-15 of a stack that holds a line of its range: the interleave is the hub's (R310, R340). -/
opaque lineChannel : Nat → Nat
/-- The i-th line, in ascending order, that a channel of a stack holds: the same interleave. -/
opaque channelLine : Nat → Nat → Nat
/-- Where the hub's address map places a line of the fabric address space (R310): the lane, 17 s + c for a channel of a
stack or 136 + p for a port, and the line number within its stack or port. -/
opaque fabricLine : Nat → Nat × Nat

end Sys2Proof.Config
end

