-- ==== Sys2Proof/Machine/Crypto.lean ====
section
/-! DEFINITION. The symmetric algorithms the spec names, written out from their standards: SHA-384 (FIPS 180-4),
SHA3-384 (FIPS 202), HMAC, the SP 800-108 counter-mode KDF of R218, AES-256 (FIPS 197) with CMAC, CTR, GCM and
XTS, and CRC-32C. Their inner steps are PRESUMED from the named standards (log entry 2); the public-key
algorithms stand in P384, MlKem and MlDsa, and the DRBG is a free function of Config. -/

namespace Sys2Proof.Machine

/-- The 80 round constants of SHA-384 (FIPS 180-4). -/
def shaK : List (BitVec 64) :=
  [0x428a2f98d728ae22, 0x7137449123ef65cd, 0xb5c0fbcfec4d3b2f, 0xe9b5dba58189dbbc, 0x3956c25bf348b538] ++
  [0x59f111f1b605d019, 0x923f82a4af194f9b, 0xab1c5ed5da6d8118, 0xd807aa98a3030242, 0x12835b0145706fbe] ++
  [0x243185be4ee4b28c, 0x550c7dc3d5ffb4e2, 0x72be5d74f27b896f, 0x80deb1fe3b1696b1, 0x9bdc06a725c71235] ++
  [0xc19bf174cf692694, 0xe49b69c19ef14ad2, 0xefbe4786384f25e3, 0x0fc19dc68b8cd5b5, 0x240ca1cc77ac9c65] ++
  [0x2de92c6f592b0275, 0x4a7484aa6ea6e483, 0x5cb0a9dcbd41fbd4, 0x76f988da831153b5, 0x983e5152ee66dfab] ++
  [0xa831c66d2db43210, 0xb00327c898fb213f, 0xbf597fc7beef0ee4, 0xc6e00bf33da88fc2, 0xd5a79147930aa725] ++
  [0x06ca6351e003826f, 0x142929670a0e6e70, 0x27b70a8546d22ffc, 0x2e1b21385c26c926, 0x4d2c6dfc5ac42aed] ++
  [0x53380d139d95b3df, 0x650a73548baf63de, 0x766a0abb3c77b2a8, 0x81c2c92e47edaee6, 0x92722c851482353b] ++
  [0xa2bfe8a14cf10364, 0xa81a664bbc423001, 0xc24b8b70d0f89791, 0xc76c51a30654be30, 0xd192e819d6ef5218] ++
  [0xd69906245565a910, 0xf40e35855771202a, 0x106aa07032bbd1b8, 0x19a4c116b8d2d0c8, 0x1e376c085141ab53] ++
  [0x2748774cdf8eeb99, 0x34b0bcb5e19b48a8, 0x391c0cb3c5c95a63, 0x4ed8aa4ae3418acb, 0x5b9cca4f7763e373] ++
  [0x682e6ff3d6b2b8a3, 0x748f82ee5defb2fc, 0x78a5636f43172f60, 0x84c87814a1f0ab72, 0x8cc702081a6439ec] ++
  [0x90befffa23631e28, 0xa4506cebde82bde9, 0xbef9a3f7b2c67915, 0xc67178f2e372532b, 0xca273eceea26619c] ++
  [0xd186b8c721c0c207, 0xeada7dd6cde0eb1e, 0xf57d4f7fee6ed178, 0x06f067aa72176fba, 0x0a637dc5a2c898a6] ++
  [0x113f9804bef90dae, 0x1b710b35131c471b, 0x28db77f523047d84, 0x32caab7b40c72493, 0x3c9ebe0a15c9bebc] ++
  [0x431d67c49c100d4c, 0x4cc5d4becb3e42b6, 0x597f299cfc657e2a, 0x5fcb6fab3ad6faec, 0x6c44198c4a475817]

/-- The initial hash value of SHA-384 (FIPS 180-4). -/
def shaH0 : List (BitVec 64) :=
  [0xcbbb9d5dc1059ed8, 0x629a292a367cd507, 0x9159015a3070dd17, 0x152fecd8f70e5939] ++
  [0x67332667ffc00b31, 0x8eb44a8768581511, 0xdb0c2e0d64f98fa7, 0x47b5481dbefa4fa4]

/-- The S-box of AES (FIPS 197). -/
def aesS : List (BitVec 8) :=
  [0x63, 0x7c, 0x77, 0x7b, 0xf2, 0x6b, 0x6f, 0xc5, 0x30, 0x01, 0x67, 0x2b, 0xfe, 0xd7, 0xab, 0x76] ++
  [0xca, 0x82, 0xc9, 0x7d, 0xfa, 0x59, 0x47, 0xf0, 0xad, 0xd4, 0xa2, 0xaf, 0x9c, 0xa4, 0x72, 0xc0] ++
  [0xb7, 0xfd, 0x93, 0x26, 0x36, 0x3f, 0xf7, 0xcc, 0x34, 0xa5, 0xe5, 0xf1, 0x71, 0xd8, 0x31, 0x15] ++
  [0x04, 0xc7, 0x23, 0xc3, 0x18, 0x96, 0x05, 0x9a, 0x07, 0x12, 0x80, 0xe2, 0xeb, 0x27, 0xb2, 0x75] ++
  [0x09, 0x83, 0x2c, 0x1a, 0x1b, 0x6e, 0x5a, 0xa0, 0x52, 0x3b, 0xd6, 0xb3, 0x29, 0xe3, 0x2f, 0x84] ++
  [0x53, 0xd1, 0x00, 0xed, 0x20, 0xfc, 0xb1, 0x5b, 0x6a, 0xcb, 0xbe, 0x39, 0x4a, 0x4c, 0x58, 0xcf] ++
  [0xd0, 0xef, 0xaa, 0xfb, 0x43, 0x4d, 0x33, 0x85, 0x45, 0xf9, 0x02, 0x7f, 0x50, 0x3c, 0x9f, 0xa8] ++
  [0x51, 0xa3, 0x40, 0x8f, 0x92, 0x9d, 0x38, 0xf5, 0xbc, 0xb6, 0xda, 0x21, 0x10, 0xff, 0xf3, 0xd2] ++
  [0xcd, 0x0c, 0x13, 0xec, 0x5f, 0x97, 0x44, 0x17, 0xc4, 0xa7, 0x7e, 0x3d, 0x64, 0x5d, 0x19, 0x73] ++
  [0x60, 0x81, 0x4f, 0xdc, 0x22, 0x2a, 0x90, 0x88, 0x46, 0xee, 0xb8, 0x14, 0xde, 0x5e, 0x0b, 0xdb] ++
  [0xe0, 0x32, 0x3a, 0x0a, 0x49, 0x06, 0x24, 0x5c, 0xc2, 0xd3, 0xac, 0x62, 0x91, 0x95, 0xe4, 0x79] ++
  [0xe7, 0xc8, 0x37, 0x6d, 0x8d, 0xd5, 0x4e, 0xa9, 0x6c, 0x56, 0xf4, 0xea, 0x65, 0x7a, 0xae, 0x08] ++
  [0xba, 0x78, 0x25, 0x2e, 0x1c, 0xa6, 0xb4, 0xc6, 0xe8, 0xdd, 0x74, 0x1f, 0x4b, 0xbd, 0x8b, 0x8a] ++
  [0x70, 0x3e, 0xb5, 0x66, 0x48, 0x03, 0xf6, 0x0e, 0x61, 0x35, 0x57, 0xb9, 0x86, 0xc1, 0x1d, 0x9e] ++
  [0xe1, 0xf8, 0x98, 0x11, 0x69, 0xd9, 0x8e, 0x94, 0x9b, 0x1e, 0x87, 0xe9, 0xce, 0x55, 0x28, 0xdf] ++
  [0x8c, 0xa1, 0x89, 0x0d, 0xbf, 0xe6, 0x42, 0x68, 0x41, 0x99, 0x2d, 0x0f, 0xb0, 0x54, 0xbb, 0x16]

/-- The inverse S-box of AES (FIPS 197). -/
def aesInvS : List (BitVec 8) :=
  [0x52, 0x09, 0x6a, 0xd5, 0x30, 0x36, 0xa5, 0x38, 0xbf, 0x40, 0xa3, 0x9e, 0x81, 0xf3, 0xd7, 0xfb] ++
  [0x7c, 0xe3, 0x39, 0x82, 0x9b, 0x2f, 0xff, 0x87, 0x34, 0x8e, 0x43, 0x44, 0xc4, 0xde, 0xe9, 0xcb] ++
  [0x54, 0x7b, 0x94, 0x32, 0xa6, 0xc2, 0x23, 0x3d, 0xee, 0x4c, 0x95, 0x0b, 0x42, 0xfa, 0xc3, 0x4e] ++
  [0x08, 0x2e, 0xa1, 0x66, 0x28, 0xd9, 0x24, 0xb2, 0x76, 0x5b, 0xa2, 0x49, 0x6d, 0x8b, 0xd1, 0x25] ++
  [0x72, 0xf8, 0xf6, 0x64, 0x86, 0x68, 0x98, 0x16, 0xd4, 0xa4, 0x5c, 0xcc, 0x5d, 0x65, 0xb6, 0x92] ++
  [0x6c, 0x70, 0x48, 0x50, 0xfd, 0xed, 0xb9, 0xda, 0x5e, 0x15, 0x46, 0x57, 0xa7, 0x8d, 0x9d, 0x84] ++
  [0x90, 0xd8, 0xab, 0x00, 0x8c, 0xbc, 0xd3, 0x0a, 0xf7, 0xe4, 0x58, 0x05, 0xb8, 0xb3, 0x45, 0x06] ++
  [0xd0, 0x2c, 0x1e, 0x8f, 0xca, 0x3f, 0x0f, 0x02, 0xc1, 0xaf, 0xbd, 0x03, 0x01, 0x13, 0x8a, 0x6b] ++
  [0x3a, 0x91, 0x11, 0x41, 0x4f, 0x67, 0xdc, 0xea, 0x97, 0xf2, 0xcf, 0xce, 0xf0, 0xb4, 0xe6, 0x73] ++
  [0x96, 0xac, 0x74, 0x22, 0xe7, 0xad, 0x35, 0x85, 0xe2, 0xf9, 0x37, 0xe8, 0x1c, 0x75, 0xdf, 0x6e] ++
  [0x47, 0xf1, 0x1a, 0x71, 0x1d, 0x29, 0xc5, 0x89, 0x6f, 0xb7, 0x62, 0x0e, 0xaa, 0x18, 0xbe, 0x1b] ++
  [0xfc, 0x56, 0x3e, 0x4b, 0xc6, 0xd2, 0x79, 0x20, 0x9a, 0xdb, 0xc0, 0xfe, 0x78, 0xcd, 0x5a, 0xf4] ++
  [0x1f, 0xdd, 0xa8, 0x33, 0x88, 0x07, 0xc7, 0x31, 0xb1, 0x12, 0x10, 0x59, 0x27, 0x80, 0xec, 0x5f] ++
  [0x60, 0x51, 0x7f, 0xa9, 0x19, 0xb5, 0x4a, 0x0d, 0x2d, 0xe5, 0x7a, 0x9f, 0x93, 0xc9, 0x9c, 0xef] ++
  [0xa0, 0xe0, 0x3b, 0x4d, 0xae, 0x2a, 0xf5, 0xb0, 0xc8, 0xeb, 0xbb, 0x3c, 0x83, 0x53, 0x99, 0x61] ++
  [0x17, 0x2b, 0x04, 0x7e, 0xba, 0x77, 0xd6, 0x26, 0xe1, 0x69, 0x14, 0x63, 0x55, 0x21, 0x0c, 0x7d]

/-- The round constants of Keccak-f[1600] (FIPS 202). -/
def keccakRC : List (BitVec 64) :=
  [0x0000000000000001, 0x0000000000008082, 0x800000000000808a, 0x8000000080008000] ++
  [0x000000000000808b, 0x0000000080000001, 0x8000000080008081, 0x8000000000008009] ++
  [0x000000000000008a, 0x0000000000000088, 0x0000000080008009, 0x000000008000000a] ++
  [0x000000008000808b, 0x800000000000008b, 0x8000000000008089, 0x8000000000008003] ++
  [0x8000000000008002, 0x8000000000000080, 0x000000000000800a, 0x800000008000000a] ++
  [0x8000000080008081, 0x8000000000008080, 0x0000000080000001, 0x8000000080008008]

/-- The rotation of lane x + 5y in Keccak-f[1600] (FIPS 202). -/
def keccakRot : List (Nat) :=
  [0, 1, 62, 28, 27] ++
  [36, 44, 6, 55, 20] ++
  [3, 10, 43, 25, 39] ++
  [41, 45, 15, 21, 8] ++
  [18, 2, 61, 56, 14]

/-! ### SHA-384 -/

/-- One word of the SHA-512 message schedule from the 16 words before it, newest first. -/
def shaNext (w : List (BitVec 64)) : BitVec 64 :=
  let w15 := w.getD 14 0
  let w2 := w.getD 1 0
  let s0 := w15.rotateRight 1 ^^^ w15.rotateRight 8 ^^^ (w15 >>> 7)
  let s1 := w2.rotateRight 19 ^^^ w2.rotateRight 61 ^^^ (w2 >>> 6)
  w.getD 15 0 + s0 + w.getD 6 0 + s1

/-- The schedule extended by `n` words, newest first. -/
def shaSchedule : Nat → List (BitVec 64) → List (BitVec 64)
  | 0, w => w
  | n + 1, w => shaSchedule n (shaNext w :: w)

/-- One round of SHA-512 on the working variables a to h. -/
def shaRound (v : List (BitVec 64)) (kw : BitVec 64 × BitVec 64) : List (BitVec 64) :=
  match v with
  | [a, b, c, d, e, f, g, h] =>
    let s1 := e.rotateRight 14 ^^^ e.rotateRight 18 ^^^ e.rotateRight 41
    let ch := (e &&& f) ^^^ (~~~e &&& g)
    let t1 := h + s1 + ch + kw.1 + kw.2
    let s0 := a.rotateRight 28 ^^^ a.rotateRight 34 ^^^ a.rotateRight 39
    let mj := (a &&& b) ^^^ (a &&& c) ^^^ (b &&& c)
    [t1 + (s0 + mj), a, b, c, d + t1, e, f, g]
  | v => v

/-- One 128-byte block of SHA-512 folded into the hash value. -/
def shaBlock (h : List (BitVec 64)) (blk : Bytes) : List (BitVec 64) :=
  let w0 := (inChunks 8 blk).map (fun c => BitVec.ofNat 64 (beNat c))
  let w := (shaSchedule 64 w0.reverse).reverse
  List.zipWith (· + ·) h ((List.zip shaK w).foldl shaRound h)

/-- The padding of FIPS 180-4 for SHA-384. -/
def shaPad (m : Bytes) : Bytes :=
  m ++ [0x80] ++ zeros ((239 - m.length % 128) % 128) ++ toBe 16 (8 * m.length)

/-- SHA-384. -/
def sha384 (m : Bytes) : Bytes :=
  ((((inChunks 128 (shaPad m)).foldl shaBlock shaH0).take 6).map (fun x => toBe 8 x.toNat)).flatten

/-- HMAC-SHA-384. -/
def hmac384 (k m : Bytes) : Bytes :=
  let k0 := padTo 128 (if k.length > 128 then sha384 k else k)
  sha384 (k0.map (· ^^^ 0x5c) ++ sha384 (k0.map (· ^^^ 0x36) ++ m))

/-- R218: the SP 800-108 counter-mode KDF with HMAC-SHA-384, `len` bytes. -/
def kdf (ki label context : Bytes) (len : Nat) : Bytes :=
  (((List.range (ceilDiv len 48)).map (fun i =>
    hmac384 ki (toBe 4 (i + 1) ++ label ++ [0] ++ context ++ toBe 4 (8 * len)))).flatten).take len

/-! ### SHA3-384 -/

/-- One round of Keccak-f[1600] on the 25 lanes, lane x + 5y. -/
def keccakRound (a : List (BitVec 64)) (rc : BitVec 64) : List (BitVec 64) :=
  let c := (List.range 5).map (fun x => (List.range 5).foldl (fun s y => s ^^^ a.getD (x + 5 * y) 0) 0)
  let a1 := (List.range 25).map (fun i =>
    a.getD i 0 ^^^ c.getD ((i + 4) % 5) 0 ^^^ (c.getD ((i + 1) % 5) 0).rotateLeft 1)
  -- rho and pi: lane (x, y) moves to (y, 2x + 3y)
  let b := (List.range 25).map (fun j =>
    let x' := j % 5
    let y' := j / 5
    let x := (x' + 3 * y') % 5
    let i := x + 5 * x'
    (a1.getD i 0).rotateLeft (keccakRot.getD i 0))
  let d := (List.range 25).map (fun i =>
    let y := 5 * (i / 5)
    b.getD i 0 ^^^ (~~~(b.getD (y + (i + 1) % 5) 0) &&& b.getD (y + (i + 2) % 5) 0))
  match d with
  | x :: xs => (x ^^^ rc) :: xs
  | [] => []

/-- Absorbs one block of 104 bytes (the rate of SHA3-384). -/
def keccakAbsorb (a : List (BitVec 64)) (blk : Bytes) : List (BitVec 64) :=
  let w := (inChunks 8 blk).map (fun c => BitVec.ofNat 64 (leNat c))
  keccakRC.foldl keccakRound ((List.range 25).map (fun i => a.getD i 0 ^^^ w.getD i 0))

/-- SHA3-384. -/
def sha3384 (m : Bytes) : Bytes :=
  let q := 104 - m.length % 104
  let pad : Bytes := if q = 1 then [0x86] else [0x06] ++ zeros (q - 2) ++ [0x80]
  let a := (inChunks 104 (m ++ pad)).foldl keccakAbsorb (List.replicate 25 0)
  ((a.take 6).map (fun x => toLe 8 x.toNat)).flatten

/-! ### AES-256 -/

/-- Multiplication by x in GF(2^8) modulo x^8 + x^4 + x^3 + x + 1. -/
def aesXtime (b : Byte) : Byte := (b <<< 1) ^^^ (if b.getLsbD 7 then 0x1b else 0)

/-- S-box lookup. -/
def aesSub (b : Byte) : Byte := aesS.getD b.toNat 0

/-- One 4-byte word of the AES-256 key schedule from the 8 words before it, newest first; `i` is its index. -/
def aesNextWord (i : Nat) (w : List Bytes) : Bytes :=
  let t := w.getD 0 []
  let t' :=
    if i % 8 = 0 then
      match t with
      | [a, b, c, d] => [aesSub b ^^^ (Nat.repeat aesXtime (i / 8 - 1) 1), aesSub c, aesSub d, aesSub a]
      | t => t
    else if i % 8 = 4 then t.map aesSub
    else t
  xorBytes (w.getD 7 []) t'

/-- The schedule extended by `n` words from index `i`, newest first. -/
def aesExpand : Nat → Nat → List Bytes → List Bytes
  | 0, _, w => w
  | n + 1, i, w => aesExpand n (i + 1) (aesNextWord i w :: w)

/-- The 15 round keys of AES-256. -/
def aesKeys (k : Bytes) : List Bytes :=
  inChunks 16 ((aesExpand 52 8 (inChunks 4 (padTo 32 k)).reverse).reverse.flatten)

/-- ShiftRows on the 16 bytes of a state, column by column. -/
def aesShift (s : Bytes) : Bytes := (List.range 16).map (fun i => s.getD ((i + 4 * (i % 4)) % 16) 0)

/-- Inverse ShiftRows. -/
def aesUnshift (s : Bytes) : Bytes := (List.range 16).map (fun i => s.getD ((i + 12 * (i % 4)) % 16) 0)

/-- MixColumns of one column. -/
def aesMixCol : Bytes → Bytes
  | [a, b, c, d] =>
    let t := a ^^^ b ^^^ c ^^^ d
    [a ^^^ t ^^^ aesXtime (a ^^^ b), b ^^^ t ^^^ aesXtime (b ^^^ c),
     c ^^^ t ^^^ aesXtime (c ^^^ d), d ^^^ t ^^^ aesXtime (d ^^^ a)]
  | c => c

/-- Inverse MixColumns of one column. -/
def aesUnmixCol : Bytes → Bytes
  | [a, b, c, d] =>
    let u := aesXtime (aesXtime (a ^^^ c))
    let v := aesXtime (aesXtime (b ^^^ d))
    aesMixCol [a ^^^ u, b ^^^ v, c ^^^ u, d ^^^ v]
  | c => c

/-- AES-256 encryption of one block under expanded keys. -/
def aesEncKeys (ks : List Bytes) (b : Bytes) : Bytes :=
  match ks with
  | [] => b
  | k0 :: rest =>
    let mid := rest.dropLast
    let s := mid.foldl (fun s k => xorBytes ((inChunks 4 (aesShift (s.map aesSub))).flatMap aesMixCol) k) (xorBytes b k0)
    xorBytes (aesShift (s.map aesSub)) (rest.getLastD [])

/-- AES-256 decryption of one block under expanded keys. -/
def aesDecKeys (ks : List Bytes) (b : Bytes) : Bytes :=
  match ks.reverse with
  | [] => b
  | k0 :: rest =>
    let inv (s : Bytes) : Bytes := (aesUnshift s).map (fun x => aesInvS.getD x.toNat 0)
    let mid := rest.dropLast
    let s := mid.foldl (fun s k => (inChunks 4 (xorBytes (inv s) k)).flatMap aesUnmixCol) (xorBytes b k0)
    xorBytes (inv s) (rest.getLastD [])

/-- AES-256 of one block. -/
def aesEnc (k b : Bytes) : Bytes := aesEncKeys (aesKeys k) (padTo 16 b)

/-- Doubling in GF(2^128) for CMAC, big-endian. -/
def cmacDouble (b : Bytes) : Bytes :=
  let v := BitVec.ofNat 128 (beNat b)
  toBe 16 ((v <<< 1) ^^^ (if v.getLsbD 127 then 0x87 else 0)).toNat

/-- AES-256-CMAC (SP 800-38B). -/
def cmac (k m : Bytes) : Bytes :=
  let ks := aesKeys k
  let k1 := cmacDouble (aesEncKeys ks (zeros 16))
  let k2 := cmacDouble k1
  let blocks := inChunks 16 m
  let last := blocks.getLastD []
  let lastBlock :=
    if last.length = 16 then xorBytes last k1 else xorBytes (padTo 16 (last ++ [0x80])) k2
  let c := blocks.dropLast.foldl (fun c b => aesEncKeys ks (xorBytes c b)) (zeros 16)
  aesEncKeys ks (xorBytes c lastBlock)

/-- One step of the GHASH product: bit `i` of `x` from the left. -/
def ghashStep (x : BitVec 128) (zv : BitVec 128 × BitVec 128) (i : Nat) : BitVec 128 × BitVec 128 :=
  let z := if x.getMsbD i then zv.1 ^^^ zv.2 else zv.1
  let v := (zv.2 >>> 1) ^^^ (if zv.2.getLsbD 0 then (0xe1 : BitVec 128) <<< 120 else 0)
  (z, v)

/-- The product of GHASH (SP 800-38D). -/
def ghashMul (x y : BitVec 128) : BitVec 128 := ((List.range 128).foldl (ghashStep x) (0, y)).1

/-- GHASH of a string whose length is a multiple of 16. -/
def ghash (h : BitVec 128) (m : Bytes) : BitVec 128 :=
  (inChunks 16 m).foldl (fun y b => ghashMul (y ^^^ BitVec.ofNat 128 (beNat b)) h) 0

/-- Padding to a multiple of 16 with zero bytes. -/
def pad16 (m : Bytes) : Bytes := m ++ zeros ((16 - m.length % 16) % 16)

/-- CTR keystream over a string from a 12-byte IV and a first counter. -/
def aesCtr (k iv : Bytes) (first : Nat) (m : Bytes) : Bytes :=
  let ks := aesKeys k
  let bl := inChunks 16 m
  (List.zipWith (fun i b => xorBytes b (aesEncKeys ks (iv ++ toBe 4 (first + i)))) (List.range bl.length) bl).flatten

/-- The GCM tag of ciphertext `c` with associated data `a` and a 12-byte IV. -/
def gcmTag (k iv a c : Bytes) : Bytes :=
  let ks := aesKeys k
  let h := BitVec.ofNat 128 (beNat (aesEncKeys ks (zeros 16)))
  let s := ghash h (pad16 a ++ pad16 c ++ toBe 8 (8 * a.length) ++ toBe 8 (8 * c.length))
  xorBytes (toBe 16 s.toNat) (aesEncKeys ks (iv ++ [0, 0, 0, 1]))

/-- AES-256-GCM encryption: ciphertext and tag. -/
def gcmEnc (k iv a p : Bytes) : Bytes × Bytes :=
  let c := aesCtr k iv 2 p
  (c, gcmTag k iv a c)

/-- AES-256-GCM decryption: the plaintext if the tag verifies. -/
def gcmDec (k iv a c t : Bytes) : Option Bytes :=
  if gcmTag k iv a c = t then some (aesCtr k iv 2 c) else none

/-- The tweak of each XTS block: multiplication by x, little-endian (IEEE 1619). -/
def xtsDouble (b : Bytes) : Bytes :=
  let v := BitVec.ofNat 128 (leNat b)
  toLe 16 ((v <<< 1) ^^^ (if v.getLsbD 127 then 0x87 else 0)).toNat

/-- The first `n` XTS tweaks from the encrypted data-unit number. -/
def xtsTweaks : Nat → Bytes → List Bytes
  | 0, _ => []
  | n + 1, t => t :: xtsTweaks n (xtsDouble t)

/-- AES-256-XTS of whole 16-byte blocks: data key, tweak key, 16-byte data-unit number. -/
def xtsEnc (kd kt unit p : Bytes) : Bytes :=
  let ks := aesKeys kd
  let bl := inChunks 16 p
  (List.zipWith (fun t b => xorBytes (aesEncKeys ks (xorBytes b t)) t) (xtsTweaks bl.length (aesEnc kt unit)) bl).flatten

/-- AES-256-XTS decryption of whole 16-byte blocks. -/
def xtsDec (kd kt unit c : Bytes) : Bytes :=
  let ks := aesKeys kd
  let bl := inChunks 16 c
  (List.zipWith (fun t b => xorBytes (aesDecKeys ks (xorBytes b t)) t) (xtsTweaks bl.length (aesEnc kt unit)) bl).flatten

/-! ### CRC-32C -/

/-- One bit of the reflected CRC-32C register. -/
def crcBit (c : Word) : Word := (c >>> 1) ^^^ (if c.getLsbD 0 then 0x82F63B78 else 0)

/-- CRC-32C of a string (R76, R101). -/
def crc32c (m : Bytes) : Word :=
  ~~~(m.foldl (fun c b => Nat.repeat crcBit 8 (c ^^^ b.setWidth 32)) 0xFFFFFFFF)

end Sys2Proof.Machine
end

