-- ==== Sys2Proof/Machine/Der.lean ====
section
/-! DEFINITION. DER and the parts of an X.509 certificate that MB3 writes and reads (07). The encoding rules and the OIDs that the
rules of 07 do not give are X.690's, RFC 5280's, RFC 2986's and the TCG DICE profile's (PRESUMED, log entry 151). -/

namespace Sys2Proof.Machine

/-! ### Writing -/

/-- A number's bytes, most significant first, without leading zeros. -/
def minBe (n : Nat) : Bytes := (toBe 32 n).dropWhile (· == 0)

def derLen (n : Nat) : Bytes :=
  if n < 128 then [BitVec.ofNat 8 n]
  else BitVec.ofNat 8 (128 + (minBe n).length) :: minBe n

/-- Tag, length, contents. -/
def derTlv (tag : Byte) (c : Bytes) : Bytes := tag :: derLen c.length ++ c
def derSeq (items : List Bytes) : Bytes := derTlv 0x30 items.flatten
def derSet (items : List Bytes) : Bytes := derTlv 0x31 items.flatten

/-- The contents of an INTEGER that is not negative. -/
def derNatBody (n : Nat) : Bytes :=
  match minBe n with
  | [] => [0]
  | b :: bs => if b.getLsbD 7 then 0 :: b :: bs else b :: bs
def derNat (n : Nat) : Bytes := derTlv 0x02 (derNatBody n)
def derEnum (n : Nat) : Bytes := derTlv 0x0A (derNatBody n)
def derBool (b : Bool) : Bytes := derTlv 0x01 [if b then 0xFF else 0]
def derOctets (b : Bytes) : Bytes := derTlv 0x04 b
def derPrintable (b : Bytes) : Bytes := derTlv 0x13 b
def derBitString (b : Bytes) : Bytes := derTlv 0x03 (0 :: b)

/-- The contents of a BIT STRING of `n` bits, bit 0 first. -/
def derBitsBody (n : Nat) (p : Nat → Bool) : Bytes :=
  let k := ceilDiv n 8
  BitVec.ofNat 8 (8 * k - n) ::
    (List.range k).map (fun i => BitVec.ofNat 8 ((List.range 8).foldl (fun v j => 2 * v + b2n (decide (8 * i + j < n) && p (8 * i + j))) 0))
def derBits (n : Nat) (p : Nat → Bool) : Bytes := derTlv 0x03 (derBitsBody n p)

/-- A list of named bits, without trailing zeros. -/
def derNamed (bits : List Nat) : Bytes := derBitsBody (bits.foldl (fun n i => max n (i + 1)) 0) (fun i => bits.contains i)

/-- An arc of an OID in base 128. -/
def derArc (n : Nat) : Bytes :=
  let high := ([4, 3, 2, 1].map (fun i => n / 128 ^ i % 128)).dropWhile (· == 0)
  high.map (fun d => BitVec.ofNat 8 (128 + d)) ++ [BitVec.ofNat 8 (n % 128)]
def derOid : List Nat → Bytes
  | a :: b :: l => derTlv 0x06 ((derArc (40 * a + b)) ++ (l.map derArc).flatten)
  | _ => derTlv 0x06 []

/-- A number in decimal. -/
def decimal (n : Nat) : Bytes := (Nat.toDigits 10 n).map (fun c => BitVec.ofNat 8 c.toNat)
/-- Bytes in uppercase hexadecimal. -/
def hexUpper (b : Bytes) : Bytes :=
  let digit (n : Nat) : Byte := BitVec.ofNat 8 (if n < 10 then 48 + n else 55 + n)
  b.flatMap (fun x => [digit (x.toNat / 16), digit (x.toNat % 16)])

/-! ### Reading -/

/-- The first element of a string: tag, contents, and what follows. -/
def derHead (b : Bytes) : Option (Byte × Bytes × Bytes) :=
  match b with
  | t :: l :: r =>
    let n := l.toNat
    let k := if n < 128 then 0 else n - 128
    let len := if n < 128 then n else beNat (r.take k)
    if k ≤ 4 ∧ k ≤ r.length ∧ len ≤ (r.drop k).length then some (t, (r.drop k).take len, (r.drop k).drop len) else none
  | _ => none

/-- One element read: its tag, its contents, and all its bytes. -/
structure DerItem where
  tag : Byte
  body : Bytes
  raw : Bytes
  deriving DecidableEq, Repr

/-- At most so many elements of a string. -/
def derItems : Nat → Bytes → List DerItem
  | 0, _ => []
  | n + 1, b =>
    match derHead b with
    | some (t, c, r) => { tag := t, body := c, raw := b.take (b.length - r.length) } :: derItems n r
    | none => []

def derNone : DerItem := { tag := 0, body := [], raw := [] }
/-- Element `i` of the contents of a string's first element. -/
def derItem (b : Bytes) (i : Nat) : DerItem := (derItems 16 ((derItems 1 b).getD 0 derNone).body).getD i derNone

/-! ### OIDs -/

/-- 1.3.6.1.4.1.P with P Tvedgetex's IANA enterprise number (R240). -/
def tvxOid (l : List Nat) : Bytes := derOid ([1, 3, 6, 1, 4, 1, Config.enterprise] ++ l)
def oidHybridSig : Bytes := tvxOid [3, 1, 1]
def oidHybridKey : Bytes := tvxOid [3, 1, 2]
def oidHybridKem : Bytes := tvxOid [3, 1, 3]
def oidTvxUnit : Bytes := tvxOid [3, 2, 1]
def oidTvxConfig : Bytes := tvxOid [3, 2, 2]
def oidTvxBerth : Bytes := tvxOid [3, 2, 3]
def oidTvxLanes : Bytes := tvxOid [3, 2, 4]
def oidTcbInfo : Bytes := derOid [2, 23, 133, 5, 4, 1]
def oidMultiTcbInfo : Bytes := derOid [2, 23, 133, 5, 4, 5]
def oidSha384 : Bytes := derOid [2, 16, 840, 1, 101, 3, 4, 2, 2]

/-! ### Certificates -/

/-- An algorithm identifier with its parameters absent (R240). -/
def derAlg (oid : Bytes) : Bytes := derSeq [oid]
/-- A subject key. -/
def derKey (oid key : Bytes) : Bytes := derSeq [derAlg oid, derBitString key]
/-- A name of attributes 2.5.4.n. -/
def derName (l : List (Nat × Bytes)) : Bytes := derSeq (l.map (fun x => derSet [derSeq [derOid [2, 5, 4, x.1], derPrintable x.2]]))
/-- An extension. -/
def derExt (oid : Bytes) (critical : Bool) (value : Bytes) : Bytes :=
  derSeq ([oid] ++ (if critical then [derBool true] else []) ++ [derOctets value])

/-- Subject O=Tvedgetex, CN, OU if given, and the unit serial in serialNumber (R242). -/
def tvxName (cn : Bytes) (ou : Option Bytes) (serial : Bytes) : Bytes :=
  derName ([(10, ascii "Tvedgetex"), (3, cn)] ++ (ou.map (fun x => (11, x))).toList ++ [(5, hexUpper serial)])

/-- Twenty bytes of key identifier, and sixteen of serial number, of a subject key (R242). -/
def keyId (k : Bytes) : Bytes := (sha384 k).take 20
def serialOf (k : Bytes) : Bytes :=
  match (sha384 k).take 16 with
  | [] => []
  | b :: bs => (b &&& 0x7F) :: bs

/-- basicConstraints, keyUsage, subjectKeyIdentifier and authorityKeyIdentifier (R242). -/
def derUsual (ca : Option Nat) (usage : List Nat) (key issuerKey : Bytes) : List Bytes :=
  [derExt (derOid [2, 5, 29, 19]) true (derSeq (match ca with
      | some n => [derBool true, derNat n]
      | none => [])),
    derExt (derOid [2, 5, 29, 15]) true (derTlv 0x03 (derNamed usage)),
    derExt (derOid [2, 5, 29, 14]) false (derOctets (keyId key)),
    derExt (derOid [2, 5, 29, 35]) false (derSeq [derTlv 0x80 (keyId issuerKey)])]

/-- The tbsCertificate of X.509 v3 with the hybrid signature (R240): the subject key gives the serial number; issuer and
validity as encoded. -/
def derTbs (issuer validity subject keyOid key : Bytes) (exts : List Bytes) : Bytes :=
  derSeq [derTlv 0xA0 (derNat 2), derNat (beNat (serialOf key)), derAlg oidHybridSig, issuer, validity, subject, derKey keyOid key,
    derTlv 0xA3 (derSeq exts)]

/-- A certificate, or a certification request, of its signed part and its signature (R241). -/
def derSigned (tbs sig : Bytes) : Bytes := derSeq [tbs, derAlg oidHybridSig, derBitString sig]

def certTbs (c : Bytes) : Bytes := (derItem c 0).raw
def certSig (c : Bytes) : Bytes := (derItem c 2).body.drop 1
def certValidity (c : Bytes) : Bytes := (derItem (certTbs c) 4).raw
def certSubject (c : Bytes) : Bytes := (derItem (certTbs c) 5).raw
/-- The subject key, and the OID of its algorithm. -/
def certKey (c : Bytes) : Bytes := (derItem (derItem (certTbs c) 6).raw 1).body.drop 1
def certKeyOid (c : Bytes) : Bytes := (derItem (derItem (derItem (certTbs c) 6).raw 0).raw 0).raw

/-- The values of the extensions with an identifier, in their order. -/
def certExts (c oid : Bytes) : List Bytes :=
  let t := derItems 16 (derItem c 0).body
  match t.find? (fun x => x.tag == 0xA3) with
  | none => []
  | some x =>
    ((derItems 16 ((derItems 1 x.body).getD 0 derNone).body).filter (fun e => (derItem e.raw 0).raw == oid)).filterMap
      (fun e => ((derItems 3 e.body).getLast?).map (·.body))

/-- The value of the first extension with an identifier. -/
def certExt (c oid : Bytes) : Option Bytes := (certExts c oid).head?

/-- The hwType and lcState of a certificate's tvx-unit (R245). -/
def certHw (c : Bytes) : Nat := beNat (derItem ((certExt c oidTvxUnit).getD []) 0).body
def certLc (c : Bytes) : Nat := beNat (derItem ((certExt c oidTvxUnit).getD []) 3).body

/-! ### DICE entries (R249) -/

/-- The fields of DiceTcbInfo that MB3 fills (R249): all nine, in every entry. -/
structure TcbInfo where
  vendor : Bytes
  model : Bytes
  version : Bytes
  svn : Nat
  layer : Nat
  index : Nat
  fwids : List Bytes
  flags : List Nat
  typ : Bytes
  deriving DecidableEq, Repr

def derTcb (t : TcbInfo) : Bytes :=
  derSeq [derTlv 0x80 t.vendor, derTlv 0x81 t.model, derTlv 0x82 t.version, derTlv 0x83 (derNatBody t.svn), derTlv 0x84 (derNatBody t.layer),
    derTlv 0x85 (derNatBody t.index), derTlv 0xA6 ((t.fwids.map (fun d => derSeq [oidSha384, derOctets d])).flatten),
    derTlv 0x87 (derNamed t.flags), derTlv 0x89 t.typ]

end Sys2Proof.Machine
end

