-- ==== Sys2Proof/Machine/MlKem.lean ====
section
/-! DEFINITION. SHAKE (FIPS 202) and ML-KEM-1024 (FIPS 203), which the crypto engines implement (R222). The spec names the
standards and does not copy them (PRESUMED, log entry 2). -/

namespace Sys2Proof.Machine

/-! ### SHA-3 and SHAKE of any rate (FIPS 202) -/

def keccakF (a : List (BitVec 64)) : List (BitVec 64) := keccakRC.foldl keccakRound a

/-- Output blocks of a sponge. -/
def squeeze (rate : Nat) : Nat → List (BitVec 64) → Bytes
  | 0, _ => []
  | n + 1, a => ((a.take (rate / 8)).map (fun x => toLe 8 x.toNat)).flatten ++ squeeze rate n (keccakF a)

/-- `n` bytes of the sponge of a rate with its domain suffix. -/
def sponge (rate : Nat) (suffix : Byte) (m : Bytes) (n : Nat) : Bytes :=
  let q := rate - m.length % rate
  let pad : Bytes := if q = 1 then [suffix ||| 0x80] else [suffix] ++ zeros (q - 2) ++ [0x80]
  (squeeze rate (ceilDiv n rate) ((inChunks rate (m ++ pad)).foldl keccakAbsorb (List.replicate 25 0))).take n

def shake128 (m : Bytes) (n : Nat) : Bytes := sponge 168 0x1F m n
def shake256 (m : Bytes) (n : Nat) : Bytes := sponge 136 0x1F m n
def sha3256 (m : Bytes) : Bytes := sponge 136 0x06 m 32
def sha3512 (m : Bytes) : Bytes := sponge 72 0x06 m 64

/-! ### Packed coefficients -/

/-- Coefficients of `d` bits each, the first lowest. -/
def packBits (d : Nat) (xs : List Nat) : Bytes := toLe (d * xs.length / 8) (xs.foldr (fun x n => n * 2 ^ d + x) 0)

/-- `n` coefficients of `d` bits of a number. -/
def splitBits (d : Nat) : Nat → Nat → List Nat
  | 0, _ => []
  | n + 1, v => v % 2 ^ d :: splitBits d n (v / 2 ^ d)

def unpackBits (d n : Nat) (b : Bytes) : List Nat := splitBits d n (leNat b)

/-- The bits of a number in the other order. -/
def bitRev (n v : Nat) : Nat := (List.range n).foldl (fun r i => r * 2 + v / 2 ^ i % 2) 0

/-- A power modulo q. -/
def zPow (q b : Nat) : Nat → Nat
  | 0 => 1
  | n + 1 => b * zPow q b n % q

/-! ### The number-theoretic transform, shared by ML-KEM and ML-DSA -/

/-- The ring of a scheme: its modulus, its root of unity, how many levels its transform has, and the factor of its inverse. -/
structure Ring256 where
  q : Nat
  root : Nat
  levels : Nat
  scale : Nat

def kemRing : Ring256 := { q := 3329, root := 17, levels := 7, scale := 3303 }

/-- The root's power of node `i` of the transform. -/
def Ring256.zeta (r : Ring256) (i : Nat) : Nat := zPow r.q r.root (bitRev r.levels i)
def Ring256.zetaInv (r : Ring256) (i : Nat) : Nat := zPow r.q r.root (2 ^ (r.levels + 1) - bitRev r.levels i)

/-- The transform of the node `i` with so many levels left. -/
def Ring256.nttNode (r : Ring256) : Nat → Nat → List Nat → List Nat
  | 0, _, f => f
  | n + 1, i, f =>
    let h := f.length / 2
    let z := r.zeta i
    let lo := f.take h
    let t := (f.drop h).map (fun x => z * x % r.q)
    r.nttNode n (2 * i) (List.zipWith (fun a b => (a + b) % r.q) lo t) ++
      r.nttNode n (2 * i + 1) (List.zipWith (fun a b => (a + r.q - b) % r.q) lo t)

def Ring256.inttNode (r : Ring256) : Nat → Nat → List Nat → List Nat
  | 0, _, f => f
  | n + 1, i, f =>
    let h := f.length / 2
    let lo := r.inttNode n (2 * i) (f.take h)
    let hi := r.inttNode n (2 * i + 1) (f.drop h)
    let z := r.zetaInv i
    List.zipWith (fun a b => (a + b) % r.q) lo hi ++ List.zipWith (fun a b => z * (a + r.q - b) % r.q) lo hi

def Ring256.ntt (r : Ring256) (f : List Nat) : List Nat := r.nttNode r.levels 1 f
def Ring256.intt (r : Ring256) (f : List Nat) : List Nat := (r.inttNode r.levels 1 f).map (fun x => r.scale * x % r.q)

def Ring256.add (r : Ring256) (a b : List Nat) : List Nat := List.zipWith (fun x y => (x + y) % r.q) a b
def Ring256.sub (r : Ring256) (a b : List Nat) : List Nat := List.zipWith (fun x y => (x + r.q - y) % r.q) a b
def zeroPoly : List Nat := List.replicate 256 0

/-! ### ML-KEM-1024 -/

/-- The product of two transformed polynomials, pair by pair. -/
def kemMulPairs : Nat → List Nat → List Nat → List Nat
  | i, a0 :: a1 :: as, b0 :: b1 :: bs =>
    let g := zPow 3329 17 (2 * bitRev 7 i + 1)
    (a0 * b0 + a1 * b1 * g) % 3329 :: (a0 * b1 + a1 * b0) % 3329 :: kemMulPairs (i + 1) as bs
  | _, _, _ => []

/-- The inner product of two vectors. -/
def kemDot (a b : List (List Nat)) : List Nat :=
  (List.zipWith (kemMulPairs 0) a b).foldl kemRing.add zeroPoly

/-- Coefficients below q of a uniform stream of 3-byte pairs. -/
def kemReject : Bytes → List Nat
  | b0 :: b1 :: b2 :: bs =>
    let d1 := b0.toNat + 256 * (b1.toNat % 16)
    let d2 := b1.toNat / 16 + 16 * b2.toNat
    [d1, d2].filter (· < 3329) ++ kemReject bs
  | _ => []

/-- One entry of the public matrix. The stream is cut at eight blocks, which leave more than 256 coefficients but for a chance
too small to count. -/
def kemSample (rho : Bytes) (i j : Nat) : List Nat :=
  (kemReject (shake128 (rho ++ [BitVec.ofNat 8 j, BitVec.ofNat 8 i]) 1344)).take 256

/-- The centred binomial noise of parameter 2. -/
def kemNoise (seed : Bytes) (n : Nat) : List Nat :=
  (unpackBits 4 256 (shake256 (seed ++ [BitVec.ofNat 8 n]) 128)).map (fun v =>
    (v % 2 + v / 2 % 2 + 3329 - (v / 4 % 2 + v / 8 % 2)) % 3329)

def kemMatrix (rho : Bytes) (transposed : Bool) : List (List (List Nat)) :=
  (List.range 4).map (fun i => (List.range 4).map (fun j => if transposed then kemSample rho j i else kemSample rho i j))

def kemCompress (d x : Nat) : Nat := (2 * x * 2 ^ d + 3329) / 6658 % 2 ^ d
def kemExpand (d y : Nat) : Nat := (2 * 3329 * y + 2 ^ d) / 2 ^ (d + 1)

/-- The encryption key and the secret vector of the seed d. -/
def kemKeys (d : Bytes) : Bytes × List (List Nat) :=
  let g := sha3512 (d ++ [0x04])
  let rho := g.take 32
  let sigma := g.drop 32
  let sv := (List.range 4).map (fun i => kemRing.ntt (kemNoise sigma i))
  let ev := (List.range 4).map (fun i => kemRing.ntt (kemNoise sigma (4 + i)))
  let t := List.zipWith (fun row e => kemRing.add (kemDot row sv) e) (kemMatrix rho false) ev
  ((t.map (packBits 12)).flatten ++ rho, sv)

/-- The encryption of a 32-byte message under a key with 32 bytes of randomness. -/
def kemEncrypt (ek m r : Bytes) : Bytes :=
  let t := (inChunks 384 (ek.take 1536)).map (fun b => (unpackBits 12 256 b).map (· % 3329))
  let y := (List.range 4).map (fun i => kemRing.ntt (kemNoise r i))
  let u := ((kemMatrix (slice ek 1536 32) true).zip (List.range 4)).map (fun x =>
    kemRing.add (kemRing.intt (kemDot x.1 y)) (kemNoise r (4 + x.2)))
  let mu := (unpackBits 1 256 m).map (kemExpand 1)
  let v := kemRing.add (kemRing.add (kemRing.intt (kemDot t y)) (kemNoise r 8)) mu
  (u.map (fun p => packBits 11 (p.map (kemCompress 11)))).flatten ++ packBits 5 (v.map (kemCompress 5))

/-- The message of a ciphertext under the secret vector. -/
def kemDecrypt (sv : List (List Nat)) (c : Bytes) : Bytes :=
  let u := (inChunks 352 (c.take 1408)).map (fun b => (unpackBits 11 256 b).map (kemExpand 11))
  let v := (unpackBits 5 256 (slice c 1408 160)).map (kemExpand 5)
  let w := kemRing.sub v (kemRing.intt (kemDot sv (u.map kemRing.ntt)))
  packBits 1 (w.map (kemCompress 1))

/-- The encapsulation key of the seeds d and z. -/
def kemPub (seed : Bytes) : Bytes := (kemKeys (seed.take 32)).1

/-- The shared secret and the encryption randomness of a message to a key. -/
def kemSplit (ek m : Bytes) : Bytes × Bytes :=
  let g := sha3512 (m ++ sha3256 ek)
  (g.take 32, g.drop 32)

/-- Encapsulation to a key with 32 random bytes: the ciphertext, and the shared secret. -/
def kemCipher (ek m : Bytes) : Bytes := kemEncrypt ek m (kemSplit ek m).2
def kemSecret (ek m : Bytes) : Bytes := (kemSplit ek m).1

/-- Decapsulation with the seeds d and z: a ciphertext that does not come back from its own message gives the implicit
rejection's secret. -/
def kemDecap (seed c : Bytes) : Bytes :=
  let k := kemKeys (seed.take 32)
  let m := kemDecrypt k.2 c
  if kemCipher k.1 m = c then kemSecret k.1 m else shake256 (slice seed 32 32 ++ c) 32

end Sys2Proof.Machine
end

