-- ==== Sys2Proof/Machine/MlDsa.lean ====
section
/-! DEFINITION. ML-DSA-87 (FIPS 204), which the crypto engines implement (R222), with an empty context (R238). The spec names the
standard and does not copy it (PRESUMED, log entry 2). -/

namespace Sys2Proof.Machine

def dsaRing : Ring256 := { q := 8380417, root := 1753, levels := 8, scale := 8347681 }

/-- The modulus, and the parameters gamma1, gamma2 and beta. -/
def dsaQ : Nat := 8380417
def dsaG1 : Nat := 524288
def dsaG2 : Nat := 261888
def dsaBeta : Nat := 120

/-- A residue as the integer of least magnitude; its magnitude. -/
def dsaCentre (x : Nat) : Int := if x ≤ dsaQ / 2 then (x : Int) else (x : Int) - (dsaQ : Int)
def dsaAbs (x : Nat) : Nat := (dsaCentre x).natAbs
def dsaOfInt (i : Int) : Nat := (i % (dsaQ : Int)).toNat

def dsaMul (a b : List Nat) : List Nat := List.zipWith (fun x y => x * y % dsaQ) a b
def dsaDot (a b : List (List Nat)) : List Nat := (List.zipWith dsaMul a b).foldl dsaRing.add zeroPoly

/-! ### Sampling. A stream is cut where it holds enough but for a chance too small to count. -/

def dsaReject : Bytes → List Nat
  | b0 :: b1 :: b2 :: bs =>
    let z := b0.toNat + 256 * b1.toNat + 65536 * (b2.toNat % 128)
    if z < dsaQ then z :: dsaReject bs else dsaReject bs
  | _ => []

/-- The public matrix, 8 rows of 7. -/
def dsaMatrix (rho : Bytes) : List (List (List Nat)) :=
  (List.range 8).map (fun r => (List.range 7).map (fun c =>
    (dsaReject (shake128 (rho ++ [BitVec.ofNat 8 c, BitVec.ofNat 8 r]) 1008)).take 256))

/-- A short polynomial of a secret vector. -/
def dsaShort (seed : Bytes) (n : Nat) : List Nat :=
  ((unpackBits 4 816 (shake256 (seed ++ toLe 2 n) 408)).filter (· < 15) |>.take 256).map (fun b => (2 + dsaQ - b % 5) % dsaQ)

/-- A polynomial of the mask. -/
def dsaMask (seed : Bytes) (n : Nat) : List Nat :=
  (unpackBits 20 256 (shake256 (seed ++ toLe 2 n) 640)).map (fun z => (dsaG1 + dsaQ - z) % dsaQ)

/-- The next byte of a stream that is at most i. -/
def dsaPick (i : Nat) : Bytes → Nat × Bytes
  | [] => (0, [])
  | b :: bs => if b.toNat ≤ i then (b.toNat, bs) else dsaPick i bs

/-- The challenge: 60 coefficients of 1 or -1. -/
def dsaBall (seed : Bytes) : List Nat :=
  let s := shake256 seed 544
  let signs := leNat (s.take 8)
  ((List.range 60).foldl (fun (acc : List Nat × Bytes) k =>
    let i := 196 + k
    let p := dsaPick i acc.2
    let c := acc.1.set i (acc.1.getD p.1 0)
    (c.set p.1 (if nbit signs k then dsaQ - 1 else 1), p.2)) (zeroPoly, s.drop 8)).1

/-! ### Rounding and hints -/

/-- Power2Round with d = 13: high and low part. -/
def dsaHigh13 (x : Nat) : Nat := (x + 4095) / 8192
def dsaLow13 (x : Nat) : Nat := (x + dsaQ - dsaHigh13 x * 8192) % dsaQ

/-- Decompose: the high bits, and the low part as an integer. -/
def dsaDecompose (x : Nat) : Nat × Int :=
  let m := x % (2 * dsaG2)
  let r0 : Int := if m ≤ dsaG2 then (m : Int) else (m : Int) - (2 * dsaG2 : Nat)
  if (x : Int) - r0 = (dsaQ : Int) - 1 then (0, r0 - 1) else (((x : Int) - r0).toNat / (2 * dsaG2), r0)

def dsaUseHint (h : Bool) (x : Nat) : Nat :=
  let d := dsaDecompose x
  if h then (if 0 < d.2 then (d.1 + 1) % 16 else (d.1 + 15) % 16) else d.1

/-- The encoding of the hints: the places in each polynomial, then where each ends. -/
def dsaHintBytes (h : List (List Bool)) : Bytes :=
  let places := h.map (fun p => (List.range 256).filter (fun i => p.getD i false))
  let ends := (List.range 8).map (fun i => ((places.take (i + 1)).map List.length).foldl (· + ·) 0)
  padTo 75 (places.flatten.map (BitVec.ofNat 8)) ++ ends.map (BitVec.ofNat 8)

def dsaRising : List Nat → Bool
  | a :: b :: l => decide (a < b) && dsaRising (b :: l)
  | _ => true

/-- The hints of an encoding, if it is well formed. -/
def dsaHints (b : Bytes) : Option (List (List Bool)) :=
  let ends := (List.range 8).map (fun i => leAt b (75 + i) 1)
  let begins := 0 :: ends.take 7
  let parts := (begins.zip ends).map (fun x => (slice b x.1 (x.2 - x.1)).map BitVec.toNat)
  if (begins.zip ends).all (fun x => decide (x.1 ≤ x.2 ∧ x.2 ≤ 75)) && parts.all dsaRising && allZero (slice b (ends.getD 7 0) (75 - ends.getD 7 0)) then
    some (parts.map (fun p => (List.range 256).map (fun i => p.contains i)))
  else none

/-! ### Keys, signatures -/

/-- What a seed expands to. -/
structure DsaKey where
  rho : Bytes
  k : Bytes
  s1 : List (List Nat)
  s2 : List (List Nat)
  t0 : List (List Nat)
  pub : Bytes

def dsaKey (seed : Bytes) : DsaKey :=
  let h := shake256 (seed ++ [0x08, 0x07]) 128
  let rho := h.take 32
  let s1 := (List.range 7).map (dsaShort (slice h 32 64))
  let s2 := (List.range 8).map (fun i => dsaShort (slice h 32 64) (7 + i))
  let t := List.zipWith (fun row e => dsaRing.add (dsaRing.intt (dsaDot row (s1.map dsaRing.ntt))) e) (dsaMatrix rho) s2
  { rho := rho, k := slice h 96 32, s1 := s1, s2 := s2, t0 := t.map (·.map dsaLow13)
    pub := rho ++ (t.map (fun p => packBits 10 (p.map dsaHigh13))).flatten }

/-- The public key of a 32-byte seed. -/
def mldsaPub (seed : Bytes) : Bytes := (dsaKey seed).pub

/-- The message representative with an empty context. -/
def dsaMu (pub msg : Bytes) : Bytes := shake256 (shake256 pub 64 ++ [0x00, 0x00] ++ msg) 64

/-- Signing attempts from a mask number on. -/
def dsaTry (key : DsaKey) (mat : List (List (List Nat))) (mu seed : Bytes) : Nat → Nat → Bytes
  | 0, _ => []
  | n + 1, kappa =>
    let y := (List.range 7).map (fun r => dsaMask seed (kappa + r))
    let yt := y.map dsaRing.ntt
    let w := mat.map (fun row => dsaRing.intt (dsaDot row yt))
    let ct := shake256 (mu ++ (w.map (fun p => packBits 4 (p.map (fun x => (dsaDecompose x).1)))).flatten) 64
    let c := dsaRing.ntt (dsaBall ct)
    let by_ (v : List (List Nat)) : List (List Nat) := v.map (fun p => dsaRing.intt (dsaMul c (dsaRing.ntt p)))
    let z := List.zipWith dsaRing.add y (by_ key.s1)
    let r := List.zipWith dsaRing.sub w (by_ key.s2)
    let e := by_ key.t0
    let h : List (List Bool) := List.zipWith (fun a b => List.zipWith (fun x t => (dsaDecompose x).1 != (dsaDecompose ((x + t) % dsaQ)).1) a b) r e
    if z.any (·.any (fun x => decide (dsaG1 - dsaBeta ≤ dsaAbs x))) || r.any (·.any (fun x => decide (dsaG2 - dsaBeta ≤ (dsaDecompose x).2.natAbs))) ||
        e.any (·.any (fun x => decide (dsaG2 ≤ dsaAbs x))) || decide (75 < (h.map (fun p => (p.filter id).length)).foldl Nat.add 0) then
      dsaTry key mat mu seed n (kappa + 7)
    else
      ct ++ (z.map (fun p => packBits 20 (p.map (fun x => ((dsaG1 : Int) - dsaCentre x).toNat)))).flatten ++ dsaHintBytes h

/-- The signature of a message by a seed with 32 bytes of randomness. -/
def mldsaSign (seed msg rnd : Bytes) : Bytes :=
  let key := dsaKey seed
  let mu := dsaMu key.pub msg
  dsaTry key (dsaMatrix key.rho) mu (shake256 (key.k ++ rnd ++ mu) 64) 1000 0

/-- The signature verifies under the public key. -/
def mldsaVerify (pub msg sig : Bytes) : Bool :=
  if pub.length ≠ 2592 ∨ sig.length ≠ 4627 then false
  else
    match dsaHints (sig.drop 4544) with
    | none => false
    | some h =>
      let z := (inChunks 640 (slice sig 64 4480)).map (fun b => (unpackBits 20 256 b).map (fun x => (dsaG1 + dsaQ - x) % dsaQ))
      let t1 := (inChunks 320 (pub.drop 32)).map (fun b => dsaRing.ntt ((unpackBits 10 256 b).map (fun x => x * 8192 % dsaQ)))
      let mu := dsaMu pub msg
      let c := dsaRing.ntt (dsaBall (sig.take 64))
      let zt := z.map dsaRing.ntt
      let w := List.zipWith (fun row t => dsaRing.intt (dsaRing.sub (dsaDot row zt) (dsaMul c t))) (dsaMatrix (pub.take 32)) t1
      let w1 := List.zipWith (fun hp wp => List.zipWith dsaUseHint hp wp) h w
      z.all (·.all (fun x => decide (dsaAbs x < dsaG1 - dsaBeta))) &&
        shake256 (mu ++ (w1.map (packBits 4)).flatten) 64 == sig.take 64

end Sys2Proof.Machine
end

