-- ==== Sys2Proof/Machine/P384.lean ====
section
/-! DEFINITION. ECDSA and ECDH on P-384, which the crypto engines implement (R222). The curve and its arithmetic are FIPS 186-5's
and SP 800-186's, which the spec names and does not copy (PRESUMED, log entry 2). -/

namespace Sys2Proof.Machine

/-- The field of P-384. -/
def eccP : Nat := 2 ^ 384 - 2 ^ 128 - 2 ^ 96 + 2 ^ 32 - 1
/-- The group order q. -/
def eccQ : Nat := 0xffffffffffffffffffffffffffffffffffffffffffffffffc7634d81f4372ddf581a0db248b0a77aecec196accc52973
/-- The coefficient b of y^2 = x^3 - 3 x + b. -/
def eccB : Nat := 0xb3312fa7e23ee7e4988e056be3f82d19181d9c6efe8141120314088f5013875ac656398d8a2ed19d2a85c8edd3ec2aef
def eccGx : Nat := 0xaa87ca22be8b05378eb1c71ef320ad746e1d3b628ba79b9859f741e082542a385502f25dbf55296c3a545e3872760ab7
def eccGy : Nat := 0x3617de4a96262c6f5d9e98bf9292dc29f8f41dbd289a147ce9da3113b5f0b8c00a60b1ce1d7e819d7a431d7c90ea0e5f

/-- A power modulo m; the first argument bounds the bits of the exponent. -/
def powMod (m : Nat) : Nat → Nat → Nat → Nat
  | 0, _, _ => 1
  | n + 1, b, e =>
    let h := powMod m n (b * b % m) (e / 2)
    if e % 2 = 1 then b * h % m else h

/-- The inverse modulo a prime. -/
def invMod (m a : Nat) : Nat := powMod m 384 (a % m) (m - 2)

def eccMul (a b : Nat) : Nat := a * b % eccP
def eccSub (a b : Nat) : Nat := (a + eccP - b) % eccP

/-- A point in Jacobian coordinates; z = 0 is the point at infinity. -/
structure EccPoint where
  x : Nat
  y : Nat
  z : Nat
  deriving DecidableEq, Repr

def eccInf : EccPoint := { x := 1, y := 1, z := 0 }
def eccG : EccPoint := { x := eccGx, y := eccGy, z := 1 }

/-- A point doubled. -/
def eccDouble (p : EccPoint) : EccPoint :=
  let d := eccMul p.z p.z
  let g := eccMul p.y p.y
  let b := eccMul p.x g
  let a := 3 * eccMul (eccSub p.x d) (p.x + d) % eccP
  let x := eccSub (eccMul a a) (8 * b % eccP)
  { x := x
    y := eccSub (eccMul a (eccSub (4 * b % eccP) x)) (8 * eccMul g g % eccP)
    z := eccSub (eccSub (eccMul (p.y + p.z) (p.y + p.z)) g) d }

/-- The sum of two points. -/
def eccAdd (p q : EccPoint) : EccPoint :=
  if p.z = 0 then q
  else if q.z = 0 then p
  else
    let z1 := eccMul p.z p.z
    let z2 := eccMul q.z q.z
    let u1 := eccMul p.x z2
    let u2 := eccMul q.x z1
    let s1 := eccMul p.y (eccMul z2 q.z)
    let s2 := eccMul q.y (eccMul z1 p.z)
    if u1 = u2 then (if s1 = s2 then eccDouble p else eccInf)
    else
      let h := eccSub u2 u1
      let r := eccSub s2 s1
      let h2 := eccMul h h
      let h3 := eccMul h h2
      let v := eccMul u1 h2
      let x := eccSub (eccSub (eccMul r r) h3) (2 * v % eccP)
      { x := x, y := eccSub (eccMul r (eccSub v x)) (eccMul s1 h3), z := eccMul h (eccMul p.z q.z) }

/-- A multiple of a point; the first argument bounds the bits of the scalar. -/
def eccTimes : Nat → Nat → EccPoint → EccPoint
  | 0, _, _ => eccInf
  | n + 1, k, p =>
    let h := eccTimes n (k / 2) (eccDouble p)
    if k % 2 = 1 then eccAdd p h else h

/-- The affine coordinates of a finite point. -/
def eccAffine (p : EccPoint) : Nat × Nat :=
  let i := invMod eccP p.z
  let i2 := eccMul i i
  (eccMul p.x i2, eccMul p.y (eccMul i2 i))

/-- A public key uncompressed, 97 bytes. -/
def eccBytes (p : EccPoint) : Bytes :=
  let a := eccAffine p
  [0x04] ++ toBe 48 a.1 ++ toBe 48 a.2

/-- The point of an uncompressed key, if it is one on the curve. -/
def eccOfBytes (b : Bytes) : Option EccPoint :=
  let x := beNat (slice b 1 48)
  let y := beNat (slice b 49 48)
  if b.length = 97 ∧ byteAt b 0 = 0x04 ∧ x < eccP ∧ y < eccP ∧ y * y % eccP = (x * x * x + (eccP - 3) * x + eccB) % eccP then
    some { x := x, y := y, z := 1 }
  else none

/-- The private scalar of a seed's first 56 bytes: d = (n56 mod (q - 1)) + 1 (R213). -/
def eccScalar (seed : Bytes) : Nat := beNat (slice seed 0 56) % (eccQ - 1) + 1

/-- The public key of a scalar. -/
def eccPub (d : Nat) : Bytes := eccBytes (eccTimes 384 d eccG)

/-- The shared x-coordinate of a scalar and a peer's public key; nothing where the key is no point (R218). -/
def ecdh (d : Nat) (peer : Bytes) : Bytes :=
  match eccOfBytes peer with
  | some p => toBe 48 (eccAffine (eccTimes 384 d p)).1
  | none => []

/-- The ECDSA signature r then s of a 48-byte message taken directly (R238), with the nonce k. -/
def ecdsaSign (d : Nat) (msg : Bytes) (k : Nat) : Bytes :=
  let r := (eccAffine (eccTimes 384 k eccG)).1 % eccQ
  let s := invMod eccQ k * (beNat msg + r * d) % eccQ
  toBe 48 r ++ toBe 48 s

/-- The ECDSA signature verifies under the public key. -/
def ecdsaVerify (key msg sig : Bytes) : Bool :=
  let r := beNat (slice sig 0 48)
  let s := beNat (slice sig 48 48)
  match eccOfBytes key with
  | none => false
  | some p =>
    if sig.length ≠ 96 ∨ r = 0 ∨ eccQ ≤ r ∨ s = 0 ∨ eccQ ≤ s then false
    else
      let w := invMod eccQ s
      let t := eccAdd (eccTimes 384 (beNat msg * w % eccQ) eccG) (eccTimes 384 (r * w % eccQ) p)
      t.z != 0 && (eccAffine t).1 % eccQ == r

end Sys2Proof.Machine
end

