-- ==== Sys2Proof/Machine/State.lean ====
section
/-! DEFINITION. The state of MB3: every register, buffer, queue, counter, mode and pin the spec gives it, as plain
data; the reasons a step can stop; and the state after reset. Each field's docstring names its rule, its file and its
reset value; INVENTORY.md lists the same. -/

namespace Sys2Proof.Machine

/-- Why a step may fault. No command of MB3 faults: the spec gives every command an effect on every operand. -/
inductive Fault where
  /-- Never raised: kept so that the type of outcomes has a fault reason. Safe. -/
  | unreachable
  deriving DecidableEq, Repr

/-- Why a step may be refused. -/
inductive Refusal where
  /-- Raised by an arm of `exec` whose command has no meaning yet. Safe. -/
  | notModelled (mnemonic : String)
  deriving DecidableEq, Repr

/-! ## Boundary, pins, JTAG (02) -/

/-- The JTAG instruction the segment holds (R88, R89). -/
inductive JtagIr where
  | bypass | idcode | samplePreload | extest | lcMbox | debugPort | scan
  deriving DecidableEq, Repr

/-- The dedicated pins and the test chain segment. -/
structure Pins where
  /-- MB_PORST_N is low: every island is in reset. R66 (02_boundary.md). Reset true. -/
  porstLow : Bool
  /-- MB_BOOTSEL[1:0] latched at reset release. R67 (02_boundary.md). Reset 0b00 (latched at release). -/
  bootsel : BitVec 2
  /-- MB_STAT[7:0]. R68 (02_boundary.md). Reset 0x00. -/
  stat : Byte
  /-- MB3 pulls MB_HALT_N low. R70 (02_boundary.md). Reset false (released). -/
  haltLow : Bool
  /-- "halt seen elsewhere" / CRING_STAT.HALT_SEEN. R70 (02_boundary.md), R586. Reset 0. -/
  haltSeen : Bool
  /-- CRING_BYP is high / CRING_STAT.INSERTED. R79, R80 (02_boundary.md), R586. Reset low. -/
  cringByp : Bool
  /-- JTAG instruction register of the segment. R88 (02_boundary.md). Reset: DESIGN CHOICE IDCODE, log entry 12. -/
  ir : JtagIr
  /-- Boundary register: every dedicated pin but VPP_FUSE and TRST_N. R88 (02_boundary.md). Reset: DESIGN CHOICE 0, log entry 12. -/
  boundary : BitVec 21
  /-- The boundary register controls the pins; host, memory and link paths are closed until a reset. R90 (02_boundary.md). Reset false. -/
  boundaryControls : Bool
  /-- Internal scan has run: MB3 accepts only reset. R192 (05_lifecycle_debug.md). Reset false. -/
  scanned : Bool
  deriving DecidableEq, Repr

/-! ## The Cable ring agent (02, 17) -/

/-- Where MB3 stands with the one ordering token it acts on (R86, R87). -/
inductive TokenPhase where
  /-- No token has arrived in this startup. -/
  | none
  /-- A token arrived before verified firmware and is held. -/
  | early
  /-- Verified firmware runs with TOKEN_WAIT not 0 and no token has arrived: the cores stay in reset. -/
  | waiting
  /-- The token arrived and is held until boarding or the second limit. -/
  | holding
  /-- The first limit ended the wait with no token: the cores may be released, and a token that comes before boarding or the
  second limit is still held until then. -/
  | released
  /-- MB3 has acted on its token, or the limit ended the wait. -/
  | done
  deriving DecidableEq, Repr

/-- The one-second limit of ALARM_NOTIFY for one KIND (R567). -/
structure NotifySlot where
  holdoff : Bool
  count : Nat
  event : DWord
  deriving DecidableEq, Repr

/-- A message being joined from its packets (R82): the bytes so far and the sequence number the next packet must carry. -/
structure Assembly where
  sofar : Bytes
  next : BitVec 2
  deriving DecidableEq, Repr

/-- What the agent keeps of an endpoint's last request for its answer (R82, MCTP 1.3): the ring position it came from, its
message tag, and the instance number of a control request. -/
structure RingPeer where
  pos : Byte
  tag : BitVec 3
  inst : BitVec 5
  deriving DecidableEq, Repr

/-- The Cable ring agent: its registers (R586) and what it holds of the ring. -/
structure Ring where
  /-- CRING_STAT.EID. R82, R586 (17_register_index.md). Reset 0x00. -/
  eid : Byte
  /-- The endpoint that assigned the endpoint ID, which ALARM_NOTIFY goes to. R567 (16_faults_journal.md). Reset: DESIGN CHOICE 0x00 while none has, log entry 13. -/
  owner : Byte
  /-- CRING_STAT.POSITION. R78, R586. Reset 0x00. -/
  position : Byte
  /-- CRING_STAT.ENUMERATED. R586 (17_register_index.md). Reset 0. -/
  enumerated : Bool
  /-- The ordering token frame held; CRING_STAT.TOKEN_HELD is 1 while there is one. R86, R87, R586 (17_register_index.md). Reset none. -/
  held : Option RingFrame
  /-- Progress of the one token of a startup. R86, R87 (02_boundary.md). Reset none. -/
  token : TokenPhase
  /-- The second TOKEN_WAIT limit is running. R86 (02_boundary.md). Reset false. -/
  secondLimit : Bool
  /-- CRING_CTL.READY: Pilot runs verified firmware. R586. Reset 0. -/
  ready : Bool
  /-- CRING_TX_CTL.TX_LEN. R586. Reset 0. -/
  txLen : BitVec 14
  /-- CRING_TX_CTL.DST_EID. R586. Reset 0x00. -/
  dstEid : Byte
  /-- CRING_TX_CTL.TX_BUSY. R586. Reset 0. -/
  txBusy : Bool
  /-- CRING_RX_INFO.RX_LEN. R586. Reset 0. -/
  rxLen : BitVec 14
  /-- CRING_RX_INFO.SRC_EID. R586. Reset 0x00. -/
  srcEid : Byte
  /-- CRING_RX_INFO.BUSY_SENT. R586, R587. Reset 0. -/
  busySent : Bool
  /-- CRING_RX_INFO.RX_READY. R586. Reset 0. -/
  rxReady : Bool
  /-- CRING_TX_BUF, 8 KiB. R586. Reset 0. -/
  txBuf : List Host.Cell
  /-- CRING_RX_BUF, 8 KiB. R586. Reset 0. -/
  rxBuf : List Host.Cell
  /-- MCTP messages being reassembled, by source endpoint, tag owner and tag: at most 8,192 B each. R82 (02_boundary.md). Reset empty. -/
  assembly : Tbl Assembly
  /-- Of each endpoint that has sent a request: what its answer needs. R82 (02_boundary.md). Reset empty. -/
  peers : Tbl RingPeer
  /-- The per-KIND notify limit. R567 (16_faults_journal.md). Reset empty. -/
  notify : Tbl NotifySlot
  deriving DecidableEq, Repr

/-! ## Power domains (01) -/

/-- The power and island control block (R47-R49). -/
structure Power where
  /-- PWR_DOMAIN_CTL.DOM_ON, bit n for PDn; bits 0, 1 and 19 read 1 always. R47 (01_architecture.md). Reset 0xF_FFFF. -/
  domOn : BitVec 20
  /-- PWR_DOMAIN_STAT.DOM_UP. R48 (01_architecture.md). Reset 0x0_0000. -/
  domUp : BitVec 20
  /-- Domains that are switching or running their power-up self-test; BUSY is 1 while any is. R48 (01_architecture.md). Reset all (BUSY resets to 1). -/
  switching : BitVec 20
  /-- PWR_ERR.REFUSED. R49 (01_architecture.md). Reset 0. -/
  refused : Bool
  /-- PWR_ERR.LAST_DOM. R49 (01_architecture.md). Reset 0. -/
  lastDom : BitVec 5
  deriving DecidableEq, Repr

/-! ## Islands: self-test, microcode, service (01, 03) -/

/-- Self-test of one island (R107, R108). -/
inductive TestState where
  | pending | running | passed | failed
  deriving DecidableEq, Repr

/-- What R32 says a lane shows the level above: in service, in Darn, in spot test, or failed (out of service). -/
inductive Service where
  | inService | inDarn | spotTest | failed
  deriving DecidableEq, Repr

/-- The state every lane, array, engine, host guard and Boarding agent island carries. -/
structure IslandSt where
  /-- Self-test of the island. R107, R108 (03_startup.md). Reset pending. -/
  test : TestState
  /-- The island's clock runs: its PLL is locked. R74 (02_boundary.md). Reset false. -/
  pll : Bool
  /-- The strap has been read and the role taken. R106 (03_startup.md). Reset false. -/
  strap : Bool
  /-- The island is parked and fails closed. R108 (03_startup.md). Reset true. -/
  parked : Bool
  /-- Microcode stored and its CRC returned good. R110 (03_startup.md). Reset false. -/
  ucOk : Bool
  /-- Installs broadcast to the island since it powered up. R110 (03_startup.md). Reset 0. -/
  ucTries : Nat
  /-- Microcode store write-locked by the first unpark. R111 (03_startup.md). Reset false. -/
  ucLocked : Bool
  /-- In service, in Darn, in spot test or failed. R32 (01_architecture.md). Reset inService. -/
  service : Service
  deriving DecidableEq, Repr

/-! ## Pilot: boot, microcode, management cores, warm restart (03, 08) -/

/-- What Pilot is doing. -/
inductive PilotPhase where
  /-- Held by MB_PORST_N. -/
  | reset
  /-- In the boot ROM. -/
  | rom
  /-- The ROM holds for a debug session (MB_BOOTSEL 0b10, R67). -/
  | hold
  /-- Verified firmware runs. -/
  | firmware
  /-- A warm restart runs (R133). -/
  | warm
  /-- Halted (R132); MB_HALT_N is low. -/
  | halted
  /-- The cores stand where they were: halted over the debug port (PILOT_RUN, R192), or the Trust Core's clock has stopped (R74). -/
  | stopped
  deriving DecidableEq, Repr

/-- A boot source (R284, R288). `recovery` is the Slipway under MB_BOOTSEL 0b01. -/
inductive BootSource where
  | bankA | bankB | slipway | recovery
  deriving DecidableEq, Repr

/-- The chain of the source being loaded (R101, R105). -/
structure ChainSt where
  source : BootSource
  blockCount : Nat
  index : Nat
  expect : Bytes
  crcTries : Nat
  entry : Nat
  complete : Bool
  deriving DecidableEq, Repr

/-- The settings copy Pilot works from (R303-R306). -/
structure Settings where
  /-- Whether a copy qualified; otherwise defaults. -/
  chosen : Bool
  /-- The area the copy was read from or last written to (false A, true B). -/
  area : Bool
  format : Nat
  seq : Nat
  publicPart : Bytes
  sealedPart : Bytes
  /-- Changes held in SRAM until a write (R305). -/
  dirty : Bool
  /-- The migration write has not yet committed (R304). -/
  migrating : Bool
  writeFails : Nat
  /-- While an ENROL_INSTALL waits for its settings write: the PUBLIC section before it. -/
  install : Option Bytes
  /-- That ENROL_INSTALL still awaits its response (R135). -/
  answer : Bool
  /-- The PUBLIC section with the changes a trial or recovery boot holds back (R305). -/
  held : Option Bytes
  deriving DecidableEq, Repr

/-- One SPDM connection as a responder (R256): what has been negotiated. -/
structure SpdmConn where
  version : Option SpdmVersion
  caps : Bool
  algs : Bool
  deriving DecidableEq, Repr

/-- Pilot and the boot ROM. -/
structure Pilot where
  /-- Which program runs. R95, R105, R132, R133 (03_startup.md). Reset: in reset. -/
  phase : PilotPhase
  /-- What the cores ran when they were made to stand. R74 (02_boundary.md), R192 (05_lifecycle_debug.md). Reset: in reset. -/
  stoppedIn : PilotPhase
  /-- Lanes whose channel or port was lost while Pilot was away, for whose berths Pilot has a fault to raise. R34, R133. Reset empty. -/
  lostHomes : List Nat
  /-- Highest startup milestone, as its progress code of R130. R84, R130 (03_startup.md). Reset 0x00. -/
  milestone : Byte
  /-- Halt code of R131 while halted. Reset 0x00. -/
  haltCode : Byte
  /-- The ROM has applied fuse policy and the life-cycle halts. R155 (04_fuses.md), R105. Reset false. -/
  policyDone : Bool
  /-- Entropy start-up tests have passed. R223 (06_keys.md), step 1.6 of R96. Reset false. -/
  entropyOk : Bool
  /-- The flash answers and its mode is set. R94 (02_boundary.md). Reset false. -/
  flashReady : Bool
  /-- The flash runs 8D-8D-8D. R94 (02_boundary.md). Reset false. -/
  flashOctal : Bool
  /-- No flash answered, or SFDP was unreadable. R94, R131 (0x8A). Reset false. -/
  flashFailed : Bool
  /-- The access that last raised an access fault in both cores. R581, R582 (17_register_index.md). Reset none. -/
  accessFault : Option PilotAccess
  /-- Flash device size in 64 KiB sectors, from SFDP. R94, R275. Reset 0 until read. -/
  flashSectors : Nat
  /-- Boot sources still to try, in order. R105, R288. Reset empty. -/
  sources : List BootSource
  /-- boot_sources() has been evaluated in this boot. R105. Reset false. -/
  sourcesChosen : Bool
  /-- The chain being loaded. R105. Reset none. -/
  chain : Option ChainSt
  /-- ROM boot record: failed sources with their codes. R105, R131. Reset empty. -/
  bootRecord : List (BootSource × Byte)
  /-- The source that was booted. R285. Reset none. -/
  booted : Option BootSource
  /-- Pilot SRAM, 2 MiB at 0x1000_0000. R5, R100 (03_startup.md). Reset: DESIGN CHOICE 0, log entry 14. -/
  sram : List Host.Cell
  /-- Bytes of firmware image in SRAM (the locked code region's length). R104 (03_startup.md). Reset 0. -/
  codeLen : Nat
  /-- The code region is read-and-execute only. R104 (03_startup.md). Reset false. -/
  codeLocked : Bool
  /-- The execute gate of Pilot SRAM is open. R103 (03_startup.md). Reset false. -/
  execEnable : Bool
  /-- lock_uds() has run: the key-derivation port is closed. R146, R220. Reset false. -/
  udsLocked : Bool
  /-- Digest of the code region saved for a warm restart. R105, R133 (03_startup.md). Reset empty. -/
  restartDigest : Bytes
  /-- Signed measurements taken so far: index and value. R254 (07_attestation.md). Reset empty. -/
  measurements : Tbl Bytes
  /-- Self-test results collected (the 27 ms point). R109 (03_startup.md). Reset false. -/
  collected : Bool
  /-- Self-test of the Trust Core island. R109 (03_startup.md). Reset pending. -/
  coreTest : TestState
  /-- Self-test of the vault-and-fuse island. R109 (03_startup.md). Reset pending. -/
  vaultTest : TestState
  /-- Microcode images checked, measured and kept in SRAM, by kind number 0-3. R110, R112 (03_startup.md). Reset empty. -/
  ucImages : Tbl Bytes
  /-- Hub management firmware verified and measured. R113 (03_startup.md). Reset false. -/
  mgmtVerified : Bool
  /-- Memory training has been reported done. R97 (03_startup.md). Reset false. -/
  memTrained : Bool
  /-- Trained Tier-1 stacks. R97, R114. Reset 0. -/
  stackMap : BitVec 8
  /-- Trained Tier-2 ports. R97, R114. Reset 0. -/
  ports : BitVec 16
  /-- Links the cores reported trained. R114 (03_startup.md). Reset 0. -/
  links : BitVec 48
  /-- The package is ready for berths (step 5.6 of R96). Reset false. -/
  ready : Bool
  /-- A warm restart ended less than 100 ms ago. R137 (03_startup.md). Reset false. -/
  warmGuard : Bool
  /-- Settings in use. R304 (08_update.md). Reset: defaults. -/
  settings : Settings
  /-- The alias certificate exists. R258 (07_attestation.md). Reset false. -/
  aliasReady : Bool
  /-- The alias certificates issued at this boot, by identity kind. R239, R253 (07_attestation.md). Reset none. -/
  aliases : Tbl Bytes
  /-- Identities enrolled at this start: Tvedgetex, integrator. R251 (07_attestation.md). Reset false, false. -/
  enrolled : Bool × Bool
  /-- SPDM responder on the ring. R256. Reset nothing negotiated. -/
  spdmRing : SpdmConn
  /-- SPDM responder on PF0. R256. Reset nothing negotiated. -/
  spdmPf0 : SpdmConn
  /-- Nonce of TIME_NONCE while valid. R575 (16_faults_journal.md). Reset none. -/
  timeNonce : Option Bytes
  /-- Berth assignment closed until reset by an invasive grant. R198 (05_lifecycle_debug.md). Reset false. -/
  assignClosed : Bool
  /-- MODEL's own: draws made from the DRBG; `Config.drbgByte` applied to it is the free value of each drawn byte. Reset 0 (DESIGN CHOICE, log entry 3). -/
  drawn : Nat
  deriving DecidableEq, Repr

/-! ## Boarding (03) -/

/-- Where a site stands in Boarding (R120, R122). -/
inductive SiteStep where
  | idle | a | b | c | d | e | boarded | failed
  deriving DecidableEq, Repr

/-- One chiplet site: the agent's registers (R127, R128) and Pilot's view of it. -/
structure Site where
  /-- BOARD_SITE_CTL.TX_LEN. R127 (03_startup.md). Reset 0. -/
  txLen : BitVec 14
  /-- BOARD_SITE_STAT.RX_LEN. R128 (03_startup.md). Reset 0. -/
  rxLen : BitVec 14
  /-- BOARD_SITE_STAT.ERR. R128 (03_startup.md). Reset 0x00. -/
  err : Byte
  /-- BOARD_SITE_STAT.RX_READY. R128 (03_startup.md). Reset 0. -/
  rxReady : Bool
  /-- BOARD_SITE_STAT.TX_BUSY. R128 (03_startup.md). Reset 0. -/
  txBusy : Bool
  /-- A SEND is waiting for its reply (the 10 ms limit runs). R128 (03_startup.md). Reset false. -/
  awaiting : Bool
  /-- BOARD_SITE_STAT.SB_UP. R91, R128. Reset 0. -/
  sbUp : Bool
  /-- BOARD_SITE_STAT.PRESENT. R128 (03_startup.md). Reset 0. -/
  present : Bool
  /-- Transmit buffer, 8 KiB. 03_startup.md before R125. Reset: DESIGN CHOICE 0, log entry 14. -/
  txBuf : List Host.Cell
  /-- Receive buffer, 8 KiB. 03_startup.md before R125. Reset: DESIGN CHOICE 0, log entry 14. -/
  rxBuf : List Host.Cell
  /-- Step of R120. Reset idle. -/
  step : SiteStep
  /-- Negotiated SPDM version is 1.3. R121, R256. Reset false. -/
  spdm13 : Bool
  /-- Negotiated Boarding version, 0 before. R121 (03_startup.md). Reset 0. -/
  version : Nat
  /-- Chiplet kind of its leaf certificate. R120 step c. Reset 0. -/
  kindId : DWord
  /-- Vendor named by the leaf's O. R254 (07_attestation.md). Reset empty. -/
  vendor : Bytes
  /-- Digest of the image staged for the site; zero bytes for "no image". R120, R254. Reset empty. -/
  staged : Bytes
  /-- SHA-384 of its GET_MEASUREMENTS record. R254 (07_attestation.md). Reset empty. -/
  record : Bytes
  /-- Area address of a LOAD whose acknowledgement is outstanding. R120, R123. Reset none. -/
  load : Option Nat
  /-- The site must acknowledge a WIPE before it counts as boarded (UNWIPED). R124, R317, R329. Reset false. -/
  unwiped : Bool
  /-- A WIPE has been sent and its acknowledgement is awaited. R316 (09_berths_rinse.md). Reset false. -/
  wiping : Bool
  /-- The site is boarding again under R124. Reset false. -/
  reboard : Bool
  /-- SITE_REBOARD still awaits its response. R135, R538. Reset false. -/
  answer : Bool
  deriving DecidableEq, Repr

/-- An image area of the staging region in use (R117, R118): the index of the part entry staged in it; the digest of what
landed, once Ferry has staged it; and the sites that have still to acknowledge its LOAD. -/
structure Area where
  part : Nat
  digest : Option Bytes
  due : List Nat
  deriving DecidableEq, Repr

/-- The Boarding agent and the management mailbox. -/
structure Boarding where
  /-- BOARD_MGMT_CTL.OUT_GO. R125 (03_startup.md). Reset 0. -/
  outGo : Bool
  /-- BOARD_MGMT_CTL.IN_FULL. R125 (03_startup.md). Reset 0. -/
  inFull : Bool
  /-- BOARD_MGMT_CTL.LOAD_EN. R125 (03_startup.md). Reset 0. -/
  loadEn : Bool
  /-- BOARD_MGMT_CTL.MGMT_RUN. R125 (03_startup.md). Reset 0. -/
  mgmtRun : Bool
  /-- BOARD_MGMT_IN, 64 B. R126 (03_startup.md). Reset 0. -/
  mgmtIn : List Host.Cell
  /-- BOARD_MGMT_OUT, 64 B. R126 (03_startup.md). Reset 0. -/
  mgmtOut : List Host.Cell
  /-- The 12 sites. R127, R128. Reset all fields 0. -/
  sites : Tbl Site
  /-- Next wave to begin, 0-3 (3: all begun). R115 (03_startup.md). Reset 0. -/
  wave : Nat
  /-- Sites whose boarding slot is open: those of the running wave, or the one site boarding alone. R120, R124 (03_startup.md). Reset none. -/
  slot : Option (List Nat)
  /-- The measurement log is closed (step 5.5). R96, R120. Reset false. -/
  logClosed : Bool
  /-- The message in BOARD_MGMT_IN has not been acted on by Pilot. R114 (03_startup.md). Reset false. -/
  mgmtDue : Bool
  /-- The image areas in use, 0-3 in half A and 4-7 in half B of the staging region. R117, R118. Reset none. -/
  areas : Tbl Area
  deriving DecidableEq, Repr

/-! ## Fuses (04) -/

/-- Class of a word (R140). -/
inductive FuseClass where
  | blank | clean | marginal | torn | wiped
  deriving DecidableEq, Repr

/-- Shadow of a word (R141): its class and value, MARG and the nominal check bits (R172). -/
structure FuseShadow where
  cls : FuseClass
  value : BitVec 64
  marg : Bool
  rawCheck : Byte
  deriving DecidableEq, Repr

/-- A tack entry (R175). -/
structure TackEntry where
  en : Bool
  word : BitVec 12
  value : BitVec 64
  deriving DecidableEq, Repr

/-- Who started the running program operation. -/
inductive FuseOwner where
  /-- FUSE_CMD from Pilot. -/
  | command
  /-- The life-cycle block, burning a transition slot (R184). -/
  | transition
  /-- The scrap wipe (R200); a bit that fails after four pulses is skipped. -/
  | wipe
  deriving DecidableEq, Repr

/-- A program operation in progress (R157): the words still to burn with their target codewords, the first being
burned; the bits of that word still to pulse, in the order of R157; the pulses spent on its first bit; and for a SEAL
whose drawn words are burning, its region, whose digest words follow them (R147). -/
structure FuseOp where
  owner : FuseOwner
  sealing : Option Nat
  todo : List (Nat × BitVec 72)
  bits : List Nat
  tries : Nat
  deriving DecidableEq, Repr

/-- The fuse controller and the array. -/
structure Fuse where
  /-- The anti-fuse array: what each word reads at the three references. R138, R140 (04_fuses.md). Not reset; never cleared. State.reset: DESIGN CHOICE every word Blank, log entry 15. -/
  cells : Tbl FuseCell
  /-- Shadow class and value of each word. R141 (04_fuses.md). Reset Blank until sensed. -/
  shadows : Tbl FuseShadow
  /-- The shadows as this reset sensed them, before any operation changed one. R246, R293. Reset Blank until sensed. -/
  sensedShadows : Tbl FuseShadow
  /-- FUSE_STAT.BUSY. R169 (04_fuses.md). Reset 1. -/
  busy : Bool
  /-- FUSE_STAT.DONE. R169. Reset 0. -/
  done : Bool
  /-- FUSE_STAT.SENSED. R169. Reset 0. -/
  sensed : Bool
  /-- FUSE_STAT.VPP_OK. R156, R169. Reset 0. -/
  vppOk : Bool
  /-- FUSE_STAT.COMPAT. R169. Reset 0. -/
  compat : Bool
  /-- FUSE_STAT.LAST_ERR. R169, R173. Reset 0x00. -/
  lastErr : Byte
  /-- FUSE_CMD.WORD. R170. Reset 0x000. -/
  cmdWord : BitVec 12
  /-- FUSE_WDATA_HI:LO. R171 (04_fuses.md). Reset 0. -/
  wdata : BitVec 64
  /-- FUSE_ALARM, bit 0 MARGINAL to bit 5 UNUSABLE. R172 (04_fuses.md). Reset 0. -/
  alarm : BitVec 6
  /-- Alarms raised since reset, cleared or not. R246 (07_attestation.md). Reset 0. -/
  alarmEver : BitVec 6
  /-- FUSE_QUERY.WORD. R172 (04_fuses.md). Reset 0x000. -/
  query : BitVec 12
  /-- FUSE_TACK_WORD/LO/HI_0-15 as staged. R175 (04_fuses.md). Reset 0. -/
  tackStaged : Tbl TackEntry
  /-- Tacks in effect: word and value. R166 (04_fuses.md). Reset none. -/
  tacks : List (Nat × BitVec 64)
  /-- The program operation in progress. R157 (04_fuses.md). Reset none. -/
  op : Option FuseOp
  deriving DecidableEq, Repr

/-! ## Life-cycle and debug (05) -/

/-- A transition, completion or wipe that the life-cycle block runs (R184, R187, R200). -/
structure LcRun where
  /-- Target state code 2-5. -/
  target : BitVec 4
  /-- GO was accepted while a fuse operation ran: the block waits for it (R184). -/
  waiting : Bool
  /-- The fuse wipe of R200 is running. -/
  wiping : Bool
  deriving DecidableEq, Repr

/-- The life-cycle and debug block. -/
structure LifeCycle where
  /-- LC_STATE.STATE. R180, R202 (05_lifecycle_debug.md). Reset 0xF. -/
  state : BitVec 4
  /-- LC_STATE.DONE_THIS_BOOT. R185, R202. Reset 0. -/
  doneThisBoot : Bool
  /-- Target of the transition completed this boot (LC_STATE.TARGET). R202. Reset 0. -/
  doneTarget : BitVec 4
  /-- LC_XFER_CTL.TO. R202. Reset 0x0. -/
  xferTo : BitVec 4
  /-- LC_XFER_STAT.ERR. R202, R203. Reset 0x00. -/
  err : Byte
  /-- LC_XFER_STAT.VAULT_EMPTY. R198, R202. Reset 0. -/
  vaultEmpty : Bool
  /-- LC_XFER_STAT.DONE. R202. Reset 0. -/
  done : Bool
  /-- LC_XFER_STAT.BUSY. R202. Reset 0. -/
  busy : Bool
  /-- LC_XFER_DIGEST_0-11, 48 B. R202. Reset 0. -/
  digest : List Host.Cell
  /-- The debug nonce, 48 B, or none held. R196, R202. Reset none. -/
  nonce : Option Bytes
  /-- LC_DBG_GRANT.RIGHTS. R202. Reset 0. -/
  grant : BitVec 10
  /-- LC_DBG_REQ.RIGHTS. R202. Reset 0. -/
  reqRights : BitVec 10
  /-- LC_MBOX_LEN.LEN. R202. Reset 0. -/
  mboxLen : BitVec 15
  /-- LC_MBOX_CMD.REQ. R202. Reset 0x0. -/
  mboxReq : BitVec 4
  /-- LC_MBOX_STAT.RESULT. R202. Reset 0x00. -/
  mboxResult : Byte
  /-- LC_MBOX_STAT.DONE. R202. Reset 0. -/
  mboxDone : Bool
  /-- LC_MBOX_STAT.BUSY. R202. Reset 0. -/
  mboxBusy : Bool
  /-- LC_MBOX_RESULT.CODE. R202. Reset 0x00. -/
  resultCode : Byte
  /-- LC_MBOX, 16 KiB. R202. Reset 0. -/
  mbox : List Host.Cell
  /-- Transition or wipe in progress. R184, R200. Reset none. -/
  run : Option LcRun
  /-- Invasive rights waiting for the rinses and DESTROY_ALL of R198. Reset none. -/
  grantPending : Option (BitVec 10)
  /-- The transition, wipe or grant in hand is the mailbox request's, which its end answers. R191. Reset false. -/
  mboxDrives : Bool
  deriving DecidableEq, Repr

/-! ## The vault (06) -/

/-- A berth record (R215). The seeds and keys are 32 bytes, PRESS_SEED 48; a zeroed field is `none`; `bad` says that a word of
it is uncorrectable under RS(70,64) (R24, R207). -/
structure BerthRecord where
  opened : Bool
  curGen : Bool
  rotating : Bool
  unusable : Bool
  epoch : Word
  sweepShare : Byte
  t2Seed0 : Option Bytes
  t2Seed1 : Option Bytes
  weight : Option Bytes
  bounce : Option Bytes
  pair : Option Bytes
  pressSeed : Option Bytes
  tag : Bytes
  bad : Bool
  deriving DecidableEq, Repr

/-- A device slot (R209, R212): TYPE, the DEST, EXPIRE, VALID and UNUSABLE fields of ATTR, EPOCH, BERTH, the LEN
bytes of MATERIAL in use, the tag, and whether a word of it is uncorrectable under RS(70,64) (R24, R207). -/
structure DeviceSlot where
  typ : Byte
  dest : BitVec 11
  expire : Bool
  valid : Bool
  unusable : Bool
  epoch : Word
  berth : BitVec 16
  material : Bytes
  tag : Bytes
  bad : Bool
  deriving DecidableEq, Repr

/-- What a fill carries for one destination (the table before R227): EPOCH and FLAGS, the Tier-2 line keys of each
generation whose seed is present, and the keys and seed of the record, or a link slot's key fields. -/
structure KeyFill where
  epoch : Word
  flags : Byte
  gen0 : Option Bytes
  gen1 : Option Bytes
  pair : Option Bytes
  weight : Option Bytes
  bounce : Option Bytes
  press : Option Bytes
  link : Bytes
  deriving DecidableEq, Repr

/-- What a vault-to-lane handshake channel carries (R228): a fill for an entry (a refusal carries none), or an
invalidation naming it. `entry` is a berth number, or 4096 + slot for a link slot. -/
inductive LaneMsg where
  | fill (entry : Nat) (content : Option KeyFill)
  | invalidate (entry : Nat) (epoch : Word)
  | invalidateAll (entries : List (Nat × Word))
  deriving DecidableEq, Repr

/-- What follows when every acknowledgement of the running change has arrived (R228, R229, R231). -/
inductive VaultAfter where
  /-- The command ends: DONE sets. -/
  | command
  /-- ROTATE: DONE sets and the sweep of the berth starts. -/
  | rotate (berth : Nat)
  /-- A sweep's completion: ROT_DONE sets. -/
  | sweepEnd (berth : Nat)
  /-- DESTROY_ALL: DONE and VAULT_EMPTY set. -/
  | destroyAll
  /-- A change that Pilot made in the course of another command: nothing follows. -/
  | quiet
  deriving DecidableEq, Repr

/-- What the vault keeps of a link's agreements beside the slot (R386, R390, R391, R394): SID, JOB_ID, and the
generations of the current job fields and of the maintenance fields. -/
structure LinkCtx where
  /-- The ECDH scalar's 56 bytes of the seed whose public key went out in LINK_HELLO (log entry 31). -/
  ecdh : Bytes
  sid : Bytes
  jobId : Bytes
  gen : Nat
  maintGen : Nat
  deriving DecidableEq, Repr

/-- The vault. -/
structure Vault where
  /-- Berth records 0-4095. R205, R215 (06_keys.md). Reset: none OPEN, lost (R233). -/
  records : Tbl BerthRecord
  /-- Device slots 0-63. R205, R212, R213. Reset: empty (R233). -/
  slots : Tbl DeviceSlot
  /-- TAG_KEY, 32 B; drawn at reset. R206 (06_keys.md). Reset: DESIGN CHOICE empty until drawn, log entry 3. -/
  tagKey : Bytes
  /-- VAULT_STAT.BUSY. R234. Reset 0. -/
  busy : Bool
  /-- VAULT_STAT.DONE. R234. Reset 0. -/
  done : Bool
  /-- VAULT_STAT.ROT_DONE. R234. Reset 0. -/
  rotDone : Bool
  /-- VAULT_STAT.TAG_FAIL. R234. Reset 0. -/
  tagFail : Bool
  /-- VAULT_STAT.DRBG_OK. R224, R234. Reset 0. -/
  drbgOk : Bool
  /-- VAULT_STAT.INV_OPEN. R198, R234. Reset 0. -/
  invOpen : Bool
  /-- VAULT_STAT.ERR. R236. Reset 0x00. -/
  err : Byte
  /-- VAULT_CMD.FIELD, INDEX, TYPE, SPACE as last written. R234. Reset 0. -/
  cmd : VaultCmd
  /-- VAULT_CMD_ATTR. R234. Reset 0. -/
  attr : Word
  /-- VAULT_CMD_LEN. R234. Reset 0. -/
  len : BitVec 13
  /-- VAULT_CMD_AUX. R234. Reset 0. -/
  aux : BitVec 12
  /-- VAULT_QUERY.SPACE. R234. Reset 0. -/
  querySpace : Bool
  /-- VAULT_QUERY.INDEX. R234. Reset 0. -/
  queryIndex : BitVec 12
  /-- VAULT_ROT_BERTH. R234. Reset 0. -/
  rotBerth : BitVec 12
  /-- VAULT_DATA, 4 KiB. R234. Reset 0. -/
  data : List Host.Cell
  /-- Fill requests waiting at each of the 15 ports, in order of arrival: entry, and the islands with a pending miss on it. R35, R227. Reset empty. -/
  ports : Tbl (List (Nat × List Nat))
  /-- Fills and invalidations on their way to each island, in order. R39, R228. Reset empty. -/
  channels : Tbl (List LaneMsg)
  /-- The change being acknowledged: islands still to acknowledge, and what follows. R228. Reset none. -/
  awaiting : Option (List Nat × VaultAfter)
  /-- Changes that wait their turn behind the one being acknowledged. R231. Reset empty. -/
  afterQueue : List (Nat × VaultAfter)
  /-- Islands whose acknowledgement is on its way to the vault. R228. Reset none. -/
  acks : List Nat
  /-- The fill port whose turn is next. R227 (06_keys.md). Reset: DESIGN CHOICE 0, log entry 153. -/
  turn : Nat
  /-- Running sweeps: berth, and the Tier-2 Piers still to report. R229, R231. Reset empty. -/
  sweeps : Tbl (List Nat)
  /-- Generate requests since the last reseed. R223 (06_keys.md). Reset 0. -/
  sinceReseed : Nat
  /-- Agreement contexts by link slot. R386 (11_gangway.md). Reset none. -/
  links : Tbl LinkCtx
  /-- An entropy continuous test has failed and no reseed has passed since. R224. Reset false. -/
  entropyFailed : Bool
  deriving DecidableEq, Repr

/-- The crypto engines (R238). -/
structure Crypto where
  /-- CRYPTO_STAT.BUSY. R238 (06_keys.md). Reset 0. -/
  busy : Bool
  /-- CRYPTO_STAT.DONE. R238. Reset 0. -/
  done : Bool
  /-- CRYPTO_STAT.PASS. R238. Reset 0. -/
  pass : Bool
  /-- CRYPTO_STAT.ERR. R238. Reset 0. -/
  err : Byte
  /-- CRYPTO_CMD.KEYSEL. R238. Reset 0. -/
  keysel : BitVec 6
  /-- CRYPTO_LEN. R238. Reset 0. -/
  len : BitVec 14
  /-- CRYPTO_IN, 8 KiB. R238. Reset 0. -/
  inBuf : List Host.Cell
  /-- CRYPTO_OUT, 8 KiB. R238. Reset 0. -/
  outBuf : List Host.Cell
  /-- The running operation's result: error, pass and output, stored at its end. R238. Reset none. -/
  result : Option (Byte × Bool × Bytes)
  deriving DecidableEq, Repr

/-! ## Prirdo (07) -/

/-- An open Prirdo session, in exchange slot 8 + its number (R266, R272). -/
structure Session where
  berth : Nat
  session : Word
  version : Nat
  ksKeys : Bytes
  transcript : Bytes
  deriving DecidableEq, Repr

/-! ## Update (08) -/

/-- The update states (R292). -/
inductive UpdateState where
  | idle | erasing | staging | validating | staged | trial | copying | burning | recovery
  deriving DecidableEq, Repr

/-- Field update. -/
structure Update where
  /-- STATE of UPDATE_STATUS. R292 (08_update.md). Reset idle until a source is booted. -/
  state : UpdateState
  /-- Status of the last command. R291, R293. Reset 0x00. -/
  lastStatus : Byte
  /-- Bytes written so far. R291. Reset 0. -/
  written : Nat
  /-- End of the previous UPDATE_WRITE (the write mark). R295. Reset 0. -/
  mark : Nat
  /-- The Manifest accepted by UPDATE_BEGIN, until programmed. R293. Reset empty. -/
  manifest : Bytes
  /-- UPDATE_CONFIRM has been given. R297. Reset false. -/
  confirmed : Bool
  /-- Failed attempts of the copy of R298. Reset 0. -/
  copyTries : Nat
  /-- The start found CONFIRMED set and COPIED clear, and the copy has not been tried since. R299. Reset false. -/
  resumed : Bool
  deriving DecidableEq, Repr

/-! ## Journal, alarms and counters (16) -/

/-- An entry of an island's outbound queue (R565). -/
structure AlarmEntry where
  srcKind : Byte
  srcInst : BitVec 16
  kind : BitVec 16
  count : Nat
  arg0 : Word
  arg1 : Word
  data : Bytes
  deriving DecidableEq, Repr

/-- The journal, the counters and the PF0 fault window. -/
structure Journal where
  /-- Outbound queues of the islands, by island number; 64 entries each. R565 (16_faults_journal.md). Reset empty. -/
  queues : Tbl (List AlarmEntry)
  /-- The island whose queue the drain is at. R565. Reset 0. -/
  drain : Nat
  /-- BOOT of the present cold boot. R560. Reset 0 before the journal scan. -/
  boot : Nat
  /-- INDEX of the next record. R560. Reset 0. -/
  index : Nat
  /-- The scan of the journal has ended. R572. Reset false. -/
  scanned : Bool
  /-- Reports taken before the journal scan has ended, in order; they take their event numbers then. R572 (16_faults_journal.md). Reset empty. -/
  early : List AlarmEntry
  /-- Records not yet committed, oldest first, 64 B each; 256 at most. R570, R571. Reset empty. -/
  buffer : List Bytes
  /-- Records dropped since the last DROPPED record, and the first INDEX lost. R571. Reset none. -/
  dropped : Option (Nat × Nat)
  /-- The sector being written, counted from 0x0370_0000. R569. Reset 0. -/
  sector : Nat
  /-- The next slot of that sector. R569. Reset 0. -/
  slot : Nat
  /-- Failed tries of the present record. R571. Reset 0. -/
  fails : Nat
  /-- Sectors tried in a row without success. R571, R572. Reset 0. -/
  sectorFails : Nat
  /-- FLT_STAT.JOURNAL_DOWN. R568, R571. Reset 0. -/
  down : Bool
  /-- The six counters: boots, hours, Darns, mismatches, fuse events, erases. R573. Reset 0 before the scan. -/
  counters : Tbl Nat
  /-- A counter has changed since the last COUNTERS record. R574. Reset false. -/
  countersDirty : Bool
  /-- The counters the last committed COUNTERS record of this boot holds. R574. Reset empty. -/
  settled : Tbl Nat
  /-- Pending anchor burns, bit i for counter i. R574, R577. Reset 0. -/
  anchors : BitVec 6
  /-- FLT_PROD. R568 (16_faults_journal.md). Reset 0. -/
  fltProd : Word
  /-- FLT_CONS. R568. Reset 0. -/
  fltCons : Word
  /-- FLT_STAT.OVERRUN. R568. Reset 0. -/
  overrun : Bool
  /-- FLT_REC_0-255, 64 B each. R568. Reset 0. -/
  fltRecs : Tbl Bytes
  /-- JRN_POST, 64 B. R578. Reset 0. -/
  post : List Host.Cell
  deriving DecidableEq, Repr

/-! ## Berths (09) -/

/-- Berth states (R307). -/
inductive BerthState where
  | free | assigned | running | suspended | rinsing
  deriving DecidableEq, Repr

/-- Rinse levels (R309, R247). -/
inductive RinseLevel where
  | startupClean | full | memoryOnly
  deriving DecidableEq, Repr

/-- A window (R310, R319): its stack or port, its right, base and size in MiB. -/
structure Window where
  unit : Nat
  readOnly : Bool
  base : Nat
  size : Nat
  deriving DecidableEq, Repr

/-- A BERTH_COMMIT in progress (R321): which of its steps is running. -/
inductive CommitStep where
  | wiping | zeroing | broadcast
  deriving DecidableEq, Repr

/-- One berth. -/
structure Berth where
  /-- State. R307 (09_berths_rinse.md). Reset FREE. -/
  state : BerthState
  /-- Rinse level. R309 (09_berths_rinse.md). Reset startupClean. -/
  level : RinseLevel
  /-- Step 0-6 of R323 while RINSING. R333 (09_berths_rinse.md). Reset 0. -/
  step : Nat
  /-- The hardware sequencer runs the rinse. R327, R333. Reset false. -/
  sequencer : Bool
  /-- Firmware has recorded the end of step 5 (R327). Reset false. -/
  recorded5 : Bool
  /-- Sites that have acknowledged a WIPE in this rinse or commit. R316, R323, R328. Reset none. -/
  wiped : BitVec 12
  /-- Sites that the berth's memory-only rinse released and that are not yet cleared. R329. Reset none. -/
  owed : BitVec 12
  /-- Committed Tier-1 windows, slots 0-15. R310, R319. Reset none. -/
  t1 : Tbl Window
  /-- Committed Tier-2 windows, slots 0-15. R310, R319. Reset none. -/
  t2 : Tbl Window
  /-- Staged Tier-1 windows. R319. Reset none. -/
  t1Staged : Tbl Window
  /-- Staged Tier-2 windows. R319. Reset none. -/
  t2Staged : Tbl Window
  /-- Committed sites. R315, R319. Reset none. -/
  sites : BitVec 12
  /-- Staged sites. R319. Reset none. -/
  sitesStaged : BitVec 12
  /-- First Ferry channel of the run. R318. Reset 0. -/
  ferryBase : Nat
  /-- Channels of the run, 0-8. R318. Reset 0. -/
  ferryCount : Nat
  /-- The commit in progress. R321. Reset none. -/
  commit : Option CommitStep
  /-- A rinse waits for the broadcast of the berth's tables, which has been issued, to complete. R322 (09_berths_rinse.md). Reset
  false. -/
  gateDue : Bool
  /-- The rinse in progress was answered 0x00 and leaves the level memoryOnly. R329 (09_berths_rinse.md). Reset false. -/
  levelKept : Bool
  /-- BERTH_STATUS.PORT_FAULT. R333. Reset 0. -/
  portFault : Bool
  /-- BERTH_STATUS.STACK_FAULT. R333. Reset 0x00. -/
  stackFault : BitVec 8
  /-- BERTH_STATUS.INTEGRITY. R333. Reset 0. -/
  integrity : Bool
  /-- Key-service binding; empty while unbound. R269 (07_attestation.md). Reset unbound. -/
  binding : Bytes
  /-- JOB_ID released with the berth's PAIR key. R268 (07_attestation.md), R474. Reset empty. -/
  pairJob : Bytes
  /-- The BERTH_COMMIT that runs has not been answered: it had neither a WIPE nor zeroing to do. R321 (09_berths_rinse.md). Reset false. -/
  replyDue : Bool
  /-- Tier-1 ranges (stack, base, size in MiB) that a commit or a rinse has still to hand to the Piers for zeroing. R321, R323. Reset none. -/
  toZero : List (Nat × Nat × Nat)
  /-- Those the Piers are zeroing. R321, R323. Reset none. -/
  zeroing : List (Nat × Nat × Nat)
  deriving DecidableEq, Repr

/-! ## Piers (10) -/

/-- A window-table entry (R369, R342). -/
structure WinEntry where
  base : Nat
  size : Nat
  board : Bool
  site : Nat
  readOnly : Bool
  berth : Nat
  deriving DecidableEq, Repr

/-- What a Pier does with a line's read when it returns. -/
inductive ReadUse where
  /-- The data goes to the fabric. -/
  | toFabric
  /-- A partial write merges into it (R351). -/
  | merge
  /-- A Tier-2 full write that waits for its metadata line (R352). -/
  | metaOnly
  /-- The word of a line that failed its MAC waits for its metadata line (R352, R355). -/
  | metaMark (word : Bytes)
  deriving DecidableEq, Repr

/-- A line accepted and waiting for its read (R343, R362): its berth unless it is an MB3-class or Boarding line, and
whether the metadata line is read with it. -/
structure OutRead where
  line : FabricLine
  berth : Option Nat
  use : ReadUse
  /-- Its metadata line is read with it (R352). -/
  withMeta : Bool
  /-- The key-cache entry it was admitted under. -/
  key : Option KeyFill
  /-- COMMITs applied since it was admitted (R343). -/
  old : Nat
  /-- The metadata word that Check found in the cache (R338, R352). -/
  word : Option Bytes
  /-- Its metadata line has changed in the cache since it was issued, so the one it returns with is not the newest (R352). -/
  stale : Bool
  /-- A write to its line has been accepted since (R350, R355). -/
  rewritten : Bool
  deriving DecidableEq, Repr

/-- A line in the miss queue (R346), and the berth the Pier has asked the vault for on its account; none while it only waits
behind another line of its initiator. -/
structure MissLine where
  line : FabricLine
  asked : Option Nat
  deriving DecidableEq, Repr

/-- A capture entry (R358, R438). -/
structure CapEntry where
  result : Bool
  berth : Nat
  first : Nat
  count : Nat
  deriving DecidableEq, Repr

/-- A range of the Pier's range table (R438), with the declaration the sampler loaded it for, whether it serves the
operands or the result of its tile, and whether RANGE_DONE has been reported. -/
structure CapRange where
  first : Nat
  run : Nat
  stride : Nat
  runs : Nat
  tag : Nat
  slice : Nat
  area : Nat
  cov : Nat
  vf : Nat
  declId : DWord
  result : Bool
  done : Bool
  deriving DecidableEq, Repr

/-- A captured line on its way to the Basket (R358), with the slice and line of every area it goes to (R438). -/
structure CapLine where
  places : List (Nat × Nat)
  data : Bytes
  deriving DecidableEq, Repr

/-- A Pair cursor (R360): its region and point, the next line offset, the partial sum, and whether the point has closed. -/
structure Cursor where
  berth : Nat
  point : Word
  region : Word
  base : Nat
  size : Nat
  pos : Nat
  sum : BitVec 128
  closing : Bool
  done : Bool
  deriving DecidableEq, Repr

/-- Zeroing or pre-fill in progress (R324, R356): the range and the next step. -/
structure ZeroRun where
  base : Nat
  size : Nat
  pos : Nat
  deriving DecidableEq, Repr

/-- One Pier: its registers (R369), tables and stores. A lane's spare has its own. -/
structure PierSt where
  /-- PIER_CTL.REFUSE_ALARM. R369 (10_pier.md). Reset 1. -/
  refuseAlarm : Bool
  /-- PIER_CTL.PARK. R369. Reset 0. -/
  park : Bool
  /-- PIER_ERR[6:0]: REFUSED, RS_CORR, RS_UNCORR, MAC_FAIL, FILL_REFUSED, CAP_LOST, FROZEN from bit 0 up. R369. Reset 0. -/
  err : BitVec 7
  /-- PIER_ERR.LAST_BERTH. R369. Reset 0. -/
  lastBerth : Nat
  /-- PIER_ERR.LAST_CAUSE. R370. Reset 0x00. -/
  lastCause : Byte
  /-- Window table in effect; a Tier-2 Pier's entry of port p is number 256 p + index. R340, R343. Reset empty. -/
  win : Tbl WinEntry
  /-- Window table as staged. R343, R369. Reset empty. -/
  winStaged : Tbl WinEntry
  /-- Binding table in effect: initiator code to berth. R340. Reset empty. -/
  bind : Tbl Nat
  /-- Binding table as staged. R343, R369. Reset empty. -/
  bindStaged : Tbl Nat
  /-- PIER_BIND.BERTH as staged in entries whose VALID is staged 0. R9, R369. Reset 0. -/
  bindOff : Tbl Nat
  /-- PIER_COMMIT_STAT.LAST_SEQ, and whether one has been applied. R344, R369. Reset 0, none. -/
  lastSeq : BitVec 16
  seqSeen : Bool
  /-- COMMITs applied whose old lines have not all completed, oldest first. R343. Reset none. -/
  drain : List (BitVec 16)
  /-- PIER_WIN_IDX.PORT. R369. Reset 0. -/
  winPort : BitVec 4
  /-- PIER_WIN_IDX.INDEX. R369. Reset 0. -/
  winIndex : BitVec 10
  /-- PIER_BIND_IDX.INIT. R369. Reset 0. -/
  bindIndex : BitVec 10
  /-- PIER_ZERO_BASE.BASE_MIB. R369. Reset 0. -/
  zeroBase : BitVec 17
  /-- PIER_ZERO_SIZE.SIZE_MIB. R369. Reset 0. -/
  zeroSize : BitVec 17
  /-- The zeroing (Tier 1) or pre-fill (Tier 2) that runs; PIER_STAT.ZERO_ACTIVE. R324, R356. Reset none. -/
  zero : Option ZeroRun
  /-- Next line of the rotation sweep, with its berth; PIER_SWEEP. R230, R357, R369. Reset none. -/
  sweep : Option (Nat × Nat)
  /-- PIER_SWEEP.DONE and its BERTH. R369. Reset 0. -/
  sweepDone : Bool
  /-- The sweep has ended and its report to the vault is due. R231. Reset false. -/
  sweepDue : Bool
  sweepBerth : Nat
  /-- PIER_CNT_0-6: REFUSE, RS_CORR, RS_UNCORR, MAC_FAIL, CAP_LINES, CAP_STALL, MISS. R369. Reset 0. -/
  counts : Tbl Nat
  /-- Key cache, least recently used last: berth and its fill, or none for a negative entry; 64 at most. R345-R348. Reset empty. -/
  keys : List (Nat × Option KeyFill)
  /-- Miss queue, 32 lines. R346. Reset empty. -/
  missQ : List MissLine
  /-- Outstanding reads, oldest first. R343, R362. Reset empty. -/
  outs : List OutRead
  /-- Lines that wait for a read-modify-write, a fill or the sweep on their line. R351, R356, R357. Reset empty. -/
  held : List OutRead
  /-- Capture table, 32 entries. R358, R438. Reset empty. -/
  capture : Tbl CapEntry
  /-- Range table, 1,024 ranges. R438. Reset empty. -/
  ranges : Tbl CapRange
  /-- Coverage memory, 262,144 bits: the bits that are set. R358, R438. Reset empty. -/
  coverage : List Nat
  /-- Capture buffer, 64 lines. R358. Reset empty. -/
  capBuf : List CapLine
  /-- Pair cursors 0-3. R360. Reset none. -/
  cursors : Tbl Cursor
  /-- Scrub queue, 16 lines: line number and corrected data. R350. Reset empty. -/
  scrub : List (Nat × Bytes)
  /-- Metadata cache, least recently used last: metadata line, its 64 bytes, dirty; 512 at most. R352. Reset empty. -/
  metaCache : List (Nat × Bytes × Bool)
  /-- Uninitialised bitmap of a Tier-2 Pier, kept as the MiB whose bit is clear. R356. Reset none clear. -/
  ready : List Nat
  /-- The fill in progress: its MiB and next line. R356. Reset none. -/
  fill : Option (Nat × Nat)
  deriving DecidableEq, Repr

/-- A tile's lines as a capture range names them: the ring, the declaration, the panel or tile number, and whether the
range is of the result. -/
structure TileRef where
  vf : Nat
  declId : DWord
  tag : Nat
  result : Bool
  deriving DecidableEq, Repr

/-- What Piers have reported to the Press sampler and the Pair controller beside RANGE_DONE. -/
structure Reports where
  /-- A write to a covered result line (R441). Reset none. -/
  rewritten : List TileRef
  /-- A captured range that has lost a line (R359, R364). Reset none. -/
  lost : List TileRef
  /-- A line of a region under an open point written, poisoned, or its cursor lost: berth, point, status of R481. R478. Reset none. -/
  pairBad : List (Nat × Word × Byte)
  deriving DecidableEq, Repr

/-- A group block (R371) and its spot tests (R366). -/
structure PierGroup where
  /-- PGRP_ACK. R371 (10_pier.md). Reset 0. -/
  ack : BitVec 18
  /-- SEQ of the block's last COMMIT, which alone sets PGRP_ACK bits. R371. Reset 0. -/
  ackSeq : BitVec 16
  /-- A COMMIT through this block awaits acknowledgement from these Piers. R366. Reset none. -/
  waiting : List Nat
  /-- PGRP_SPOT.HOLD. R371. Reset 0. -/
  hold : Bool
  /-- PGRP_SPOT.PERIOD. R371. Reset 0x0A. -/
  period : Byte
  /-- PGRP_DARN_CNT. R371. Reset 0. -/
  darns : Nat
  /-- Spare and lane of the last Darn, for PGRP_DARN where two spares cover. R371. Reset 0xFF. -/
  darnSpare : Byte
  darnLane : Byte
  /-- No spare is left (PGRP_DARN.STATE 0b011). R371. Reset false. -/
  noSpare : Bool
  /-- Spot test in progress: the instance under test, and the spare that covers it unless it is tested in place. R366. Reset none. -/
  test : Option (Nat × Option Nat)
  /-- Next place in the order of tests. R366. Reset 0. -/
  next : Nat
  deriving DecidableEq, Repr

/-- A command of Pilot on its way to a lane or array (R28, R42). -/
inductive LaneCmd where
  /-- COMMIT of the staged tables, with the Pier-group, Gangway or Press block it was issued through. -/
  | commit (seq : BitVec 16)
  deriving DecidableEq, Repr

/-- A broadcast being acknowledged (R28, R134): the islands still to acknowledge. -/
structure Broadcast where
  kind : Option BroadcastKind
  seq : BitVec 16
  waiting : List Nat
  deriving DecidableEq, Repr

/-- Handshakes between Pilot and the lanes. -/
structure Lanes where
  /-- Commands waiting at each island, oldest first. R39, R42. Reset empty. -/
  cmds : Tbl (List LaneCmd)
  /-- Acknowledgements on their way to Pilot. R26, R28. Reset none. -/
  acks : List (Nat × BitVec 16)
  /-- Broadcasts not yet fully acknowledged, oldest first. R28. Reset none. -/
  bcasts : List Broadcast
  /-- Next broadcast sequence number. R134. Reset: DESIGN CHOICE 1, log entry 21. -/
  seq : BitVec 16
  deriving DecidableEq, Repr



/-! ## The host guard (15) -/

/-- Mailbox states (R537). -/
inductive MbxState where
  | idle | receiving | serving | responding
  deriving DecidableEq, Repr

/-- One function of the host endpoint: the configuration bits MB3 acts on, its MSI-X vectors, mailbox and counters. -/
structure HostFn where
  /-- Bus Master Enable. R539 (15_host.md). Reset: PRESUMED 0 (PCIe), log entry 40. -/
  bme : Bool
  /-- Memory Space Enable. R528 (15_host.md). Reset: PRESUMED 0 (PCIe), log entry 40. -/
  mse : Bool
  /-- MSI-X Enable. R526 (15_host.md). Reset: PRESUMED 0 (PCIe), log entry 40. -/
  msixEn : Bool
  /-- Mask bits of the MSI-X table. R522, R526 (15_host.md). Reset: PRESUMED 1 each (PCIe), log entry 40. -/
  msixMask : BitVec 10
  /-- Message addresses and data of the MSI-X table, by offset in the table. R522, R526 (15_host.md). Reset: PRESUMED 0 (PCIe), log entry 40. -/
  msixTab : List Host.Cell
  /-- MSI-X pending bits. R526 (15_host.md). Reset: PRESUMED 0 (PCIe), log entry 40. -/
  msixPend : BitVec 10
  /-- ATS Enable of a VF. R547 (15_host.md). Reset: PRESUMED 0 (PCIe), log entry 40. -/
  ats : Bool
  /-- PRI Enable of a VF. R549, R554 (15_host.md). Reset: PRESUMED 0 (PCIe), log entry 40. -/
  pri : Bool
  /-- Enable Relaxed Ordering. R543 (15_host.md). Reset: PRESUMED 1 (PCIe), log entry 40. -/
  ro : Bool
  /-- Completion Timeout Value. R544 (15_host.md). Reset: PRESUMED 0b0000 (PCIe), log entry 40. -/
  cto : BitVec 4
  /-- Outstanding Page Request Allocation. R552 (15_host.md). Reset: PRESUMED 0 (PCIe), log entry 40. -/
  prAlloc : Nat
  /-- MSI-X messages that wait for a translation. R547, R548 (15_host.md). Reset 0. -/
  msixWait : BitVec 10
  /-- MODEL's own: the cause of the last MSI-X message that failed for want of a translation. R552. Reset 0x00 (DESIGN CHOICE, log entry 171). -/
  msixCause : Byte
  /-- Smallest Translation Unit, in PF1's ATS capability. R547 (15_host.md). Reset: PRESUMED 0 (PCIe), log entry 40. -/
  stu : BitVec 5
  /-- Tag bits the host has enabled for the function's requests. R545 (15_host.md). Reset 14 (DESIGN CHOICE, log entry 172). -/
  tagBits : Nat
  /-- A Response Failure blocks page requests. R554 (15_host.md). Reset false. -/
  prgFailed : Bool
  /-- MBX_STAT.STATE. R537 (15_host.md). Reset 0b000 IDLE. -/
  mbx : MbxState
  /-- MBX_TXLEN.LEN. R537 (15_host.md). Reset 0. -/
  txLen : BitVec 9
  /-- MBX_TXLEN.LAST. R537. Reset 0. -/
  txLast : Bool
  /-- MBX_STAT.TX_BUSY: the fragment of a request is being taken. R531, R537. Reset 0. -/
  txBusy : Bool
  /-- MBX_STAT.RX_LEN. R537. Reset 0. -/
  rxLen : BitVec 9
  /-- MBX_STAT.RX_LAST. R537. Reset 0. -/
  rxLast : Bool
  /-- MBX_STAT.RX_READY. R537. Reset 0. -/
  rxReady : Bool
  /-- MBX_STAT.EXPIRED. R537. Reset 0. -/
  expired : Bool
  /-- MBX_STAT.PROTO. R537. Reset 0. -/
  proto : Bool
  /-- MBX_BUF, 256 B. R537. Reset 0. -/
  buf : List Host.Cell
  /-- The message slot the function owns. R532 (15_host.md). Reset none. -/
  slot : Option Nat
  /-- Bytes of the request taken so far. R531. Reset 0. -/
  got : Nat
  /-- Bytes of the response shown so far, the present fragment among them. R531. Reset 0. -/
  sent : Nat
  /-- HG_CNT_0-4. R524 (15_host.md). Reset 0. -/
  counts : Tbl Nat
  deriving DecidableEq, Repr

/-- A slot of the message store (R532, R557): the function whose mailbox waits for it, by number, and its bytes. -/
structure HostSlot where
  owner : Option Nat
  msg : List Host.Cell
  deriving DecidableEq, Repr

/-- An event for Pilot (R557): KIND 1-7, SLOT and FUNC. -/
structure HostEvent where
  kind : Nat
  slot : Nat
  func : Nat
  deriving DecidableEq, Repr

/-- What a host read of MB3 is for. -/
inductive HostUse where
  /-- The descriptor at CUR of a chained channel. -/
  | fetch (ch : Nat)
  /-- Data of the descriptor an engine runs. -/
  | data (eng : Nat)
  /-- A sealed block's record. -/
  | rcd (eng : Nat)
  /-- A translation request for a 2 MiB range (R548). -/
  | trans (range : Nat) (write : Bool)
  deriving DecidableEq, Repr

/-- A non-posted request of MB3 (R544-R546): function number and tag; its use, channel, address and length; the bytes
received; tries so far; the cache entry used. -/
structure HostReq where
  fn : Nat
  tag : Nat
  use : HostUse
  ch : Nat
  addr : Nat
  len : Nat
  got : Bytes
  tries : Nat
  used : Option (Nat × Nat)
  /-- An invalidation has overtaken this translation request (R551). -/
  stale : Bool
  abandoned : Bool
  timedOut : Bool
  deriving DecidableEq, Repr

/-- A translation cache entry (R548): size 2 MiB or 1 GiB. -/
structure AtcEntry where
  fn : Nat
  big : Bool
  base : Nat
  target : Nat
  canRead : Bool
  canWrite : Bool
  deriving DecidableEq, Repr

/-- A page request group (R552-R554); `dead` after its 100 ms. -/
structure PageReq where
  fn : Nat
  index : Nat
  range : Nat
  write : Bool
  dead : Bool
  deriving DecidableEq, Repr

/-- An Invalidate Request being served (R551): the tags whose completion it waits for. -/
structure Inval where
  fn : Nat
  itag : Nat
  waiting : List Nat
  deriving DecidableEq, Repr

/-- What the host guard holds for all functions. -/
structure HostGuard where
  /-- PF1's VF Enable; HG_P_STAT.VF_ENABLE. R521, R557 (15_host.md). Reset 0. -/
  vfEnable : Bool
  /-- NumVFs; HG_P_STAT.NUM_VFS. R521, R557 (15_host.md). Reset 0. -/
  numVfs : Nat
  /-- HG_P_STAT.LINK_UP. R557 (15_host.md). Reset 0. -/
  linkUp : Bool
  /-- The event queue, HG_P_EVENT at its head. R557 (15_host.md). Reset empty. -/
  events : List HostEvent
  /-- The 64 message slots. R532, R557 (15_host.md). Reset free, 0. -/
  slots : Tbl HostSlot
  /-- HG_P_RESP.SLOT. R557 (15_host.md). Reset 0. -/
  respSlot : BitVec 6
  /-- Outstanding requests. R544 (15_host.md). Reset none. -/
  reqs : List HostReq
  /-- Tags in quarantine. R545 (15_host.md). Reset none. -/
  quarantine : List HostReq
  /-- Failed requests that wait to be issued again. R511 (14_ferry.md). Reset none. -/
  failed : List HostReq
  /-- Per function, tags not yet issued at all, from this number up. R545 (15_host.md). Reset 0. -/
  fresh : Tbl Nat
  /-- Per function, released tags in order. R545 (15_host.md). Reset none. -/
  freed : Tbl (List Nat)
  /-- The translation cache, most recently used first; 4,096 entries; HG_P_ATC counts them. R548, R557. Reset empty. -/
  atc : List AtcEntry
  /-- Page requests whose index is in use. R552-R554 (15_host.md). Reset none. -/
  pages : List PageReq
  /-- Invalidations not yet completed, oldest first. R551 (15_host.md). Reset none. -/
  invals : List Inval
  /-- MODEL's own: looks taken at TX_BUSY, for the free value of log entry 187. R531. Reset 0 (DESIGN CHOICE, log entry 187). -/
  looks : Nat
  deriving DecidableEq, Repr

/-! ## Ferry (14) -/

/-- States of a chained channel (R499). -/
inductive ChState where
  | idle | fetching | waiting | running | halted | silenced
  deriving DecidableEq, Repr

/-- Why a channel reads the descriptor at CUR (R508, R509, R513). -/
inductive FetchWhy where
  /-- To run it. -/
  | run
  /-- To look whether its LAST is now clear. -/
  | reread
  deriving DecidableEq, Repr

/-- The hold check's answer for an export (R466, R467). -/
inductive HoldAnswer where
  | go | wait | refuse
  deriving DecidableEq, Repr

/-- A chained channel (R508, R517). -/
structure FerryCh where
  /-- FERRY_CH_STAT.STATE. R499, R517 (14_ferry.md). Reset IDLE. -/
  state : ChState
  /-- HEAD (FERRY_CH_HEAD). R508, R517. Reset 0. -/
  head : DWord
  /-- CUR (FERRY_CH_CUR). R508, R517. Reset 0. -/
  cur : DWord
  /-- DBCOUNT. R508, R517. Reset 0. -/
  dbcount : Word
  /-- CAP. R508, R517. Reset 0. -/
  cap : Word
  /-- A chain has been started since a channel reset or a HEAD write. R508. Reset false. -/
  chain : Bool
  /-- FERRY_CH_CTL.RETRY. R517. Reset 0b011. -/
  retry : BitVec 3
  /-- The RETRY that the descriptor in hand runs under, taken when its read began. R8, R511. Reset 0b011. -/
  retryNow : BitVec 3
  /-- FERRY_CH_STAT.CAUSE. R514, R517. Reset 0x00. -/
  cause : Byte
  /-- FERRY_CH_STAT.IRQ_PEND. R517. Reset 0. -/
  irqPend : Bool
  /-- FERRY_CH_DONE. R513, R517. Reset 0. -/
  done : Nat
  /-- FERRY_CH_SHARE. R501, R517, R518. Reset 0xFF. -/
  share : Byte
  /-- The share the descriptor in hand runs under. R501. Reset 0xFF. -/
  rate : Byte
  /-- Credit in quarter bytes, from -16 MiB to 1 MiB. R501. Reset 0 (DESIGN CHOICE, log entry 136). -/
  credit : Int
  /-- FERRY_CH_DESC_CNT. R517. Reset 0. -/
  descCnt : Word
  /-- IN_MARK. R504. Reset 0. -/
  inMark : Nat
  /-- OUT_NEXT. R504. Reset 1. -/
  outNext : Nat
  /-- The descriptor in hand. R493. Reset none (empty). -/
  desc : Bytes
  /-- Why the present fetch is made. R508, R509. Reset run. -/
  why : FetchWhy
  /-- The descriptor has been read and its check waits for the vault's fill. R502. Reset false. -/
  needKey : Bool
  /-- SEQ of block 0 of the sealed descriptor in hand, once it has verified. R504. Reset none. -/
  seq0 : Option Nat
  /-- STOP has been written while RUNNING. R513. Reset false. -/
  stop : Bool
  /-- The hold check's last answer for the descriptor in hand. R466. Reset none. -/
  hold : Option HoldAnswer
  /-- Place in the order of waiting; 0 goes ahead of all. R500, R562. Reset 0. -/
  place : Nat
  /-- The 2 MiB range whose translation a fetch waits for. R548. Reset none. -/
  stuck : Option Nat
  /-- The bytes of a LINK_IN written since the last multiple of 64 in pattern order; RESUME writes them again. R513. Reset empty. -/
  tail : Bytes
  /-- RESUME or an engine's fault has the LINK_IN in hand begin again at DONE rounded down. R513, R562. Reset false. -/
  again : Bool
  /-- An engine's fault has the descriptor in hand begin again, so that a block already verified may verify once more. R562.
  Reset false. -/
  redo : Bool
  deriving DecidableEq, Repr

/-- An entry of FERRY_CH_MAP (R518). -/
structure ChMap where
  valid : Bool
  rel : BitVec 4
  berth : BitVec 12
  deriving DecidableEq, Repr

/-- A privileged channel (R510, R518). -/
structure FerryPch where
  /-- FERRY_PCH_CTL.RETRY. R518 (14_ferry.md). Reset 0b011. -/
  retry : BitVec 3
  /-- The RETRY that the running descriptor was started under. R8, R511. Reset 0b011. -/
  retryNow : BitVec 3
  /-- An engine's fault has put the running descriptor ahead of all others. R562. Reset false. -/
  restart : Bool
  /-- FERRY_PCH_CTL.DIGEST_EN. R518. Reset 0. -/
  digestEn : Bool
  /-- FERRY_PCH_STAT.CAUSE. R518. Reset 0x00. -/
  cause : Byte
  /-- FERRY_PCH_STAT.DONE. R518. Reset 0. -/
  done : Bool
  /-- FERRY_PCH_STAT.HALTED. R518. Reset 0. -/
  halted : Bool
  /-- FERRY_PCH_STAT.BUSY. R518. Reset 0. -/
  busy : Bool
  /-- FERRY_PCH_DONE. R518. Reset 0. -/
  bytes : Nat
  /-- FERRY_PCH_DESC_0-13, 56 B. R518. Reset 0. -/
  desc : List Host.Cell
  /-- FERRY_PCH_DIGEST_0-11. R518. Reset 0. -/
  digest : List Host.Cell
  /-- Bytes written so far, for the digest. R510. Reset empty. -/
  written : Bytes
  deriving DecidableEq, Repr

/-- What a running engine waits for. -/
inductive EngWait where
  /-- A fabric read of a line, of which the descriptor wants these bytes. -/
  | fabricRead (off len : Nat)
  /-- The response to a fabric write of this many bytes. -/
  | fabricWrite (len : Nat)
  /-- The host request with this tag. -/
  | host (tag : Nat)
  /-- A translation of a 2 MiB range, or a page request for it, or room for one. -/
  | page (range : Nat)
  /-- A failed request to be issued again. -/
  | again
  /-- A burst of the flash controller's FIFO. -/
  | flash
  /-- The next inbound bundle (LINK_IN). -/
  | bundle
  /-- The vault's fill of the berth record, for the key of a sealed block. -/
  | key
  /-- Nothing: the last write has been accepted. -/
  | finished
  deriving DecidableEq, Repr

/-- The descriptor an engine runs: channel; bytes written; source bytes held; ciphertext of the present block; its
record; what it waits for; the bundle its bytes come from; and how many of them are written a second time. -/
structure EngRun where
  ch : Nat
  w : Nat
  buf : Bytes
  ct : Bytes
  rcd : Option Bytes
  tries : Nat
  wait : EngWait
  bundle : Nat
  redo : Nat
  deriving DecidableEq, Repr

/-- Ferry. -/
structure Ferry where
  /-- Chained channels 8-511. R499, R517 (14_ferry.md). Reset as a channel reset leaves them. -/
  chs : Tbl FerryCh
  /-- FERRY_CH_MAP in effect. R492, R518 (14_ferry.md). Reset not VALID. -/
  maps : Tbl ChMap
  /-- FERRY_CH_MAP as staged. R518 (14_ferry.md). Reset 0. -/
  mapsStaged : Tbl ChMap
  /-- Privileged channels 0-7. R510, R518 (14_ferry.md). Reset idle. -/
  pchs : Tbl FerryPch
  /-- The descriptors the eight engines run; FERRY_ENG_STAT.DESC. R500, R518 (14_ferry.md). Reset none. -/
  engs : Tbl EngRun
  /-- Berth keys and flags Ferry holds: a fill, or none for a refusal. R227, R502. Reset empty. -/
  keys : List (Nat × Option KeyFill)
  /-- Peripherals that assert a request. R515 (14_ferry.md). Reset none. -/
  requests : List Peripheral
  /-- Bursts in flight; FERRY_ENG_STAT.SERVICE shows their engines. R516, R518 (14_ferry.md). Reset none. -/
  bursts : List Peripheral
  /-- Sequence number of the last FERRY_COMMIT applied, if any. R344, R518 (14_ferry.md). Reset none. -/
  lastSeq : Option (BitVec 16)
  /-- Next place in the order of waiting channels. R500. Reset 1. -/
  place : Nat
  /-- Next number in the order of arrival of bundles. R507. Reset 0. -/
  bundleNo : Nat
  /-- MODEL's own: looks taken at channels' credit, for the free value of log entry 136. R501. Reset 0 (DESIGN CHOICE, log entry 136). -/
  looks : Nat
  deriving DecidableEq, Repr

/-- A function's mailbox and configuration at reset. -/
def fnInit : HostFn :=
  { bme := false, mse := false, msixEn := false, msixMask := 0x3FF, msixTab := [], msixPend := 0, ats := false, pri := false, ro := true,
    cto := 0, prAlloc := 0, msixWait := 0, msixCause := 0, stu := 0, tagBits := 14, prgFailed := false, mbx := .idle, txLen := 0, txLast := false, txBusy := false, rxLen := 0,
    rxLast := false, rxReady := false, expired := false, proto := false, buf := [], slot := none, got := 0, sent := 0, counts := [] }

/-- A free message slot. -/
def hostSlotInit : HostSlot := { owner := none, msg := [] }

def hostReset : HostGuard :=
  { vfEnable := false, numVfs := 0, linkUp := false, events := [], slots := [], respSlot := 0, reqs := [], quarantine := [],
    failed := [], fresh := [], freed := [], atc := [], pages := [], invals := [], looks := 0 }

/-- A chained channel after a channel reset (R517). -/
def chInit : FerryCh :=
  { state := .idle, head := 0, cur := 0, dbcount := 0, cap := 0, chain := false, retry := 3, retryNow := 3, cause := 0, irqPend := false,
    done := 0, share := 0xFF, rate := 0xFF, credit := 0, descCnt := 0, inMark := 0, outNext := 1, desc := [], why := .run, needKey := false, seq0 := none,
    stop := false, hold := none, place := 0, stuck := none, tail := [], again := false, redo := false }

def chMapInit : ChMap := { valid := false, rel := 0, berth := 0 }

def pchInit : FerryPch :=
  { retry := 3, retryNow := 3, restart := false, digestEn := false, cause := 0, done := false, halted := false, busy := false, bytes := 0, desc := [],
    digest := [], written := [] }

def ferryReset : Ferry :=
  { chs := [], maps := [], mapsStaged := [], pchs := [], engs := [], keys := [], requests := [], bursts := [],
    lastSeq := none, place := 1, bundleNo := 0, looks := 0 }


/-! ## Gangway and the Crossing (11) -/

/-- Link states (R378). -/
inductive LinkState where
  | down | opening | attested | closed
  deriving DecidableEq, Repr

/-- Job states of a link (R378). -/
inductive JobState where
  | none | agreeing | keyed | held
  deriving DecidableEq, Repr

/-- A frame an emitting lane holds back while its keys are refilled (R386): KIND, FLAGS.STREAM, MORE and body. -/
structure OutFrame where
  kind : Byte
  stream : Nat
  more : Bool
  body : Bytes
  deriving DecidableEq, Repr

/-- An inbound PAYLOAD bundle the lane holds: the Ferry channel it names and its bytes still to deliver (R377, R507). -/
structure Bundle where
  ch : Nat
  data : Bytes
  order : Nat
  deriving DecidableEq, Repr

/-- One link: the registers, counters and keys of the lane that serves it, which a Darn moves whole (R395), and Pilot's
side of it. -/
structure GwLink where
  /-- The link layer reports the link trained. R378 (11_gangway.md). Reset false. -/
  trained : Bool
  /-- GW_STAT.LINK. R378, R405 (11_gangway.md). Reset DOWN. -/
  link : LinkState
  /-- GW_STAT.JOB. R378, R405. Reset NONE. -/
  job : JobState
  /-- Closed until reset by an invasive debug grant. R378. Reset false. -/
  dead : Bool
  /-- GW_CTL.PARK. R405. Reset 0. -/
  park : Bool
  /-- GW_STAT.PEER_LINK. R405. Reset 0xFF. -/
  peerLink : Byte
  /-- GW_STAT.REKEY_PEND_LINK. R393, R405. Reset 0. -/
  pendLink : Bool
  /-- GW_STAT.REKEY_PEND_JOB. R393, R405. Reset 0. -/
  pendJob : Bool
  /-- Job generation of the transmit direction; GW_STAT.GEN is its parity. R393, R405. Reset 0. -/
  genTx : Nat
  /-- Job generation of the receive direction. R393. Reset 0. -/
  genRx : Nat
  /-- Job generation the vault's current fields hold. R391. Reset 0. -/
  genKey : Nat
  /-- Link-class generation of the maintenance keys the lane holds. R394. Reset 0. -/
  genLink : Nat
  /-- Link-class generation of the transmit and of the receive direction. R393, R394. Reset 0. -/
  genLinkTx : Nat
  genLinkRx : Nat
  /-- The maintenance keys before a link-class rekey, for a direction that has not moved yet. R394 (log entry 31). Reset none. -/
  maintOld : Option Bytes
  /-- The transmit direction moves after the next link-class frame. R394. Reset false. -/
  moveDue : Bool
  /-- GW_ERR[6:0]: REFUSED, TAG_FAIL, CTR_MISMATCH, TIMEOUT, KIND_UNKNOWN, NO_CHANNEL, FROZEN from bit 0 up. R405. Reset 0. -/
  err : BitVec 7
  /-- GW_ERR.LAST_CAUSE. R406. Reset 0x00. -/
  lastCause : Byte
  /-- GW_JOB: the link's job berth, if VALID. R405. Reset 0. -/
  jobBerth : Option Nat
  /-- GW_JOB_RUN.CH_COUNT and CH_BASE. R405. Reset 0. -/
  chCount : Nat
  chBase : Nat
  /-- GW_JOB and GW_JOB_RUN as staged: VALID, BERTH, CH_COUNT, CH_BASE. R405. Reset 0. -/
  stagedValid : Bool
  stagedBerth : BitVec 12
  stagedCount : BitVec 4
  stagedBase : BitVec 9
  /-- GW_CTR: the four counters, job TX, job RX, link TX, link RX. R375, R405. Reset 0. -/
  ctrs : Tbl Nat
  /-- GW_CNT_0-5. R405. Reset 0. -/
  counts : Tbl Nat
  /-- GW_CF_CTL.LEN. R405. Reset 0. -/
  cfLen : BitVec 11
  /-- GW_CF_CTL.KIND. R405. Reset 0x00. -/
  cfKind : Byte
  /-- GW_CF_CTL.MORE. R405. Reset 0. -/
  cfMore : Bool
  /-- GW_CF_TX, 1 KiB. R405. Reset 0. -/
  cfTx : List Host.Cell
  /-- The 16-frame receive queue, GW_CF_RX at its head: KIND, MORE, body. R405. Reset empty. -/
  rxq : List (Byte × Bool × Bytes)
  /-- The last COMMIT applied, if any. R344, R405. Reset none. -/
  lastSeq : Option (BitVec 16)
  /-- Key cache entry: the link slot's key fields, bytes 120-311. R214, R227. Reset none. -/
  key : Option Bytes
  /-- A fill of the entry is awaited: nothing is sent and received frames are held. R386. Reset false. -/
  refill : Bool
  /-- Received frames held, oldest first. R386, R395. Reset empty. -/
  heldRx : List GwFrame
  /-- Frames waiting to be sent, oldest first. R386, R395. Reset empty. -/
  heldTx : List OutFrame
  /-- Inbound bundles held, oldest first; the lane withholds credit while there is one. R377. Reset empty. -/
  bundles : List Bundle
  /-- Fragments of messages being received, by KIND. R373. Reset empty. -/
  parts : Tbl Bytes
  /-- This side's LINK_HELLO body of the present opening. R380. Reset empty. -/
  hello : Bytes
  /-- The peer's. R380. Reset empty. -/
  peerHello : Bytes
  /-- SID. R380, R394. Reset empty. -/
  sid : Bytes
  /-- The peer's evidence has been accepted. R381. Reset false. -/
  evidence : Bool
  /-- LINK_FIN sent, and the peer's received good. R378, R380. Reset false. -/
  finSent : Bool
  finGot : Bool
  /-- This link's SID has been signed in a batch. R381. Reset false. -/
  signed : Bool
  /-- JOB_ID of the link's job. R388. Reset empty. -/
  jobId : Bytes
  /-- JOB_OFFERs sent in the present agreement. R388. Reset 0. -/
  offers : Nat
  /-- The last JOB_OFFER was answered with 0x01 and is to be repeated. R388. Reset false. -/
  offerRetry : Bool
  /-- Body of this side's own REKEY of class link under way. R394. Reset empty. -/
  rekeyBody : Bytes
  deriving DecidableEq, Repr

/-- A message held while a formation runs (R402): DST, inner KIND and body. -/
structure HeldRoute where
  /-- The link it arrived on; none for a message of this package's own. -/
  arrived : Option Nat
  dst : Bytes
  src : Bytes
  hops : Nat
  kind : Byte
  body : Bytes
  deriving DecidableEq, Repr

/-- The Crossing as Pilot holds it (R398-R402). Identities are their 16 bytes. -/
structure Crossing where
  /-- The highest epoch known, and of the pair held. R399. Reset 0. -/
  epoch : Nat
  /-- The candidate of the pair held. R399. Reset none. -/
  candidate : Option Bytes
  /-- Parent link of the formation tree; none for the candidate itself. R399. Reset none. -/
  parent : Option Nat
  /-- Links whose answer is awaited. R399. Reset none. -/
  awaiting : List Nat
  /-- Child links with the identities of their subtrees. R399. Reset none. -/
  children : Tbl (List Bytes)
  /-- A formation runs. R399, R402. Reset false. -/
  forming : Bool
  /-- Members, ascending; empty outside any Crossing. R398. Reset none. -/
  members : List Bytes
  /-- The coordinator. R398. Reset none. -/
  coordinator : Option Bytes
  /-- Messages held while a formation runs. R402. Reset none. -/
  held : List HeldRoute
  /-- Alias keys of peers whose chains have verified. R384. Reset none. -/
  chains : List Bytes
  deriving DecidableEq, Repr

/-- A Gangway group's block (R407), as a Pier group's. -/
structure GwGroup where
  /-- GGRP_ACK. R407 (11_gangway.md). Reset 0. -/
  ack : BitVec 13
  /-- SEQ of the block's last COMMIT, which alone sets GGRP_ACK bits. R407. Reset 0. -/
  ackSeq : BitVec 16
  /-- A COMMIT through this block awaits these lanes. R407. Reset none. -/
  waiting : List Nat
  /-- GGRP_SPOT.HOLD. R407. Reset 0. -/
  hold : Bool
  /-- GGRP_SPOT.PERIOD. R407. Reset 0x0A. -/
  period : Byte
  /-- GGRP_DARN_CNT. R407. Reset 0. -/
  darns : Nat
  /-- GGRP_DARN.SPARE and LANE. R407. Reset 0xFF. -/
  darnSpare : Byte
  darnLane : Byte
  /-- No spare is left. R407. Reset false. -/
  noSpare : Bool
  /-- Spot test in progress. R397. Reset none. -/
  test : Option (Nat × Option Nat)
  /-- Next place in the order of tests. R397. Reset 0. -/
  next : Nat
  deriving DecidableEq, Repr

def gwInit : GwLink :=
  { trained := false, link := .down, job := .none, dead := false, park := false, peerLink := 0xFF, pendLink := false,
    pendJob := false, genTx := 0, genRx := 0, genKey := 0, genLink := 0, genLinkTx := 0, genLinkRx := 0, maintOld := none, moveDue := false, err := 0, lastCause := 0, jobBerth := none,
    chCount := 0, chBase := 0, stagedValid := false, stagedBerth := 0, stagedCount := 0, stagedBase := 0, ctrs := [],
    counts := [], cfLen := 0, cfKind := 0, cfMore := false, cfTx := [], rxq := [], lastSeq := none, key := none,
    refill := false, heldRx := [], heldTx := [], bundles := [], parts := [], hello := [], peerHello := [], sid := [],
    evidence := false, finSent := false, finGot := false, signed := false, jobId := [], offers := 0, offerRetry := false, rekeyBody := [] }

def gwGroupInit : GwGroup :=
  { ack := 0, ackSeq := 0, waiting := [], hold := false, period := 0x0A, darns := 0, darnSpare := 0xFF, darnLane := 0xFF,
    noSpare := false, test := none, next := 0 }

def crossingReset : Crossing :=
  { epoch := 0, candidate := none, parent := none, awaiting := [], children := [], forming := false, members := [],
    coordinator := none, held := [], chains := [] }


/-! ## Press (12) -/

/-- Where a sampled tile stands (R441-R448). -/
inductive TileStage where
  /-- Its operands or its result are not complete. -/
  | capturing
  /-- Ready, and in the queue. -/
  | ready
  /-- On an array. -/
  | running (array : Nat)
  /-- It has its verdict. -/
  | judged
  deriving DecidableEq, Repr

/-- A sampled tile: its indices, stage, the ranges (Pier, range index) of its operands and result still to report, the numbers of
the panels it uses (TAG of R438), and the Basket areas of its operands and of its result: slice, first line, lines (R515). -/
structure Tile where
  ti : Nat
  tj : Nat
  stage : TileStage
  operands : List (Nat × Nat)
  result : List (Nat × Nat)
  parts : List Nat
  feed : List (Nat × Nat × Nat)
  outcome : List (Nat × Nat × Nat)
  deriving DecidableEq, Repr

/-- A declaration armed and not yet fully judged (R438): its 64 bytes, its tiles, and its Basket areas until its last verdict
(R440): slice, first line, lines. -/
structure Armed where
  declId : DWord
  segment : Nat
  decl : Bytes
  tiles : List Tile
  areas : List (Nat × Nat × Nat)
  deriving DecidableEq, Repr

/-- State of a hold entry (R458, R460). -/
inductive HoldState where
  | damp | dry | failed
  deriving DecidableEq, Repr

/-- A hold-table entry (R458), with what its fate depends on: the operand ranges of its declaration, the tiles without a
verdict, its own cause (MISMATCH or UNVERIFIED, 0 if none), INHERITED, and whether it belongs to no segment (R462). -/
structure HoldEntry where
  declId : DWord
  segment : Nat
  base : Nat
  size : Nat
  state : HoldState
  cause : Nat
  reads : List (Nat × Nat)
  left : Nat
  own : Nat
  inherited : Bool
  orphan : Bool
  deriving DecidableEq, Repr

/-- A segment of a job (R442, R463, R470): its SEG_LAST acknowledged, and accepted; closed, and its place in the order of
closes; its outcome once settled (true: DRY); the Pair points that gate it and whether one of them forbids drying; LATE;
sampled tiles, their clocks and captured bytes. -/
structure Segment where
  num : Nat
  lastSeen : Bool
  lastAccepted : Bool
  closeNo : Nat
  closed : Bool
  settled : Option Bool
  gate : List Word
  forbid : Bool
  late : Bool
  sampled : Nat
  clocks : Nat
  bytes1 : Nat
  bytes2 : Nat
  deriving DecidableEq, Repr

/-- A digest or vote of a member (R481): identity, STATUS and the entries REGION_ID, SIZE, DIGEST. -/
structure PairVote where
  sender : Bytes
  status : Byte
  entries : List (Word × Nat × BitVec 128)
  deriving DecidableEq, Repr

/-- A Pair point (R475-R484) of an open or last job. -/
structure PairPoint where
  point : Word
  closeDecl : DWord
  /-- REGION_ID, base, size. -/
  regions : List (Word × Nat × Nat)
  /-- The cursors armed for it that have not set DONE: Pier and cursor. -/
  cursors : List (Nat × Nat)
  closed : Bool
  /-- STATUS of this member's digest as it stands. -/
  status : Byte
  /-- This member's digest is final and was sent. -/
  sent : Option PairVote
  /-- 0 pending; 1-5 as PAIR_VERDICT; 6 LOST. R489. -/
  outcome : Byte
  role : Byte
  /-- Members not agreeing, with their ROLE. -/
  others : List (Bytes × Byte)
  deriving DecidableEq, Repr

/-- The open job of a berth (R411-R414, R472), or the last one, whose Pair results are kept (R487). -/
structure Job where
  isOpen : Bool
  fixed : Bool
  profiles : Nat
  version : Nat
  dEff : Nat
  floor : Nat
  segTiles : Nat
  periodUs : Nat
  deadlineUs : Nat
  planClocks : Nat
  planT1 : Nat
  planT2 : Nat
  tileMax : Nat
  jobId : Bytes
  /-- Members (identity, class) by index; empty for a single-package job. -/
  members : List (Bytes × Nat)
  /-- Members that have left. -/
  gone : List Bytes
  /-- JOB_CLOSE runs: the ring accepts nothing more (R416). -/
  closing : Bool
  /-- JOB_CLOSE still awaits its response (R135, R416). -/
  answer : Bool
  /-- A site of the berth failed an idle-slot test (R486). -/
  siteBad : Bool
  /-- Links reported unavailable to the job (R388). -/
  unavailable : List Nat
  deriving DecidableEq, Repr

/-- What Press and Line hold keep for a berth: the declaration page of its VF (R452), its ring and its hold table. -/
structure BerthPress where
  /-- The open or last job. R411. Reset none. -/
  job : Option Job
  /-- A declaration ring is assigned to the berth: from JOB_OPEN to the job's close, or to step 3 of the rinse that ended it. R414,
  R416 (12_press.md). Reset false. -/
  ringHeld : Bool
  /-- Declarations in the ring, head first; 256 at most. R417 (12_press.md). Reset empty. -/
  ring : List Bytes
  /-- PRESS_DECL_ACCEPTED. R452 (12_press.md). Reset 0. -/
  accepted : Word
  /-- PRESS_DECL_ACKED. R452. Reset 0. -/
  acked : Word
  /-- PRESS_DECL_ERR[2:0]: PORT, FULL, REJECT from bit 0 up. R452. Reset 0. -/
  err : BitVec 3
  /-- PRESS_DECL_ERR.LAST_REJECT. R452. Reset 0x00. -/
  lastReject : Byte
  /-- PRESS_JOB_FLAGS: OVERRUN, SATURATED, FLOOR_SHORT, OVERCOMMIT from bit 0 up. R452. Reset 0. -/
  flags : BitVec 4
  /-- PRESS_VERDICT_PROD. R452. Reset 0. -/
  prod : Word
  /-- PRESS_VERDICT_CONS. R452. Reset 0. -/
  cons : Word
  /-- PRESS_VERDICT_0-63. R452. Reset 0. -/
  window : Tbl Bytes
  /-- The ledger's records written and not yet in the window, oldest first. R449 (12_press.md). Reset empty. -/
  ledger : List Bytes
  /-- Records whose verdict Line hold has still to apply, oldest first. R461. Reset empty. -/
  unread : List Bytes
  /-- Records on their way to the ledger, oldest first. R449, R515. Reset empty. -/
  outbox : List Bytes
  /-- Records reserved by armed declarations and not yet written. R449. Reset 0. -/
  reserved : Nat
  /-- Region table, slots 0-63, in effect: base and size. R425, R452. Reset empty. -/
  regions : Tbl (Nat × Nat)
  /-- Region table as staged. R425, R452. Reset 0. -/
  regionsStaged : Tbl (Nat × Nat)
  /-- DECL_ID and SEGMENT of the last accepted declaration. R421. Reset 0. -/
  lastDecl : DWord
  lastSeg : Nat
  /-- A declaration has been accepted in the job. R466. Reset false. -/
  anyDecl : Bool
  /-- The head of the ring has passed its check and waits to be armed: its segment and slots as they then stood. R421, R425. Reset none. -/
  head : Option (Tbl (Nat × Nat))
  /-- Declarations armed and not fully judged. R438. Reset none. -/
  armed : List Armed
  /-- The hold table, 1,024 entries. R458 (13_line_pair.md). Reset empty. -/
  entries : List HoldEntry
  /-- Segments of the job, newest last: those not settled, the outcomes of the 64 most recent, and older ones that an entry or the last
  accepted declaration still names. R421, R463, R465. Reset none. -/
  segments : List Segment
  /-- The berth is sealed. R465 (13_line_pair.md). Reset false. -/
  sealed : Bool
  /-- Exports that have received GO and not yet completed: channel, base, size. R468. Reset none. -/
  exports : List (Nat × Nat × Nat)
  /-- Member list as JOB_PEERS has staged it, by index. R473 (13_line_pair.md). Reset empty. -/
  peers : Tbl (Bytes × Nat)
  /-- Pair points of the job. R475 (13_line_pair.md). Reset none. -/
  points : List PairPoint
  /-- Digests of members of the class that this package holds as leader, by POINT. R480 (13_line_pair.md). Reset none. -/
  votes : List (Word × PairVote)
  deriving DecidableEq, Repr

/-- One Press array (R454). -/
structure PressArray where
  /-- PRESS_CTL.PARK. R454 (12_press.md). Reset 0. -/
  park : Bool
  /-- PRESS_ERR: RESIDUE, SEQ_MISMATCH, SPOT_FAIL from bit 0 up. R454. Reset 0. -/
  err : BitVec 3
  /-- PRESS_CNT_0, 2 and 3. R454. Reset 0. -/
  counts : Tbl Nat
  /-- Busy clocks, of which PRESS_CNT_1 shows the 1,024s. R454. Reset 0. -/
  clocks : Nat
  /-- The tile it runs: berth, DECL_ID, TI, TJ; and PRESS_STAT.FMT. R443, R454. Reset none. -/
  run : Option (Nat × DWord × Nat × Nat)
  fmt : Byte
  /-- Basket lines of the tile's operands, and then of its result, that it has been fed. R443, R515 (14_ferry.md). Reset 0. -/
  fed : Nat
  /-- Its feed from its Ferry engine is lost until reset. R562 (16_faults_journal.md). Reset false. -/
  noFeed : Bool
  deriving DecidableEq, Repr

/-- The arrays and the sampler (R455). -/
structure Press where
  /-- The 16 arrays. R454 (12_press.md). Reset as R454. -/
  arrays : Tbl PressArray
  /-- What is kept for each berth. R452, R458. Reset as an empty page. -/
  berths : Tbl BerthPress
  /-- Ready tiles, in the order they became ready: berth, DECL_ID, TI, TJ. R443 (12_press.md). Reset none. -/
  ready : List (Nat × DWord × Nat × Nat)
  /-- Berths whose ring heads wait for resources, in order of arrival there. R439 (12_press.md). Reset none. -/
  waiting : List Nat
  /-- Berth seeds the sampler holds, or none for a refusal. R227, R436. Reset empty. -/
  keys : List (Nat × Option KeyFill)
  /-- PRESS_SPOT.HOLD. R455 (12_press.md). Reset 0. -/
  hold : Bool
  /-- PRESS_SPOT.PERIOD. R455. Reset 0x0A. -/
  period : Byte
  /-- PRESS_SPOT_STAT.ARRAY; none is 0x1F. R455. Reset none. -/
  test : Option Nat
  /-- Next array in the order of spot tests. R446. Reset 0. -/
  next : Nat
  /-- Segments closed so far, by which tiles are ordered. R443 (12_press.md). Reset 0. -/
  closes : Nat
  /-- Idle-slot tests that await a report: site and TEST_ID. R486 (13_line_pair.md). Reset none. -/
  tests : Tbl (List Word)
  /-- Last TEST_ID sent. R486. Reset 0. -/
  testId : Word
  deriving DecidableEq, Repr

def berthPressInit : BerthPress :=
  { job := none, ringHeld := false, ring := [], accepted := 0, acked := 0, err := 0, lastReject := 0, flags := 0, prod := 0, cons := 0,
    window := [], ledger := [], unread := [], outbox := [], reserved := 0, regions := [], regionsStaged := [], lastDecl := 0,
    lastSeg := 0, anyDecl := false, head := none, armed := [], entries := [], segments := [], sealed := false,
    exports := [], peers := [], points := [], votes := [] }

def arrayInit : PressArray := { park := false, err := 0, counts := [], clocks := 0, run := none, fmt := 0, fed := 0, noFeed := false }

def pressReset : Press :=
  { arrays := [], berths := [], ready := [], waiting := [], keys := [], hold := false, period := 0x0A, test := none,
    next := 0, closes := 0, tests := [], testId := 0 }

/-! ## Reset values of the numbered parts -/

/-- An island right after reset: untested, its clock stopped, parked. -/
def islandInit : IslandSt :=
  { test := .pending, pll := false, strap := false, parked := true, ucOk := false, ucTries := 0, ucLocked := false,
    service := .inService }

/-- A chiplet site right after reset. -/
def siteInit : Site :=
  { txLen := 0, rxLen := 0, err := 0, rxReady := false, txBusy := false, awaiting := false, sbUp := false,
    present := false, txBuf := [], rxBuf := [], step := .idle, spdm13 := false, version := 0, kindId := 0, vendor := [],
    staged := [], record := [], load := none, unwiped := false, wiping := false, reboard := false, answer := false }

/-- A fuse word no read has found burned. -/
def cellBlank : FuseCell := { nominal := 0, low := 0, high := 0 }

/-- The shadow of a Blank word. -/
def shadowBlank : FuseShadow := { cls := .blank, value := 0, marg := false, rawCheck := 0 }

/-- A tack entry at reset (R175). -/
def tackInit : TackEntry := { en := false, word := 0, value := 0 }

/-- A berth record that is not OPEN. -/
def recordInit : BerthRecord :=
  { opened := false, curGen := false, rotating := false, unusable := false, epoch := 0, sweepShare := 0, t2Seed0 := none,
    t2Seed1 := none, weight := none, bounce := none, pair := none, pressSeed := none, tag := [], bad := false }

/-- An empty device slot. -/
def slotInit : DeviceSlot :=
  { typ := 0, dest := 0, expire := false, valid := false, unusable := false, epoch := 0, berth := 0xFFFF, material := [],
    tag := [], bad := false }

/-- A berth at startup: FREE, level startupClean (R309). -/
def berthInit : Berth :=
  { state := .free, level := .startupClean, step := 0, sequencer := false, recorded5 := false, wiped := 0, owed := 0,
    t1 := [], t2 := [], t1Staged := [], t2Staged := [], sites := 0, sitesStaged := 0, ferryBase := 0, ferryCount := 0,
    commit := none, gateDue := false, levelKept := false, portFault := false, stackFault := 0, integrity := false, binding := [], pairJob := [], replyDue := false, toZero := [], zeroing := [] }

/-- A KIND for which no ALARM_NOTIFY has been sent. -/
def notifyInit : NotifySlot := { holdoff := false, count := 0, event := 0 }


/-- A Pier as it is after its domain powers up. -/
def pierInit : PierSt :=
  { refuseAlarm := true, park := false, err := 0, lastBerth := 0, lastCause := 0, win := [], winStaged := [], bind := [],
    bindStaged := [], bindOff := [], lastSeq := 0, seqSeen := false, drain := [], winPort := 0, winIndex := 0, bindIndex := 0,
    zeroBase := 0, zeroSize := 0, zero := none, sweep := none, sweepDone := false, sweepDue := false, sweepBerth := 0, counts := [],
    keys := [], missQ := [], outs := [], held := [], capture := [], ranges := [], coverage := [], capBuf := [],
    cursors := [], scrub := [], metaCache := [], ready := [], fill := none }

/-- A Pier group's block at reset. -/
def pierGroupInit : PierGroup :=
  { ack := 0, ackSeq := 0, waiting := [], hold := false, period := 0x0A, darns := 0, darnSpare := 0xFF, darnLane := 0xFF,
    noSpare := false, test := none, next := 0 }

/-- Why an SPDM request is answered with ERROR (R251, R256, R258, R587). -/
inductive SpdmFail where
  | unsupportedRequest | unexpectedRequest | invalidRequest | busy | responseNotReady | unspecified
  deriving DecidableEq, Repr

/-- A measurement of an SPDM MEASUREMENTS response (R254): index, DMTF value type and value. -/
structure SpdmMeasurement where
  index : Nat
  typ : Byte
  value : Bytes
  deriving DecidableEq, Repr

/-- The SPDM responses of a responder role (R83, R256-R258). -/
inductive SpdmReply where
  | version (v : List SpdmVersion)
  | capabilities (cert chal measSigned : Bool) (ctExponent : Nat) (transferSize maxMsg : Nat)
  | algorithms (sha384 p384 : Bool)
  | digests (slot0 : Bytes) (slot1 : Option Bytes)
  | certificate (slot : Nat) (portion : Bytes) (remainder : Nat)
  | challengeAuth (slot : Nat) (certHash measSummary : Bytes) (ecdsa mldsa : Bytes)
  | measurements (count : Nat) (blocks : List SpdmMeasurement) (ecdsa mldsa : Bytes)
  deriving DecidableEq, Repr

/-- What Pilot sends a chiplet over the sideband (R120, R121, R316, R486), or a raw SEND (R127). -/
inductive SiteMsg where
  | getVersion
  | getCapabilities (dataTransferSize maxMessageSize : Nat) (chunk : Bool)
  | negotiateAlgorithms (hash asym : Nat)
  | getDigests
  | getCertificate (slot : Nat)
  | challenge
  | load (addr length : Nat) (digest : Bytes)
  | getMeasurements
  | wipe
  | selfTest (testId : Word)
  | raw (msg : Bytes)
  deriving DecidableEq, Repr


/-! ## What crosses MB3's boundary -/

/-- One thing MB3 sent to a party outside it. The field `State.out` lists them, newest first: it is the model's own
trace of the interfaces of R59, not a store of MB3. -/
inductive Emission where
  /-- A frame on the Cable ring (R76): its bytes from POS_DST to CRC. -/
  | ringFrame (raw : Bytes)
  /-- An MCTP message to an endpoint (R82): message type byte, then body. -/
  | mctp (dst : Byte) (msg : Bytes)
  /-- The answer to an MCTP control message (R82). -/
  | mctpControl (dst command : Byte) (body : Bytes)
  /-- An MCTP error completion (R82, R587). -/
  | mctpError (dst : Byte)
  /-- A not-ready completion (R81). -/
  | notReady (dst : Byte)
  /-- An SPDM ERROR with its reason (R256, R258, R587). -/
  | spdmError (t : Transport) (reason : SpdmFail)
  /-- An SPDM response (R256). -/
  | spdm (t : Transport) (r : SpdmReply)
  /-- GET_UNIT_STATUS (R84): code, halted, halt seen elsewhere, life-cycle state, milestone, position, invasive right open. -/
  | unitStatus (dst stat : Byte) (halted haltSeen : Bool) (lc : BitVec 4) (milestone position : Byte) (invasive : Bool)
  /-- GET_BERTH_STATE (R84): state code and rinse level. -/
  | berthState (dst : Byte) (berth : Nat) (state level : Byte)
  /-- GET_BERTH_STATE with a berth number of 4096 or more (R84). -/
  | berthInvalid (dst : Byte)
  /-- ALARM_NOTIFY (R567). -/
  | alarmNotify (dst : Byte) (kind : BitVec 16) (count : Nat) (event : DWord)
  /-- A 64-byte message to the hub management cores (R114). -/
  | mgmt (msg : Bytes)
  /-- The hub management firmware streamed through the hub load port into the cores' instruction memory (R113). -/
  | loadPort (image : Bytes)
  /-- A Boarding message to a chiplet site (R120), which the agent splits (R91). -/
  | sideband (site : Nat) (m : SiteMsg)
  /-- One vendor-defined sideband message with its identifier and at most 64 B of payload (R91). -/
  | sidebandPart (site : Nat) (identifier payload : Bytes)
  /-- A response left for a function's mailbox: code, MSTATUS and body (R530-R533). -/
  | reply (fn : Func) (code mstatus : Byte) (body : Bytes)
  /-- An MSI-X message (R526). -/
  | msix (fn : Func) (vector : Nat)
  /-- A Pier reads a line from memory (R338). -/
  | memRead (pier line : Nat)
  /-- A Pier reads a metadata line (R352). -/
  | metaRead (pier line : Nat)
  /-- A Pier writes a line with its sideband bytes (Tier 1) or its ciphertext (Tier 2). -/
  | memWrite (pier line : Nat) (data side : Bytes)
  /-- A Tier-1 Pier zeroes its channel's share of these MiB of its stack (R99). -/
  | memZero (pier baseMib sizeMib : Nat)
  /-- The Piers of a stack zero these lines of its Basket slice (step 3 of R323). -/
  | basketZero (slice area lines : Nat)
  /-- A Pier writes a metadata line back (R352). -/
  | metaWrite (pier line : Nat) (data : Bytes)
  /-- A line's response on the fabric (R339). -/
  | fabric (pier init : Nat) (resp : LineResp) (data : Bytes)
  /-- The capture writer puts a line into a Basket slice (R36, R358). -/
  | basket (slice area : Nat) (data : Bytes)
  /-- A feed stream of an engine reads lines of a Basket slice for an array (R443, R491, R515): initiator code, slice, first line,
  lines. -/
  | feed (array init slice line lines : Nat)
  /-- The service path of an engine writes a 32-byte record to a berth's ledger (R449, R491, R515): initiator code, slice, line, byte
  within the line. -/
  | ledger (init slice line off : Nat) (rcd : Bytes)
  /-- A Gangway frame as the lane of a link sends it (R373): sealed body and trailer. -/
  | gangway (link : Nat) (f : GwFrame)
  /-- An engine's request on the fabric, under an initiator code: byte address of the line, operation, data (R497). -/
  | ferryFabric (eng init addr : Nat) (op : LineOp) (data : Bytes)
  /-- A host read: function, tag, address, bytes, translated, Relaxed Ordering (R498, R543). -/
  | hostRead (fn tag addr len : Nat) (translated ro : Bool)
  /-- A host write: function, address, bytes, translated, Relaxed Ordering (R498, R543). -/
  | hostWrite (fn addr : Nat) (data : Bytes) (translated ro : Bool)
  /-- A translation request (R548): function, tag, address, write. -/
  | translationRequest (fn tag addr : Nat) (write : Bool)
  /-- A page request group (R552): function, index, page, write. -/
  | pageRequest (fn index addr : Nat) (write : Bool)
  /-- An Invalidate Completion (R551). -/
  | invalidateCompletion (fn itag : Nat)
  /-- A completion with UR status for a host's request (R528). -/
  | hostUr (fn : Func)
  /-- An error reported under the function's AER settings (R528, R544, R546): 0 Unsupported Request, 1 completion timeout,
  2 unexpected completion. -/
  | aer (fn : Func) (kind : Nat)
  /-- DECL_STATUS, the answer to a DECLARE (R417). -/
  | declStatus (site : Nat) (accepted acked : Word)
  /-- IDLE_TEST to a site (R486): TEST_ID, BUDGET_MS, DEADLINE_MS. -/
  | idleTest (site : Nat) (testId : Word) (budget deadline : Nat)
  /-- What the IDCODE, BYPASS or boundary register shifts out (R88). -/
  | jtag (v : Word)
  /-- The pins as the boundary register drives them (R90). -/
  | pinsDriven (v : BitVec 21)
  /-- A debug-port read's value (R583). -/
  | debugData (v : Word)
  /-- Line traces that a Pier or a Gangway lane begins to capture for the debug port (R192). -/
  | laneTrace (isl : Island)
  /-- Memory BIST of a parked array or of a lane in spot test begins (R192). -/
  | mbist (isl : Island)
  /-- The completion of a host's read of BAR0, without Relaxed Ordering (R527, R529). -/
  | hostCpl (fn : Func) (data : Bytes)
  /-- A configuration register's value, by the model's own numbers (R585; log entry 41). -/
  | configData (fn : Func) (v : Word)
  deriving DecidableEq, Repr

/-- The state of MB3. -/
structure State where
  /-- The dedicated pins and the test chain segment. R66 (02_boundary.md). Reset as pinsReset. -/
  pins : Pins
  /-- The Cable ring agent. R586 (17_register_index.md). Reset as ringReset. -/
  ring : Ring
  /-- The power domains. R47 (01_architecture.md). Reset as powerReset. -/
  power : Power
  /-- The islands 0-233. R38 (01_architecture.md). Reset as islandInit. -/
  isl : Tbl IslandSt
  /-- Pilot. R96 (03_startup.md). Reset as pilotReset. -/
  pilot : Pilot
  /-- The Boarding agent. R125 (03_startup.md). Reset as boardReset. -/
  board : Boarding
  /-- The fuse controller and the array. R138 (04_fuses.md). Reset as fuseReset. -/
  fuse : Fuse
  /-- The life-cycle and debug block. R202 (05_lifecycle_debug.md). Reset as lcReset. -/
  lc : LifeCycle
  /-- The vault. R205 (06_keys.md). Reset as vaultReset. -/
  vault : Vault
  /-- The crypto engines. R238 (06_keys.md). Reset as cryptoReset. -/
  crypto : Crypto
  /-- Prirdo sessions 0-3. R266 (07_attestation.md). Reset none. -/
  sessions : Tbl Session
  /-- Field update. R292 (08_update.md). Reset as updateReset. -/
  update : Update
  /-- The journal, the counters and the fault window. R578 (16_faults_journal.md). Reset as journalReset. -/
  jrn : Journal
  /-- The boot flash, by byte address; 0xFF where nothing is listed. R93 (02_boundary.md), R275 (08_update.md). Not reset. State.reset: DESIGN CHOICE erased, log entry 15. -/
  flash : List Host.Cell
  /-- The berths 0-4095. R307 (09_berths_rinse.md). Reset as berthInit. -/
  berths : Tbl Berth
  /-- The clean map of Tier 1: stack, base and size in MiB of each clean range; the rest is dirty or owned. R313 (09_berths_rinse.md). Reset none clean. -/
  cleanMap : List (Nat × Nat × Nat)
  /-- The functions of the endpoint. R520, R537 (15_host.md). Reset as fnInit. -/
  fns : Tbl HostFn
  /-- The host guard. R520 (15_host.md). Reset as hostReset. -/
  host : HostGuard
  /-- The Ferry engine. R490 (14_ferry.md). Reset as ferryReset. -/
  ferry : Ferry
  /-- Spares in use: the island number of a spare lane to that of the lane it covers. R33, R109 (01_architecture.md). Reset none. -/
  cover : Tbl Nat
  /-- The Piers 0-153. R369 (10_pier.md). Reset as pierInit. -/
  piers : Tbl PierSt
  /-- The nine Pier groups. R371 (10_pier.md). Reset as pierGroupInit. -/
  pgroups : Tbl PierGroup
  /-- Reports of the Piers to Press and Pair. R359, R441, R478. Reset none. -/
  reports : Reports
  /-- Pilot's handshakes with the lanes. R28, R42 (01_architecture.md). Reset idle. -/
  lanes : Lanes
  /-- The 48 links with the lanes that serve them. R405 (11_gangway.md). Reset as gwInit. -/
  links : Tbl GwLink
  /-- The four Gangway groups. R407 (11_gangway.md). Reset as gwGroupInit. -/
  ggroups : Tbl GwGroup
  /-- The Crossing. R398 (11_gangway.md). Reset outside any. -/
  crossing : Crossing
  /-- Press, Line hold and Pair. R454 (12_press.md), R458 (13_line_pair.md). Reset as pressReset. -/
  press : Press
  /-- MODEL's own: what MB3 has sent across its boundary, newest first. R59 (01_architecture.md). Reset: DESIGN CHOICE empty, log entry 4. -/
  out : List Emission
  /-- MODEL's own: the commands that wait, first in, first out. Reset: DESIGN CHOICE empty, log entry 1. -/
  pending : List Instr
  deriving DecidableEq, Repr

abbrev Out := Host.Outcome State Fault Refusal


/-! ## The state right after reset -/

def pinsReset : Pins :=
  { porstLow := true, bootsel := 0, stat := 0, haltLow := false, haltSeen := false, cringByp := false, ir := .idcode,
    boundary := 0, boundaryControls := false, scanned := false }

def ringReset : Ring :=
  { eid := 0, owner := 0, position := 0, enumerated := false, held := none, token := .none, secondLimit := false,
    ready := false, txLen := 0, dstEid := 0, txBusy := false, rxLen := 0, srcEid := 0, busySent := false,
    rxReady := false, txBuf := [], rxBuf := [], assembly := [], peers := [], notify := [] }

def powerReset : Power :=
  { domOn := 0xFFFFF, domUp := 0, switching := 0xFFFFF, refused := false, lastDom := 0 }

def settingsDefault : Settings :=
  { chosen := false, area := false, format := 0, seq := 0, publicPart := [], sealedPart := [], dirty := false, migrating := false,
    writeFails := 0, install := none, answer := false, held := none }

def spdmReset : SpdmConn := { version := none, caps := false, algs := false }

def pilotReset : Pilot :=
  { phase := .reset, stoppedIn := .reset, lostHomes := [], milestone := 0, haltCode := 0, policyDone := false, entropyOk := false, flashReady := false,
    flashOctal := false, flashFailed := false, accessFault := none, flashSectors := 0, sources := [], sourcesChosen := false, chain := none, bootRecord := [],
    booted := none, sram := [], codeLen := 0, codeLocked := false, execEnable := false, udsLocked := false,
    restartDigest := [], measurements := [], collected := false, coreTest := .pending, vaultTest := .pending,
    ucImages := [], mgmtVerified := false, memTrained := false, stackMap := 0, ports := 0, links := 0, ready := false,
    warmGuard := false, settings := settingsDefault, aliasReady := false, aliases := [], enrolled := (false, false),
    spdmRing := spdmReset, spdmPf0 := spdmReset, timeNonce := none, assignClosed := false, drawn := 0 }

def boardReset : Boarding :=
  { outGo := false, inFull := false, loadEn := false, mgmtRun := false, mgmtIn := [], mgmtOut := [], sites := [],
    wave := 0, slot := none, logClosed := false, mgmtDue := false, areas := [] }

def fuseReset : Fuse :=
  { cells := [], shadows := [], sensedShadows := [], busy := true, done := false, sensed := false, vppOk := false, compat := false,
    lastErr := 0, cmdWord := 0, wdata := 0, alarm := 0, alarmEver := 0, query := 0, tackStaged := [], tacks := [],
    op := none }

def lcReset : LifeCycle :=
  { state := 0xF, doneThisBoot := false, doneTarget := 0, xferTo := 0, err := 0, vaultEmpty := false, done := false,
    busy := false, digest := [], nonce := none, grant := 0, reqRights := 0, mboxLen := 0, mboxReq := 0,
    mboxResult := 0, mboxDone := false, mboxBusy := false, mboxDrives := false, resultCode := 0, mbox := [], run := none,
    grantPending := none }

def vaultReset : Vault :=
  { records := [], slots := [], tagKey := [], busy := false, done := false, rotDone := false, tagFail := false,
    drbgOk := false, invOpen := false, err := 0, cmd := { field := 0, index := 0, typ := 0, space := false }, attr := 0,
    len := 0, aux := 0, querySpace := false, queryIndex := 0, rotBerth := 0, data := [], ports := [], channels := [],
    awaiting := none, afterQueue := [], acks := [], turn := 0, sweeps := [], sinceReseed := 0, links := [], entropyFailed := false }

def cryptoReset : Crypto :=
  { busy := false, done := false, pass := false, err := 0, keysel := 0, len := 0, inBuf := [], outBuf := [],
    result := none }

def updateReset : Update :=
  { state := .idle, lastStatus := 0, written := 0, mark := 0, manifest := [], confirmed := false, copyTries := 0, resumed := false }

def journalReset : Journal :=
  { queues := [], drain := 0, boot := 0, index := 0, scanned := false, early := [], buffer := [], dropped := none,
    sector := 0, slot := 0, fails := 0, sectorFails := 0, down := false, counters := [], countersDirty := false, settled := [],
    anchors := 0, fltProd := 0, fltCons := 0, overrun := false, fltRecs := [], post := [] }


def lanesReset : Lanes := { cmds := [], acks := [], bcasts := [], seq := 1 }


/-- MB3 right after reset, with MB_PORST_N still held low (R66): every register at the value the spec gives it. The
fuse array is Blank and the flash erased, as no unit's contents are the spec's (DESIGN CHOICE, log entry 15). -/
def State.reset : State :=
  { pins := pinsReset, ring := ringReset, power := powerReset, isl := [], pilot := pilotReset, board := boardReset,
    fuse := fuseReset, lc := lcReset, vault := vaultReset, crypto := cryptoReset, sessions := [],
    update := updateReset, jrn := journalReset, flash := [], berths := [], cleanMap := [], fns := [], host := hostReset,
    ferry := ferryReset, cover := [], piers := [], pgroups := [], reports := { rewritten := [], lost := [], pairBad := [] },
    lanes := lanesReset, links := [], ggroups := [], crossing := crossingReset, press := pressReset, out := [],
    pending := [] }

end Sys2Proof.Machine
end

