-- ==== Sys2Proof/Machine/Ops.lean ====
section
/-! DEFINITION. The named operations every family of commands shares: reading and writing the numbered parts of the
state, what crosses the boundary, draws from the DRBG, alarms and journal records with their routes, MSI-X, progress
codes and the halt. -/

namespace Sys2Proof.Machine

/-! ### Numbers of the islands -/

/-- The number an island has among the 234 (R38): Piers, Gangway lanes, Press arrays, Ferry engines, host guard,
Boarding agent, Trust Core, vault and fuse. -/
def islandIx : Island → Nat
  | .pier n => n
  | .gangway n => 154 + n
  | .press n => 206 + n
  | .ferry n => 222 + n
  | .hostGuard => 230
  | .boarding => 231
  | .trustCore => 232
  | .vaultFuse => 233

/-- Whether the instance number exists (R5). -/
def islandExists : Island → Bool
  | .pier n => decide (n < 154)
  | .gangway n => decide (n < 52)
  | .press n => decide (n < 16)
  | .ferry n => decide (n < 8)
  | _ => true

/-- SRC_KIND of a journal record (R570). -/
def srcKindOf : Island → Byte
  | .trustCore => 0
  | .vaultFuse => 1
  | .pier _ => 2
  | .gangway _ => 3
  | .press _ => 4
  | .ferry _ => 5
  | .hostGuard => 6
  | .boarding => 7

/-- The instance number of an island, 0 for the single ones. -/
def instOf : Island → Nat
  | .pier n => n
  | .gangway n => n
  | .press n => n
  | .ferry n => n
  | _ => 0

/-- The island with a number. -/
def islandAt (i : Nat) : Island :=
  if i < 154 then .pier i
  else if i < 206 then .gangway (i - 154)
  else if i < 222 then .press (i - 206)
  else if i < 230 then .ferry (i - 222)
  else if i = 230 then .hostGuard
  else if i = 231 then .boarding
  else if i = 232 then .trustCore
  else .vaultFuse

/-- The stack group of a Pier: 0-7 for the stacks, 8 for Tier 2 (R32, R106). -/
def pierGroup (n : Nat) : Nat := if n < 136 then n / 17 else 8

/-- The power domain of an island (R43). -/
def domainOf : Island → Nat
  | .pier n => if n < 136 then 2 + n / 17 else 10
  | .gangway n => if n < 48 then 11 + n / 12 else 11 + (n - 48)
  | .press n => 15 + n / 4
  | .ferry _ => 19
  | .hostGuard => 19
  | .boarding => 19
  | .trustCore => 0
  | .vaultFuse => 1

/-! ### The numbered parts -/

def State.island (s : State) (i : Island) : IslandSt := tget islandInit s.isl (islandIx i)
def State.setIsland (s : State) (i : Island) (x : IslandSt) : State := { s with isl := tset s.isl (islandIx i) x }
def State.site (s : State) (k : Nat) : Site := tget siteInit s.board.sites k
def State.setSite (s : State) (k : Nat) (x : Site) : State :=
  { s with board := { s.board with sites := tset s.board.sites k x } }
def State.berth (s : State) (b : Nat) : Berth := tget berthInit s.berths b
def State.setBerth (s : State) (b : Nat) (x : Berth) : State := { s with berths := tset s.berths b x }
def State.record (s : State) (b : Nat) : BerthRecord := tget recordInit s.vault.records b
def State.slot (s : State) (k : Nat) : DeviceSlot := tget slotInit s.vault.slots k
def State.shadow (s : State) (w : Nat) : FuseShadow := tget shadowBlank s.fuse.shadows w

/-! ### Who acts -/

/-- Islands run: MB_PORST_N is high and internal scan has not left MB3 accepting only reset (R66, R192). -/
def accepts (s : State) : Bool := !s.pins.porstLow && !s.pins.scanned

/-- Verified firmware runs on Pilot: it is neither in the ROM, nor restarting, nor halted. -/
def pilotUp (s : State) : Bool := accepts s && (s.pilot.phase == .firmware)

/-- The island's clock runs, or it has not been released yet (R74). -/
def clocked (s : State) (i : Island) : Bool := !(s.island i).strap || (s.island i).pll

/-- Registers of the Pilot map can be written: Pilot's cores run, in the ROM or in firmware and not in a restart or a halt, or
the debug port may write in their place, while PD0 has its clock (R25, R74, R132, R133, R192). -/
def commanded (s : State) : Bool :=
  accepts s && (s.pilot.phase == .rom || s.pilot.phase == .hold || s.pilot.phase == .firmware ||
    (s.lc.grant.getLsbD 2 && clocked s .trustCore))

/-- The same for the registers of the vault, which needs its own clock (R74). -/
def vaultCommanded (s : State) : Bool := commanded s && clocked s .vaultFuse

/-- The same for the registers of the fuse controller, which FUSE_PROGRAM opens too (R192); the block needs its own clock (R74). -/
def fuseCommanded (s : State) : Bool :=
  (commanded s || (accepts s && s.lc.grant.getLsbD 6 && clocked s .trustCore)) && clocked s .vaultFuse

/-- An effect that needs the islands out of reset; otherwise nothing changes. -/
def whenRunning (s : State) (f : State → State) : Out := .next (if accepts s then f s else s)

/-- An effect of a write to Pilot's registers; otherwise nothing changes. -/
def whenCommanded (s : State) (f : State → State) : Out := .next (if commanded s then f s else s)

/-- An effect of a write to the fuse controller's registers; otherwise nothing changes. -/
def whenFuse (s : State) (f : State → State) : Out := .next (if fuseCommanded s then f s else s)

/-- An effect of a write to the vault's registers; otherwise nothing changes. -/
def whenVault (s : State) (f : State → State) : Out := .next (if vaultCommanded s then f s else s)

/-- An effect of running Pilot firmware; otherwise nothing changes. -/
def whenPilot (s : State) (f : State → State) : Out := .next (if pilotUp s then f s else s)

/-- An input of the host port, which is closed while the boundary register controls the pins (R90). -/
def whenHost (s : State) (f : State → State) : Out := .next (if accepts s && !s.pins.boundaryControls then f s else s)

/-- Work on a memory path, which is closed while the boundary register controls the pins (R90). -/
def whenMemory (s : State) (f : State → State) : Out := .next (if accepts s && !s.pins.boundaryControls then f s else s)

/-- What leaves through the host port or a memory or link path (R90). -/
def closedPath : Emission → Bool
  | .msix _ _ => true
  | .hostRead _ _ _ _ _ _ => true
  | .hostWrite _ _ _ _ _ => true
  | .translationRequest _ _ _ _ => true
  | .pageRequest _ _ _ _ => true
  | .invalidateCompletion _ _ => true
  | .hostUr _ => true
  | .hostCpl _ _ => true
  | .configData _ _ => true
  | .aer _ _ => true
  | .memRead _ _ => true
  | .memWrite _ _ _ _ => true
  | .memZero _ _ _ => true
  | .basketZero _ _ _ => true
  | .metaRead _ _ => true
  | .metaWrite _ _ _ => true
  | .gangway _ _ => true
  | _ => false

/-- Something MB3 sends across its boundary; nothing leaves on a path that the boundary register has closed (R90). -/
def emit (s : State) (e : Emission) : State :=
  { s with out := if s.pins.boundaryControls && closedPath e then s.out else e :: s.out }

/-! ### Ring frames and MCTP packets (R76, R82) -/

/-- A frame's bytes from POS_DST to its CRC (R76). -/
def frameBytes (f : RingFrame) : Bytes :=
  let head := [f.dst, f.src, f.hops, f.kind, BitVec.ofNat 8 f.payload.length] ++ f.payload
  head ++ toLe 4 (crc32c head).toNat

/-- A frame leaves on the ring. -/
def sendRing (s : State) (f : RingFrame) : State := emit s (.ringFrame (frameBytes f))

/-- HOPS of a frame MB3 itself sends: R77 has a frame discarded after 64 hops (DEDUCED, log entry 33). -/
def ownHops : Byte := 64

/-- The packets of a message: a 4-byte transport header (version 1, destination, source, then SOM, EOM, sequence number, tag
owner and tag) and at most 64 B of body each (R76, R82; MCTP 1.3). -/
def mctpPackets (dst src : Byte) (owner : Bool) (tag : BitVec 3) (msg : Bytes) : List Bytes :=
  let n := (msg.length + 63) / 64
  (List.range n).map (fun i =>
    let flags : Byte := (((BitVec.ofBool (i == 0) ++ BitVec.ofBool (i + 1 == n)) ++ BitVec.ofNat 2 i) ++ BitVec.ofBool owner) ++ tag
    [0x01, dst, src, flags] ++ slice msg (64 * i) 64)

/-- A message to an endpoint: an answer carries the request's tag and goes back to its position; a message of MB3's own
(`owner`) carries tag 0 (DESIGN CHOICE, log entry 33). -/
def sendMctp (s : State) (dst : Byte) (owner : Bool) (e : Emission) (msg : Bytes) : State :=
  let peer := tget { pos := Config.ringPosition dst, tag := 0, inst := 0 } s.ring.peers dst.toNat
  (mctpPackets dst s.ring.eid owner (if owner then 0 else peer.tag) msg).foldl
    (fun s p => sendRing s { dst := peer.pos, src := s.ring.position, hops := ownHops, kind := 0x01, payload := p }) (emit s e)

/-- An answer to a control request (MCTP 1.3): the request's instance number, its command, and a body that begins with the
completion code. -/
def controlAnswer (s : State) (dst : Byte) (e : Emission) (command : Byte) (body : Bytes) : State :=
  sendMctp s dst false e ([0x00, (tget { pos := 0, tag := 0, inst := 0 } s.ring.peers dst.toNat).inst.setWidth 8, command] ++ body)

/-- A vendor-defined message (R82, R84, R567). -/
def sendVendor (s : State) (dst : Byte) (owner : Bool) (e : Emission) (fields : List Bytes) : State :=
  sendMctp s dst owner e (0x7F :: Config.vendorMessage fields)

/-! ### The DRBG -/

/-- `n` bytes drawn from the CTR_DRBG: free values (R223). -/
def drawBytes (s : State) (n : Nat) : Bytes := (List.range n).map (fun i => Config.drbgByte (s.pilot.drawn + i))

/-- The state after `n` bytes have been drawn in one generate request. -/
def drew (s : State) (n : Nat) : State :=
  { s with pilot := { s.pilot with drawn := s.pilot.drawn + n }
           vault := { s.vault with sinceReseed := if s.vault.sinceReseed ≥ 65536 then 1 else s.vault.sinceReseed + 1 } }

/-! ### Functions of the host port (R520, R521) -/

/-- The number of a function: PF0 is 0, PF1 is 1, VF n is n + 2. -/
def fnIx : Func → Nat
  | .pf0 => 0
  | .pf1 => 1
  | .vf n => n + 2

def State.fn (s : State) (f : Func) : HostFn := tget fnInit s.fns (fnIx f)
def State.setFn (s : State) (f : Func) (x : HostFn) : State := { s with fns := tset s.fns (fnIx f) x }

/-- The function with a number. -/
def fnAt (i : Nat) : Func := if i = 0 then .pf0 else if i = 1 then .pf1 else .vf (i - 2)

/-- VF n exists. -/
def vfExists (s : State) (n : Nat) : Bool := s.host.vfEnable && decide (n < s.host.numVfs)
def fnExists (s : State) : Func → Bool
  | .vf n => vfExists s n
  | _ => true

def modFn (s : State) (f : Func) (g : HostFn → HostFn) : State := s.setFn f (g (s.fn f))
def modHost (s : State) (g : HostGuard → HostGuard) : State := { s with host := g s.host }

/-- HG_CNT_i of a VF, saturating (R524). -/
def hgCount (s : State) (fn i : Nat) : State :=
  modFn s (fnAt fn) (fun x => { x with counts := tmod 0 x.counts i (fun v => min (v + 1) 0xFFFFFFFF) })

/-! ### Tags (R545) -/

/-- The tags of a function, by the tag bits the host has enabled. -/
def tagSpace (s : State) (fn : Nat) : Nat := 2 ^ min 14 (s.fn (fnAt fn)).tagBits

/-- A tag is free; with fewer than 14 tag bits a function has at most half of its tag space outstanding (R545). -/
def tagReady (s : State) (fn : Nat) : Bool :=
  (decide (tget 0 s.host.fresh fn < tagSpace s fn) || (tget [] s.host.freed fn).any (fun t => decide (t < tagSpace s fn))) &&
    (decide (14 ≤ (s.fn (fnAt fn)).tagBits) || decide (2 * (s.host.reqs.filter (fun r => r.fn == fn)).length < tagSpace s fn))

/-- The tag a function issues next: one never issued, else the one released longest ago. -/
def nextTag (s : State) (fn : Nat) : Nat :=
  if tget 0 s.host.fresh fn < tagSpace s fn then tget 0 s.host.fresh fn
  else ((tget [] s.host.freed fn).find? (fun t => decide (t < tagSpace s fn))).getD 0

/-- The host guard with that tag taken. -/
def takeTag (s : State) (fn : Nat) : HostGuard :=
  let h := s.host
  if tget 0 h.fresh fn < tagSpace s fn then { h with fresh := tset h.fresh fn (tget 0 h.fresh fn + 1) }
  else { h with freed := tset h.freed fn ((tget [] h.freed fn).erase (nextTag s fn)) }

/-- A tag released to the tail of its function's free list. -/
def releaseTag (h : HostGuard) (fn tag : Nat) : HostGuard := { h with freed := tset h.freed fn (tget [] h.freed fn ++ [tag]) }

/-- The outstanding request with a tag. -/
def findReq (s : State) (fn tag : Nat) : Option HostReq := s.host.reqs.find? (fun r => r.fn == fn && r.tag == tag)
def dropReq (h : HostGuard) (fn tag : Nat) : HostGuard := { h with reqs := h.reqs.filter (fun r => !(r.fn == fn && r.tag == tag)) }

/-- Invalidations wait for a request no longer (R551). -/
def invalsLess (h : HostGuard) (fn tag : Nat) : HostGuard :=
  { h with invals := h.invals.map (fun v => if v.fn = fn then { v with waiting := v.waiting.filter (· != tag) } else v) }

/-- A request ends with its tag free again. -/
def reqDone (s : State) (fn tag : Nat) : State :=
  modHost s (fun h => releaseTag (invalsLess (dropReq h fn tag) fn tag) fn tag)

/-- A request times out or is abandoned: its tag goes into quarantine. -/
def reqQuarantine (s : State) (r : HostReq) : State :=
  modHost s (fun h =>
    let h1 := { dropReq h r.fn r.tag with quarantine := h.quarantine ++ [r] }
    if r.timedOut then invalsLess h1 r.fn r.tag else h1)

/-! ### Translation (R547, R548) -/

/-- The 2 MiB range of an address. -/
def rangeOf (a : Nat) : Nat := a / 2097152

def atcSize (e : AtcEntry) : Nat := if e.big then 1073741824 else 2097152

/-- The entry that holds an address. -/
def atcFind (h : HostGuard) (fn a : Nat) : Option AtcEntry :=
  h.atc.find? (fun e => e.fn == fn && decide (e.base ≤ a ∧ a < e.base + atcSize e))

/-- What becomes of an access of a function at an address. -/
inductive HostGo where
  /-- It may be issued at this address: translated or not, and the entry used. -/
  | go (addr : Nat) (translated : Bool) (used : Option (Nat × Nat))
  | miss
  | denied
  deriving DecidableEq, Repr

/-- ATS off, or a completion that allows untranslated requests to the range only: as it is; else from the cache. -/
def translate (s : State) (raw : Option (Nat × Nat)) (fn a : Nat) (write : Bool) : HostGo :=
  if !(s.fn (fnAt fn)).ats ∨ raw = some (fn, rangeOf a) then .go a false none
  else
    match atcFind s.host fn a with
    | none => .miss
    | some e =>
      if (if write then e.canWrite else e.canRead) then .go (e.target + (a - e.base)) true (some (e.base, atcSize e)) else .denied

/-- The entry an access used becomes the most recently used. -/
def atcTouch (s : State) (fn : Nat) (used : Option (Nat × Nat)) : State :=
  match used with
  | none => s
  | some (b, n) =>
    let hit (e : AtcEntry) : Bool := e.fn == fn && e.base == b && atcSize e == n
    modHost s (fun h => { h with atc := h.atc.filter hit ++ h.atc.filter (fun e => !hit e) })

/-- A translation request of a function for a range. -/
def asksRange (fn range : Nat) (r : HostReq) : Bool := r.fn == fn && (match r.use with
  | .trans g _ => g == range
  | _ => false)

/-- A translation request for a range, unless one is outstanding (R548) or no tag is free (R545); then what waits for the range goes
on waiting. -/
def askTrans (s : State) (fn ch range : Nat) (write : Bool) (tries : Nat) : State :=
  if s.host.reqs.any (asksRange fn range) ∨ s.host.failed.any (asksRange fn range) ∨ !tagReady s fn then s
  else
    let tag := nextTag s fn
    let r : HostReq := { fn := fn, tag := tag, use := .trans range write, ch := ch, addr := range * 2097152, len := 8, got := [],
                         tries := tries, used := none, stale := false, abandoned := false, timedOut := false }
    emit (modHost s (fun h => { takeTag s fn with reqs := h.reqs ++ [r] })) (.translationRequest fn tag (range * 2097152) write)

/-- An access misses the translation cache (R524, R548): it is counted, and its range asked for. -/
def transMiss (s : State) (fn ch range : Nat) (write : Bool) : State := askTrans (hgCount s fn 0) fn ch range write 0

/-- An AER report for a function (R528, R544, R546): 0 Unsupported Request, 1 completion timeout, 2 unexpected completion. -/
def aer (s : State) (f : Func) (kind : Nat) : State := emit s (.aer f kind)

/-- A posted memory request to BAR0 of a function: one to a function that does not exist reaches nothing, and one while Memory Space
Enable is 0 is an Unsupported Request, dropped and reported (R528). -/
def barOpen (s : State) (f : Func) (g : State → State) : State :=
  if !fnExists s f then s else if !(s.fn f).mse then aer s f 0 else g s

/-- A write of the host to BAR0 of a function, while the host port is open (R90). -/
def whenBar (s : State) (f : Func) (g : State → State) : Out := whenHost s (barOpen · f g)

/-- A look at TX_BUSY. It clears within 2 µs of GO (R531); whether it has by the time of the look is a free value (log entry 187). -/
def fragmentLook (s : State) (f : Func) : State :=
  if (s.fn f).mbx = .receiving ∧ (s.fn f).txBusy = true then
    modHost (modFn s f (fun x => { x with txBusy := !Config.fragmentTaken s.host.looks })) (fun h => { h with looks := h.looks + 1 })
  else s

/-! ### MSI-X (R526) -/

/-- The message address of a vector (R522, R526; PCIe). -/
def msixAddr (x : HostFn) (v : Nat) : Nat := leNat (mread 0 x.msixTab (16 * v) 8)

/-- Channel number of a request that is no channel's. -/
def noCh : Nat := 512

/-- A message goes out. A VF whose ATS Enable is 1 writes it to a translated address (R547): on a miss it waits for the translation,
and where none is usable it fails at once with cause 0x0E (R552; log entry 171). -/
def msixSend (s : State) (raw : Option (Nat × Nat)) (f : Func) (v : Nat) : State :=
  match f with
  | .vf n =>
    let a := msixAddr (s.fn f) v
    (match translate s raw (n + 2) a true with
      | .go _ _ used => emit (atcTouch s (n + 2) used) (.msix f v)
      | .miss => transMiss (modFn s f (fun x => { x with msixWait := x.msixWait ||| (1#10 <<< v) })) (n + 2) noCh (rangeOf a) true
      | .denied => modFn s f (fun x => { x with msixCause := 0x0E }))
  | _ => emit s (.msix f v)

/-- The three conditions of R526, with the host port open (R90). -/
def msixOpen (s : State) (f : Func) (v : Nat) : Bool :=
  (s.fn f).bme && (s.fn f).msixEn && !(s.fn f).msixMask.getLsbD v && !s.pins.boundaryControls

/-- R526: a vector is sent while Bus Master Enable and MSI-X Enable are 1 and it is unmasked, and the host port is open (R90); else
its pending bit sets. -/
def msix (s : State) (f : Func) (v : Nat) : State :=
  if msixOpen s f v then msixSend s none f v else modFn s f (fun x => { x with msixPend := x.msixPend ||| (1#10 <<< v) })

/-- Pending vectors whose conditions hold are sent. -/
def msixRelease (s : State) (f : Func) : State :=
  (List.range 10).foldl (fun s v =>
    if (s.fn f).msixPend.getLsbD v && msixOpen s f v then
      msixSend (modFn s f (fun x => { x with msixPend := x.msixPend &&& ~~~(1#10 <<< v) })) none f v
    else s) s

/-! ### Alarms and journal records (R565-R571) -/

/-- Where a KIND goes beside the journal (R566): to the PF0 fault window (H), to the Cable ring (C). -/
def routeH (k : Nat) : Bool :=
  k ∈ [0x0003, 0x0006, 0x0007, 0x0008, 0x0100, 0x0101, 0x0102, 0x0103, 0x0104, 0x0105, 0x0200, 0x0201, 0x0202, 0x0203,
    0x0204, 0x0205, 0x0300, 0x0301, 0x0302, 0x0402, 0x0404, 0x0500, 0x0501, 0x0502, 0x0505, 0x0506, 0x0507]
def routeC (k : Nat) : Bool :=
  k ∈ [0x0006, 0x0007, 0x0100, 0x0101, 0x0102, 0x0103, 0x0104, 0x0105, 0x0202, 0x0300, 0x0301, 0x0500, 0x0501]

/-- The decoded state as R193 codes it (LC_STATE's codes are the same). -/
def lcByte (s : State) : Byte := s.lc.state.setWidth 8

/-- R565: a report coalesces with a waiting one of the same source and KIND; COUNT saturates at 65,535. -/
def coalesce (q : List AlarmEntry) (e : AlarmEntry) : List AlarmEntry :=
  match q with
  | [] => [e]
  | x :: t =>
    if x.kind = e.kind ∧ x.srcKind = e.srcKind ∧ x.srcInst = e.srcInst then
      { x with count := min 65535 (x.count + e.count) } :: t
    else x :: coalesce t e

/-- ALARM_RAISE (R565): an island puts a report into its outbound queue. -/
def alarm (s : State) (i : Island) (kind : BitVec 16) (a0 a1 : Word) : State :=
  let e : AlarmEntry := { srcKind := srcKindOf i, srcInst := BitVec.ofNat 16 (instOf i), kind := kind, count := 1,
                          arg0 := a0, arg1 := a1, data := zeros 16 }
  { s with jrn := { s.jrn with queues := tmod [] s.jrn.queues (islandIx i) (coalesce · e) } }

/-! ### Vault entries: layouts, tags and use (R206, R207, R209, R212, R215) -/

/-- ATTR of a slot (R209). -/
def attrWord (d : DeviceSlot) : Word :=
  d.dest.setWidth 32 ||| (if d.expire then 0x10000 else 0) ||| (if d.valid then 0x40000 else 0) |||
    (if d.unusable then 0x80000 else 0)

/-- Bytes 0-15 of a slot (R212). -/
def slotHead (d : DeviceSlot) : Bytes :=
  [d.typ, 0x01] ++ toLe 2 d.material.length ++ toLe 4 (attrWord { d with unusable := false }).toNat ++
    toLe 4 d.epoch.toNat ++ toLe 2 d.berth.toNat ++ zeros 2

/-- The tag of slot k under TAG_KEY. -/
def slotTag (key : Bytes) (k : Nat) (d : DeviceSlot) : Bytes := cmac key ([0x00] ++ toBe 2 k ++ slotHead d ++ d.material)

/-- FLAGS of a record (R215). -/
def recordFlags (r : BerthRecord) : Byte :=
  BitVec.ofNat 8 (b2n r.opened + 2 * b2n r.curGen + 4 * b2n r.rotating + 8 * b2n r.weight.isSome +
    16 * b2n r.bounce.isSome + 32 * b2n r.pair.isSome + 64 * b2n r.unusable)

/-- Bytes 0-239 of record b (R215). -/
def recordHead (b : Nat) (r : BerthRecord) : Bytes :=
  toLe 2 b ++ [0x01, recordFlags { r with unusable := false }] ++ toLe 4 r.epoch.toNat ++ [r.sweepShare] ++ zeros 7 ++
    padTo 32 (r.t2Seed0.getD []) ++ padTo 32 (r.t2Seed1.getD []) ++ padTo 32 (r.weight.getD []) ++
    padTo 32 (r.bounce.getD []) ++ padTo 32 (r.pair.getD []) ++ padTo 48 (r.pressSeed.getD []) ++ zeros 16

def recordTag (key : Bytes) (b : Nat) (r : BerthRecord) : Bytes := cmac key ([0x01] ++ toBe 2 b ++ recordHead b r)

/-- A slot stored with its EPOCH incremented and its tag. -/
def putSlot (s : State) (k : Nat) (d : DeviceSlot) : State :=
  let d' := { d with epoch := (s.slot k).epoch + 1, unusable := false, bad := false }
  { s with vault := { s.vault with slots := tset s.vault.slots k { d' with tag := slotTag s.vault.tagKey k d' } } }

/-- PF1's summary shows ROTATING of a berth: a change of it raises vector 1 (R525, R526). -/
def rotationSeen (old : BerthRecord) (t : State) (b : Nat) : State :=
  if old.rotating = (t.record b).rotating then t else msix t .pf1 1

/-- A record stored as given, with its tag. -/
def putRecord (s : State) (b : Nat) (r : BerthRecord) : State :=
  rotationSeen (s.record b) { s with vault := { s.vault with records := tset s.vault.records b { r with tag := recordTag s.vault.tagKey b r } } } b

/-- A change to a record: EPOCH rises (R228). -/
def changeRecord (s : State) (b : Nat) (r : BerthRecord) : State := putRecord s b { r with epoch := r.epoch + 1 }

/-- An entry that can be used: not UNUSABLE, every word correctable, its tag good (R207). -/
def slotSound (s : State) (k : Nat) : Bool :=
  !(s.slot k).unusable && !(s.slot k).bad && (s.slot k).tag == slotTag s.vault.tagKey k (s.slot k)
def recordSound (s : State) (b : Nat) : Bool :=
  !(s.record b).unusable && !(s.record b).bad && (s.record b).tag == recordTag s.vault.tagKey b (s.record b)

/-- A slot that may serve an engine of a class: VALID, sound, its DEST bit set, and not one of slots 0-3 under an invasive grant
(R198, R207, R210). -/
def slotServes (s : State) (k cls : Nat) : Bool :=
  (s.slot k).valid && slotSound s k && (s.slot k).dest.getLsbD cls && !(s.vault.invOpen && decide (k < 4))

/-- VAULT_TAG_FAIL (R207): the entry is UNUSABLE, TAG_FAIL sets, and the alarm is raised. -/
def failSlot (s : State) (k : Nat) : State :=
  alarm { s with vault := { s.vault with tagFail := true, slots := tset s.vault.slots k { s.slot k with unusable := true } } }
    .vaultFuse 0x0302 0 (BitVec.ofNat 32 k)
def failRecord (s : State) (b : Nat) : State :=
  alarm { s with vault := { s.vault with tagFail := true, records := tset s.vault.records b { s.record b with unusable := true } } }
    .vaultFuse 0x0302 1 (BitVec.ofNat 32 b)

/-- Use of a slot by a command: its tag is checked, and a failure marks it. The Bool says the use may go on. -/
def useSlot (s : State) (k : Nat) : State × Bool :=
  if slotSound s k then (s, true)
  else if (s.slot k).unusable then (s, false)
  else (failSlot s k, false)
def useRecord (s : State) (b : Nat) : State × Bool :=
  if recordSound s b then (s, true)
  else if (s.record b).unusable then (s, false)
  else (failRecord s b, false)

/-- The check a use makes of a VALID slot (R207). -/
def touchSlot (s : State) (k : Nat) : State := if (s.slot k).valid then (useSlot s k).1 else s

/-! ### Journal records and their routes -/

/-- One ALARM_NOTIFY message to the endpoint that assigned MB3's ID (R567). -/
def sendNotify (s : State) (kind : BitVec 16) (count : Nat) (event : DWord) : State :=
  sendVendor s s.ring.owner true (.alarmNotify s.ring.owner kind count event)
    [[0x02], toLe 2 kind.toNat, toLe 2 count, toLe 8 event.toNat]

/-- ALARM_NOTIFY (R567): at most one message for each KIND in a second, and none before Set Endpoint ID. -/
def notify (s : State) (kind : BitVec 16) (count : Nat) (event : DWord) : State :=
  let x := tget notifyInit s.ring.notify kind.toNat
  if s.ring.eid = 0 ∨ x.holdoff then
    { s with ring := { s.ring with notify := tset s.ring.notify kind.toNat { x with count := x.count + count, event := event } } }
  else sendNotify { s with ring := { s.ring with notify := tset s.ring.notify kind.toNat { holdoff := true, count := 0, event := event } } }
      kind (min 65535 (x.count + count)) event

/-- R568: a record posted to the fault window; an unread record may be overwritten, and vector 1 is raised when PROD
leaves equality with CONS. -/
def fltPost (s : State) (rcd : Bytes) : State :=
  let j := s.jrn
  let s1 := { s with jrn := { j with
    fltRecs := tset j.fltRecs (j.fltProd.toNat % 256) rcd
    overrun := j.overrun || decide ((j.fltProd - j.fltCons).toNat ≥ 256)
    fltProd := j.fltProd + 1 } }
  if j.fltProd = j.fltCons then msix s1 .pf0 1 else s1

/-- The rights that are invasive (R192): bits 0, 1, 2, 4, 6 and 7. -/
def invasiveMask : BitVec 10 := 0x0D7

/-- A record's SALT is drawn: DRBG_OK is 1, and no invasive right is open (R199, R570). -/
def saltDrawn (s : State) : Bool := s.vault.drbgOk && s.lc.grant &&& invasiveMask == 0

/-- The 64 bytes of a record (R570). The tag is AES-256-GCM under device slot 6; SALT and TAG are zero once an invasive
grant has destroyed the slot (R199); TAG is zero while the vault refuses its use (R207), and SALT while the DRBG is not healthy. -/
def recordBytes (s : State) (event : DWord) (e : AlarmEntry) : Bytes :=
  let keyed := slotServes s 6 9
  let salt := if saltDrawn s then drawBytes s 4 else zeros 4
  let head := toLe 8 event.toNat ++ toLe 2 e.kind.toNat ++ [e.srcKind, lcByte s] ++ toLe 2 e.srcInst.toNat ++
    toLe 2 e.count ++ toLe 4 e.arg0.toNat ++ toLe 4 e.arg1.toNat ++ padTo 16 e.data ++ salt
  let tag := if keyed then gcmTag (s.slot 6).material (toBe 8 event.toNat ++ salt) head [] else zeros 16
  head ++ tag ++ toLe 4 0x4A524E4C

/-- R571: a record joins the buffer of 256; a full buffer drops its oldest. -/
def bufferRecord (s : State) (rcd : Bytes) : State :=
  let b := s.jrn.buffer ++ [rcd]
  if b.length > 256 then
    let lost := leAt (b.getD 0 []) 0 4
    { s with jrn := { s.jrn with
        buffer := b.drop 1
        dropped := match s.jrn.dropped with
          | some (n, first) => some (n + 1, first)
          | none => some (1, lost) } }
  else { s with jrn := { s.jrn with buffer := b } }

/-- R560, R566: a drained entry takes the next event number, joins the journal and, unless it is for the journal alone, goes on by its
routes. At INDEX 2^32 - 1 one DROPPED record is written and none after it. -/
def recordEntryBy (routed : Bool) (s0 : State) (e0 : AlarmEntry) : State :=
  if s0.jrn.index ≥ 2 ^ 32 then s0
  else
    let s := touchSlot s0 6
    let e := if s.jrn.index = 2 ^ 32 - 1 then
        { e0 with kind := 0x0003, arg0 := 1, arg1 := 0xFFFFFFFF } else e0
    let event := BitVec.ofNat 64 (s.jrn.boot * 2 ^ 32 + s.jrn.index)
    let rcd := recordBytes s event e
    let s1 := if saltDrawn s then drew s 4 else s
    let s2 := bufferRecord { s1 with jrn := { s1.jrn with index := s1.jrn.index + 1 } } rcd
    let on := routed || e.kind != e0.kind
    let s3 := if on && routeH e.kind.toNat then fltPost s2 rcd else s2
    if on && routeC e.kind.toNat then notify s3 e.kind e.count event else s3

/-- A drained entry with its routes. -/
def recordEntry (s : State) (e : AlarmEntry) : State := recordEntryBy true s e

/-- An entry Pilot takes: before the journal scan has ended it waits for its event number (R572). -/
def takeEntry (s : State) (e : AlarmEntry) : State :=
  if s.jrn.scanned then recordEntry s e else { s with jrn := { s.jrn with early := s.jrn.early ++ [e] } }

/-- A record of Pilot's own. -/
def record (s : State) (kind : BitVec 16) (a0 a1 : Word) : State :=
  takeEntry s { srcKind := 0, srcInst := 0, kind := kind, count := 1, arg0 := a0, arg1 := a1, data := zeros 16 }

/-- A record of Pilot's own for the journal alone (R486). -/
def recordQuiet (s : State) (kind : BitVec 16) (a0 a1 : Word) : State :=
  let e : AlarmEntry := { srcKind := 0, srcInst := 0, kind := kind, count := 1, arg0 := a0, arg1 := a1, data := zeros 16 }
  if s.jrn.scanned then recordEntryBy false s e else { s with jrn := { s.jrn with early := s.jrn.early ++ [e] } }

/-- Counter `i` of R573 advanced by `n`. -/
def bump (s : State) (i n : Nat) : State :=
  { s with jrn := { s.jrn with counters := tmod 0 s.jrn.counters i (· + n), countersDirty := true } }

/-! ### Progress codes and the halt (R68, R70, R130-R132) -/

/-- A progress code on MB_STAT; from 0x19 upward 0x21 shows while a settings migration is uncommitted (R304). -/
def showStat (s : State) (code : Byte) : State :=
  { s with pins := { s.pins with stat := if s.pilot.settings.migrating ∧ 0x19 ≤ code.toNat then 0x21 else code } }

/-- A startup milestone: the highest one reached is kept and shown (R84, R130). -/
def milestone (s : State) (code : Byte) : State :=
  if s.pilot.milestone.toNat ≤ code.toNat then
    showStat { s with pilot := { s.pilot with milestone := code } } code
  else s

/-- Step 3.1 of R96: once the microcode is installed, 0x13 shows that MB3 waits for the ordering token (R130). -/
def showWait (s : State) : State :=
  if s.ring.token = .waiting ∧ s.pilot.milestone = 0x12 then milestone s 0x13 else s

/-- An ordering token sent on, if one is held (R86, R87). -/
def forwardToken (s : State) : State :=
  match s.ring.held with
  | some f => sendRing { s with ring := { s.ring with held := none, secondLimit := false } } f
  | none => { s with ring := { s.ring with secondLimit := false } }

/-- The halt (R70, R132): MB_HALT_N low, the halt code shown, and a held token forwarded at once (R87). -/
def halt (s : State) (code : Byte) : State :=
  forwardToken { s with
    pins := { s.pins with stat := code, haltLow := true }
    ring := { s.ring with ready := false }
    pilot := { s.pilot with phase := .halted, haltCode := code } }

end Sys2Proof.Machine
end

