-- ==== Sys2Proof/Machine/Fuse.lean ====
section
/-! DEFINITION. The fuse array (04): the word code, classes, region states, alarms, the checks of every FUSE_CMD
operation, the pulse-by-pulse burn of R157, tacks, and sensing. -/

namespace Sys2Proof.Machine

/-! ### The word code (R139) -/

/-- The positions of the 64 data bits in the Hamming word: 3 to 71 without the powers of two. -/
def dataPos : List Nat := (List.range 72).filter (fun p => p ∉ [0, 1, 2, 4, 8, 16, 32, 64])

/-- Number of ones. -/
def popcount {n : Nat} (v : BitVec n) : Nat := (List.range n).foldl (fun c i => c + b2n (v.getLsbD i)) 0

/-- Hamming check bits c0 to c6 of 64 data bits: the exclusive or of the positions whose data bit is 1. -/
def hammingCheck (d : BitVec 64) : BitVec 7 :=
  ((List.range 64).zip dataPos).foldl (fun c p => if d.getLsbD p.1 then c ^^^ BitVec.ofNat 7 p.2 else c) 0

/-- The codeword of a value: data in [63:0], ci in bit 64 + i, c7 making the number of ones even. -/
def fuseEncode (d : BitVec 64) : BitVec 72 :=
  let c := hammingCheck d
  let c7 : BitVec 1 := if (popcount d + popcount c) % 2 = 1 then 1 else 0
  (c7 ++ c) ++ d

/-- What decoding a raw word says. -/
inductive EccResult where
  | valid
  | single (bit : Nat)
  | bad
  deriving DecidableEq, Repr

/-- The bit of the 72 at a Hamming position: a check bit at a power of two, else a data bit. -/
def bitOfPos (p : Nat) : Option Nat :=
  match [1, 2, 4, 8, 16, 32, 64].findIdx? (· == p) with
  | some i => some (64 + i)
  | none => dataPos.findIdx? (· == p)

/-- Decoding (R139). -/
def eccDecode (raw : BitVec 72) : EccResult :=
  let syn := (hammingCheck (raw.setWidth 64) ^^^ raw.extractLsb' 64 7).toNat
  let odd := popcount raw % 2 = 1
  if syn = 0 then (if odd then .single 71 else .valid)
  else if odd then
    match bitOfPos syn with
    | some b => .single b
    | none => .bad
  else .bad

/-- One bit of a word turned over. -/
def flipBit (raw : BitVec 72) (b : Nat) : BitVec 72 := raw ^^^ (1#72 <<< b)

/-- Classing of a word from its three reads (R140). All ones at every reference is Wiped even though it is also a
codeword (DEDUCED, log entry 16). DESIGN CHOICE (log entry 145): a word whose nominal read is all zero is Blank even
where the low or high read differs, since R140's Blank row asks only for the nominal read; and a first pulse cut so that
its one bit reads 1 at nominal but not at high margin leaves the word Marginal with the value 0 that R140 decodes. -/
def classify (c : FuseCell) : FuseShadow :=
  let marg := decide (c.nominal ≠ c.low ∨ c.nominal ≠ c.high)
  let chk : Byte := c.nominal.extractLsb' 64 8
  if c.nominal = 0 then { cls := .blank, value := 0, marg := marg, rawCheck := chk }
  else if c.nominal = BitVec.allOnes 72 ∧ c.low = BitVec.allOnes 72 ∧ c.high = BitVec.allOnes 72 then
    { cls := .wiped, value := 0, marg := marg, rawCheck := chk }
  else
    match eccDecode c.nominal with
    | .valid => { cls := if marg then .marginal else .clean, value := c.nominal.setWidth 64, marg := marg, rawCheck := chk }
    | .single b =>
      if ((c.nominal ^^^ c.low) ||| (c.nominal ^^^ c.high)).getLsbD b then
        { cls := .marginal, value := (flipBit c.nominal b).setWidth 64, marg := marg, rawCheck := chk }
      else { cls := .torn, value := 0, marg := marg, rawCheck := chk }
    | .bad => { cls := .torn, value := 0, marg := marg, rawCheck := chk }

/-! ### Regions (R145, R152) -/

inductive RegionKind where
  | lifecycle | static | step | reserved
  deriving DecidableEq, Repr

/-- Kind of a region (R145). -/
def regionKind (r : Nat) : RegionKind :=
  if r = 0 then .lifecycle
  else if r = 4 ∨ (10 ≤ r ∧ r ≤ 20) then .step
  else if r ≥ 30 then .reserved
  else .static

/-- Regions 1 and 9 are secret (R145). -/
def regionSecret (r : Nat) : Bool := r == 1 || r == 9

/-- Life-cycle states in which a region may be programmed (R145); states by LC_STATE code. Region 0 passes, since its
own check refuses it with 0x05 (R158). -/
def programmable (r : Nat) (lc : BitVec 4) : Bool :=
  if r = 0 ∨ r = 4 ∨ (10 ≤ r ∧ r ≤ 19) then lc == 1 || lc == 2 || lc == 3 || lc == 4
  else if r = 1 ∨ r = 2 ∨ r = 3 ∨ r = 8 ∨ r = 29 then lc == 1
  else if r = 5 ∨ r = 20 then lc == 1 || lc == 2
  else if r = 6 then lc == 1 || lc == 4
  else if r = 7 ∨ r = 9 then lc == 2
  else if 21 ≤ r ∧ r ≤ 28 then lc == 2 || lc == 3
  else false

/-- Reserved words: regions 30-31, region 5 words 64-123, region 20 words 64-127 (R173). -/
def wordReserved (w : Nat) : Bool :=
  let r := w / 128
  let i := w % 128
  decide (r ≥ 30) || (decide (r = 5) && decide (64 ≤ i ∧ i ≤ 123)) || (decide (r = 20) && decide (i ≥ 64))

def Fuse.sh (f : Fuse) (w : Nat) : FuseShadow := tget shadowBlank f.shadows w

/-- The fuses as this reset sensed them (R246, R293). -/
def Fuse.atReset (f : Fuse) : Fuse := { f with shadows := f.sensedShadows, tacks := [] }

/-- Words of a region. -/
def regionWords (f : Fuse) (r : Nat) : List FuseShadow := (List.range 128).map (fun i => f.sh (128 * r + i))

/-- The region's write-lock and read-lock words of region 20 are burned (R163-R165). -/
def wlocked (f : Fuse) (r : Nat) : Bool := (f.sh (128 * 20 + r)).cls != .blank
def rlocked (f : Fuse) (r : Nat) : Bool := (f.sh (128 * 20 + 32 + r)).cls != .blank

/-- The region digest (R150) over 124 word values. -/
def digestOf (r : Nat) (values : List (BitVec 64)) : Bytes :=
  (sha384 (ascii "MB3-FUSE-RGN" ++ [BitVec.ofNat 8 r, 0x01, 0x00, 0x00] ++
    (values.map (fun v => toLe 8 v.toNat)).flatten)).take 32

/-- The digest of a region's shadow values. -/
def regionDigest (f : Fuse) (r : Nat) : Bytes := digestOf r ((regionWords f r).take 124 |>.map (·.value))

/-- The value of digest word 124 + j (R150). -/
def digestWord (d : Bytes) (j : Nat) : BitVec 64 := BitVec.ofNat 64 (leAt d (8 * j) 8)

/-- The state of a Static region as FUSE_REGION_STAT codes it; 0b110 for a region that is not Static (R152, R174). -/
def regionState (f : Fuse) (r : Nat) : BitVec 3 :=
  if regionKind r ≠ .static then 6
  else
    let ws := regionWords f r
    let dig := regionDigest f r
    let ends := (List.range 4).map (fun j => (f.sh (128 * r + 124 + j), digestWord dig j))
    let final := ends.all (fun x => (x.1.cls == .clean || x.1.cls == .marginal) && x.1.value == x.2)
    let someBlank := ends.any (fun x => x.1.cls == .blank)
    let allBlank := ends.all (fun x => x.1.cls == .blank)
    if ws.all (fun x => x.cls == .wiped) then 7
    else if wlocked f r && !final then 5
    else if final then 3
    else if someBlank && !allBlank && ends.all (fun x => x.1.cls == .blank || (x.1.cls == .clean && x.1.value == x.2)) then 2
    else if !allBlank then 4
    else if ws.all (fun x => x.cls == .blank) then 0
    else 1

/-- A secret region can be used: Final with no word Marginal or Torn (R146). -/
def regionUsable (f : Fuse) (r : Nat) : Bool :=
  regionState f r == 3 && (regionWords f r).all (fun x => x.cls != .marginal && x.cls != .torn)

/-- The value of a step region (R148): one more than its highest non-Blank word. -/
def stepCount (f : Fuse) (r : Nat) : Nat :=
  ((regionWords f r).zip (List.range 128)).foldl (fun c x => if x.1.cls != .blank then x.2 + 1 else c) 0

/-- The value every reader receives (R166): a tack in effect, else the shadow. -/
def fuseValue (f : Fuse) (w : Nat) : BitVec 64 :=
  match f.tacks.find? (fun t => t.1 == w) with
  | some t => t.2
  | none => (f.sh w).value

/-- The policy words of region 5 as firmware and ROM read them (R153, R589). -/
def policyWord (f : Fuse) (i : Nat) : BitVec 64 := fuseValue f (128 * 5 + i)
def tokenWait (f : Fuse) : Nat := ((policyWord f 1).extractLsb' 0 6).toNat
/-- Minimum version `i` of word 2, where 0 acts as 1 (R153). -/
def minVersion (f : Fuse) (i : Nat) : Nat :=
  let v := ((policyWord f 2).extractLsb' (8 * i) 8).toNat
  if v = 0 then 1 else v

/-! ### Alarms (R154) -/

/-- A FUSE_ALARM bit set for a region and word, on the alarm path too. -/
def fuseAlarm (s : State) (bit region word : Nat) : State :=
  alarm { s with fuse := { s.fuse with alarm := s.fuse.alarm ||| (1#6 <<< bit), alarmEver := s.fuse.alarmEver ||| (1#6 <<< bit) } }
    .vaultFuse (BitVec.ofNat 16 (0x0100 + bit)) (BitVec.ofNat 32 region) (BitVec.ofNat 32 word)

/-- What a sensed word raises. -/
def wordAlarms (s : State) (w : Nat) : State :=
  match (s.shadow w).cls with
  | .marginal => fuseAlarm s 0 (w / 128) w
  | .torn => fuseAlarm s 1 (w / 128) w
  | _ => s

/-- What a sensed region raises: DIGEST_BAD, LOCK_NO_DIGEST, UNUSABLE (also a region not Wiped in Scrapped, R201). -/
def regionAlarms (s : State) (r : Nat) : State :=
  let st := regionState s.fuse r
  let s1 := if st = 4 then fuseAlarm s 2 r 0 else s
  let s2 := if st = 5 then fuseAlarm s1 3 r 0 else s1
  if regionSecret r && st != 0 && !regionUsable s.fuse r then fuseAlarm s2 5 r 0 else s2

/-! ### Sensing -/

/-- A word sensed at three references into its shadow. -/
def senseWord (f : Fuse) (w : Nat) : Fuse := { f with shadows := tset f.shadows w (classify (tget cellBlank f.cells w)) }

/-- The cells as they read now: the ones named read as given. -/
def drifted (f : Fuse) (drift : List (Nat × FuseCell)) : Fuse :=
  { f with cells := drift.foldl (fun c d => if d.1 < 4096 then tset c d.1 d.2 else c) f.cells }

/-- Re-sensing keeps the shadow value: only the class changes, and a word that now decodes to another value is Torn (R144). -/
def resenseWord (f : Fuse) (w : Nat) : Fuse :=
  let old := f.sh w
  let new := classify (tget cellBlank f.cells w)
  let cls := if new.value = old.value then new.cls else .torn
  { f with shadows := tset f.shadows w { cls := cls, value := old.value, marg := new.marg, rawCheck := new.rawCheck } }

/-- The words that hold anything: listed cells and shadows of a range. -/
def listedWords (f : Fuse) (lo hi : Nat) : List Nat :=
  (List.range (hi - lo)).map (lo + ·) |>.filter (fun w => (tfind f.cells w).isSome || (tfind f.shadows w).isSome)

/-- What a word that has been sensed anew raises for the regions it bears on (R154): the word's own region, and region i
for the write-lock word i of region 20 (R165). -/
def changedRegionAlarms (s : State) (w : Nat) : State :=
  let s1 := regionAlarms s (w / 128)
  if w / 128 = 20 ∧ w % 128 < 32 then regionAlarms s1 (w % 128) else s1

/-- Re-sensing of words `lo` to `hi - 1` with the alarms it raises (R144, R154): those of its regions, and of each region whose
write-lock word is not Blank in it. -/
def resenseRange (s : State) (lo hi : Nat) (drift : List (Nat × FuseCell)) : State :=
  let ws := listedWords (drifted s.fuse drift) lo hi
  let s1 := { s with fuse := ws.foldl resenseWord (drifted s.fuse drift) }
  let s2 := ws.foldl wordAlarms s1
  let s3 := ((List.range 32).filter (fun r => decide (lo ≤ 128 * r ∧ 128 * r < hi))).foldl regionAlarms s2
  ((List.range 32).filter (fun i => ws.contains (2560 + i) && !decide (lo ≤ 128 * i ∧ 128 * i < hi) &&
    (s3.shadow (2560 + i)).cls != .blank)).foldl regionAlarms s3

/-! ### The order of a burn (R157) -/

/-- Bits that read 1 at all three references. -/
def cellSolid (c : FuseCell) : BitVec 72 := c.nominal &&& c.low &&& c.high

/-- Two lists taken alternately, the first first; when one ends, the rest of the other. -/
def alternate : List Nat → List Nat → List Nat
  | [], ys => ys
  | x :: xs, ys => x :: (match ys with
    | [] => xs
    | y :: ys => y :: alternate xs ys)

/-- The candidate order: target data bits and target check bits in turn, without the bits already solid. -/
def candidates (solid target : BitVec 72) : List Nat :=
  let need (i : Nat) : Bool := target.getLsbD i && !solid.getLsbD i
  alternate ((List.range 64).filter need) (((List.range 8).map (64 + ·)).filter need)

/-- Burning this bit next would form a codeword other than the target. -/
def blocked (have_ target : BitVec 72) (b : Nat) : Bool :=
  let m := have_ ||| (1#72 <<< b)
  m != target && eccDecode m == .valid

/-- The first bit of a list that may be burned, with the list without it. -/
def firstFree (have_ target : BitVec 72) : List Nat → Option (Nat × List Nat)
  | [] => none
  | b :: bs =>
    if blocked have_ target b then
      match firstFree have_ target bs with
      | some (x, r) => some (x, b :: r)
      | none => none
    else some (b, bs)

/-- The order in which bits are burned: deferred bits are tried again before the next candidate. -/
def orderBits (target : BitVec 72) : Nat → BitVec 72 → List Nat → List Nat → List Nat
  | 0, _, _, _ => []
  | fuel + 1, have_, deferred, cands =>
    match firstFree have_ target deferred with
    | some (b, rest) => b :: orderBits target fuel (have_ ||| (1#72 <<< b)) rest cands
    | none =>
      match cands with
      | [] => []
      | c :: cs =>
        if blocked have_ target c then orderBits target fuel have_ (deferred ++ [c]) cs
        else c :: orderBits target fuel (have_ ||| (1#72 <<< c)) deferred cs

/-- The bits a word still needs for its target codeword, in burn order. -/
def burnOrder (c : FuseCell) (target : BitVec 72) : List Nat :=
  orderBits target 200 (cellSolid c) [] (candidates (cellSolid c) target)

/-! ### Operations -/

/-- A word of an operation re-sensed with its alarms (R157 step e), and those of its region once no word of it is left: what a region is
for an instant inside SEAL or FINALISE raises nothing (DESIGN CHOICE, log entry 174; R154 does not say). -/
def wordSensed (s : State) (sealing : Option Nat) (w : Nat) (rest : List (Nat × BitVec 72)) : State :=
  let s1 := wordAlarms { s with fuse := senseWord s.fuse w } w
  if sealing.isSome || rest.any (fun x => x.1 / 128 == w / 128) then s1 else changedRegionAlarms s1 w

/-- Start of the next word that needs a pulse; words that need none are re-sensed at once. `none`: every word is done. -/
def fuseNext (s : State) (owner : FuseOwner) (sealing : Option Nat) : List (Nat × BitVec 72) → State × Option FuseOp
  | [] => (s, none)
  | (w, cw) :: rest =>
    match burnOrder (tget cellBlank s.fuse.cells w) cw with
    | [] => fuseNext (wordSensed s sealing w rest) owner sealing rest
    | bits => (s, some { owner := owner, sealing := sealing, todo := (w, cw) :: rest, bits := bits, tries := 0 })

/-- Words 0-123 of a region hold a Torn or Marginal word, which finalising refuses with 0x0B (R151). -/
def unfit (f : Fuse) (r : Nat) : Bool := ((regionWords f r).take 124).any (fun x => x.cls == .torn || x.cls == .marginal)

/-- The four digest words of a region with their codewords. -/
def digestWords (r : Nat) (d : Bytes) : List (Nat × BitVec 72) :=
  (List.range 4).map (fun j => (128 * r + 124 + j, fuseEncode (digestWord d j)))

/-- The words of an operation from here on: the next that needs a pulse, or the code it ends with. A SEAL whose drawn
words are burned finalises its region from their shadows (R147), and stops with 0x0B where R151 does. -/
def fuseGo (s : State) (owner : FuseOwner) (sealing : Option Nat) (todo : List (Nat × BitVec 72)) : State × (FuseOp ⊕ Byte) :=
  match fuseNext s owner sealing todo, sealing with
  | (s1, some op), _ => (s1, .inl op)
  | (s1, none), none => (s1, .inr 0)
  | (s1, none), some r =>
    if unfit s1.fuse r then (regionAlarms s1 r, .inr 0x0B)
    else match fuseNext s1 owner none (digestWords r (regionDigest s1.fuse r)) with
      | (s2, some op) => (s2, .inl op)
      | (s2, none) => (s2, .inr 0)

/-- The end of a FUSE_CMD operation: DONE sets and LAST_ERR takes the code (R169). -/
def fuseEnd (s : State) (err : Byte) : State :=
  { s with fuse := { s.fuse with op := none, busy := false, done := true, lastErr := err } }

/-- A FUSE_CMD that a check refuses ends at once with its code. -/
def fuseRefuse (s : State) (err : Byte) : State := fuseEnd s err

/-- An accepted operation begins burning its words; a fuse program event is counted (R573) unless it is an anchor burn.
With nothing to pulse it ends at once. -/
def fuseBegin (s : State) (sealing : Option Nat) (todo : List (Nat × BitVec 72)) : State :=
  match fuseGo s .command sealing todo with
  | (s1, .inl op) => { s1 with fuse := { s1.fuse with op := some op, busy := true } }
  | (s1, .inr c) => fuseEnd s1 c

/-- The codeword of a value covers every bit the word reads at the nominal reference (R158). -/
def covers (f : Fuse) (w : Nat) (v : BitVec 64) : Bool :=
  let raw := (tget cellBlank f.cells w).nominal
  raw &&& ~~~(fuseEncode v) == 0

/-- The code that refuses to burn the write-lock word of region r (R164, R165), or 0. In compatibility mode R165 gives
no code for a region that is not Blank, Open or Finalising; the model gives 0x05 (DESIGN CHOICE, log entry 145), and
lets a write-lock word already burned be completed or strengthened, and a Final region be locked. -/
def lockCode (f : Fuse) (r : Nat) : Byte :=
  let st := regionState f r
  if !f.compat then (if st = 3 then 0 else 0x0E)
  else if wlocked f r ∨ st = 0 ∨ st = 1 ∨ st = 2 ∨ st = 3 then 0
  else 0x05

/-- The checks of PROGRAM in the order of R158, with the write-lock word's own after the class and region checks: the
code of the first that fails, or 0. -/
def programCheck (lc : BitVec 4) (f : Fuse) (w : Nat) (v : BitVec 64) : Byte :=
  let r := w / 128
  let sh := f.sh w
  let same := (sh.cls == .clean || sh.cls == .marginal) && sh.value == v
  let st := regionState f r
  if wordReserved w then 0x11
  else if !programmable r lc then 0x04
  else if r = 0 ∨ r = 1 ∨ r = 9 ∨ (10 ≤ r ∧ r ≤ 19) then 0x05
  else if regionKind r = .static ∧ w % 128 ≥ 124 ∧ !same then 0x05
  else if (r = 4 ∨ r = 20) ∧ v ≠ BitVec.allOnes 64 then 0x06
  else if sh.cls = .blank ∧ v = 0 then 0x07
  else if (sh.cls = .clean ∨ sh.cls = .marginal) ∧ sh.value ≠ v then 0x06
  else if sh.cls = .torn ∧ !covers f w v then 0x06
  else if sh.cls = .wiped then 0x06
  else if regionKind r = .static ∧
      !(match sh.cls with
        | .blank => (st == 0 || st == 1) && !wlocked f r
        | .torn => st == 1 && !wlocked f r
        | _ => st == 0 || st == 1 || st == 3 || st == 5) then 0x05
  else if r = 20 ∧ w % 128 < 32 ∧ lockCode f (w % 128) ≠ 0 then lockCode f (w % 128)
  else if !f.vppOk then 0x08
  else 0

/-- The frame of every FUSE_CMD write: ignored with 0x01 while an operation or a transition runs (R159, R184), ignored
with 0x02 for a wrong ARM (R170); else WORD is taken and the operation's own function runs. -/
def fuseCommand (s : State) (arm : Byte) (word : BitVec 12) (f : State → State) : State :=
  if s.fuse.busy || s.lc.busy then { s with fuse := { s.fuse with lastErr := 0x01 } }
  else if arm ≠ 0xA5 then { s with fuse := { s.fuse with lastErr := 0x02 } }
  else f { s with fuse := { s.fuse with cmdWord := word } }

/-- PROGRAM of a word with a value. -/
def fuseProgram (s : State) (w : Nat) (v : BitVec 64) : State :=
  match programCheck s.lc.state s.fuse w v with
  | 0 => fuseBegin (bump s 4 1) none [(w, fuseEncode v)]
  | e => fuseRefuse s e

/-- The checks of INCREMENT (R149, R158). -/
def incrementCheck (lc : BitVec 4) (f : Fuse) (r : Nat) : Byte :=
  if !(10 ≤ r ∧ r ≤ 19) then 0x05
  else if !programmable r lc then 0x04
  else if (f.sh (128 * r + 127)).cls ≠ .blank then 0x0F
  else if !f.vppOk then 0x08
  else 0

/-- The word INCREMENT burns: the lowest Blank word above the highest non-Blank one (R149). -/
def incrementWord (f : Fuse) (r : Nat) : Nat := 128 * r + stepCount f r

/-- The checks of FINALISE (R147, R151). -/
def finaliseCheck (lc : BitVec 4) (f : Fuse) (r : Nat) : Byte :=
  let st := regionState f r
  if r ≥ 30 then 0x11
  else if !programmable r lc then 0x04
  else if regionSecret r ∧ st ≠ 2 then 0x0D
  else if st ≠ 1 ∧ st ≠ 2 then 0x0D
  else if unfit f r then 0x0B
  else if f.tacks.any (fun t => t.1 / 128 == r) then 0x0C
  else if !f.vppOk then 0x08
  else 0

/-- The checks of SEAL (R147). -/
def sealCheck (s : State) (r : Nat) : Byte :=
  if r ≥ 30 then 0x11
  else if !programmable r s.lc.state then 0x04
  else if !regionSecret r then 0x0D
  else if regionState s.fuse r ≠ 0 then 0x0D
  else if !s.vault.drbgOk then 0x14
  else if !s.fuse.vppOk then 0x08
  else 0

/-- The checks of LOCK_WRITE on region r: those of PROGRAM on word r of region 20 (R149, R164, R165). -/
def lockWriteCheck (lc : BitVec 4) (f : Fuse) (r : Nat) : Byte := programCheck lc f (128 * 20 + r) (BitVec.allOnes 64)

def execProgram (arm : Byte) (word : BitVec 12) (s : State) : Out :=
  whenFuse s (fun s => fuseCommand s arm word (fun s => fuseProgram s word.toNat s.fuse.wdata))

/-- INCREMENT (R149). -/
def execIncrement (arm : Byte) (word : BitVec 12) (s : State) : Out :=
  whenFuse s (fun s => fuseCommand s arm word (fun s =>
    let r := word.toNat / 128
    match incrementCheck s.lc.state s.fuse r with
    | 0 => fuseBegin (bump s 4 1) none [(incrementWord s.fuse r, fuseEncode (BitVec.allOnes 64))]
    | e => fuseRefuse s e))

/-- FINALISE (R151): words 124 to 127 in that order. -/
def execFinalise (arm : Byte) (word : BitVec 12) (s : State) : Out :=
  whenFuse s (fun s => fuseCommand s arm word (fun s =>
    let r := word.toNat / 128
    match finaliseCheck s.lc.state s.fuse r with
    | 0 => fuseBegin (bump s 4 1) none (digestWords r (regionDigest s.fuse r))
    | e => fuseRefuse s e))

/-- LOCK_WRITE (R164): word r of region 20. -/
def execLockWrite (arm : Byte) (word : BitVec 12) (s : State) : Out :=
  whenFuse s (fun s => fuseCommand s arm word (fun s =>
    let r := word.toNat / 128
    match lockWriteCheck s.lc.state s.fuse r with
    | 0 => fuseBegin (bump s 4 1) none [(128 * 20 + r, fuseEncode (BitVec.allOnes 64))]
    | e => fuseRefuse s e))

/-- LOCK_READ (R163): word 32 + r of region 20. -/
def execLockRead (arm : Byte) (word : BitVec 12) (s : State) : Out :=
  whenFuse s (fun s => fuseCommand s arm word (fun s =>
    fuseProgram s (128 * 20 + 32 + word.toNat / 128) (BitVec.allOnes 64)))

/-- RESENSE (R144): one region, in one step; shadow values stay. -/
def execResense (arm : Byte) (word : BitVec 12) (drift : List (Nat × FuseCell)) (s : State) : Out :=
  whenFuse s (fun s => fuseCommand s arm word (fun s =>
    let r := word.toNat / 128
    fuseEnd (resenseRange s (128 * r) (128 * r + 128) (drift.filter (fun d => d.1 / 128 == r))) 0))

/-- RESENSE_ALL (R144). -/
def execResenseAll (arm : Byte) (word : BitVec 12) (drift : List (Nat × FuseCell)) (s : State) : Out :=
  whenFuse s (fun s => fuseCommand s arm word (fun s => fuseEnd (resenseRange s 0 4096 drift) 0))

/-- WIPE (R170): accepted only while a transition to Scrapped is in progress, and then the controller is taken (R184);
so a WIPE that is not ignored is refused with 0x10. -/
def execWipe (arm : Byte) (word : BitVec 12) (s : State) : Out :=
  whenFuse s (fun s => fuseCommand s arm word (fun s => fuseRefuse s 0x10))

/-- SEAL (R147): words 0-5 of a secret region drawn from the DRBG inside the controller, every one burned before the
region's digest words. -/
def execSeal (arm : Byte) (word : BitVec 12) (s : State) : Out :=
  whenFuse s (fun s => fuseCommand s arm word (fun s =>
    let r := word.toNat / 128
    match sealCheck s r with
    | 0 =>
      let drawn := drawBytes s 48
      let vals := (List.range 6).map (fun i => BitVec.ofNat 64 (leAt drawn (8 * i) 8))
      let words := (vals.zip (List.range 6)).map (fun x => (128 * r + x.2, fuseEncode x.1))
      fuseBegin (bump (drew s 48) 4 1) (some r) words
    | e => fuseRefuse s e))

/-- A reserved OP (R170) is refused with 0x03; an OP that the table of R170 does give is not this row's. -/
def execFuseReservedOp (arm : Byte) (word : BitVec 12) (op : BitVec 4) (s : State) : Out :=
  whenFuse s (fun s => if op = 0 ∨ 10 ≤ op.toNat then fuseCommand s arm word (fun s => fuseRefuse s 0x03) else s)

/-! ### Anchors of the life-long counters (R573, R574) -/

/-- Granule of counter i. -/
def granule (i : Nat) : Nat := [1024, 1024, 16, 65536, 64, 65536].getD i 1

/-- Anchor COUNT of counter i: step region 14 + i. -/
def anchorCount (s : State) (i : Nat) : Nat := stepCount s.fuse (14 + i)

/-- The anchors that lag the counters of the last committed COUNTERS record: ⌊C / G⌋ above COUNT and COUNT below 128. -/
def anchorsDue (s : State) : List Nat :=
  (List.range 6).filter (fun i => decide (anchorCount s i < min 128 (tget 0 s.jrn.settled i / granule i)))

/-- Pending anchors are marked, and while VPP_OK is 1 and the controller is free the first of them is burned by INCREMENT, which
is no fuse program event (R573). -/
def anchorBurn (s : State) : State :=
  let due := anchorsDue s
  let s1 := { s with jrn := { s.jrn with anchors := due.foldl (fun m i => m ||| (1#6 <<< i)) 0 } }
  match due with
  | i :: _ =>
    if s1.fuse.vppOk ∧ !s1.fuse.busy ∧ !s1.lc.busy then
      match incrementCheck s1.lc.state s1.fuse (14 + i) with
      | 0 => fuseBegin s1 none [(incrementWord s1.fuse (14 + i), fuseEncode (BitVec.allOnes 64))]
      | _ => s1
    else s1
  | [] => s1

/-- A fuse operation has ended well: a pending anchor gets its next INCREMENT. -/
def anchorNext (s : State) (c : Byte) : State := if c = 0 ∧ s.jrn.anchors ≠ 0 ∧ pilotUp s then anchorBurn s else s

/-! ### Pulses (R157, R160, R161) -/

/-- What a pulse left in one bit: it reads 1 at each reference named, and never loses a 1. -/
def pulseCell (c : FuseCell) (b : Nat) (level : BitVec 3) : FuseCell :=
  let m := 1#72 <<< b
  { nominal := if level.getLsbD 0 then c.nominal ||| m else c.nominal
    low := if level.getLsbD 1 then c.low ||| m else c.low
    high := if level.getLsbD 2 then c.high ||| m else c.high }

/-- The fuse array after a pulse on the bit in hand. -/
def pulseArray (f : Fuse) (level : BitVec 3) : Fuse :=
  match f.op with
  | some { todo := (w, _) :: _, bits := b :: _, .. } => { f with cells := tmod cellBlank f.cells w (pulseCell · b level) }
  | _ => f

/-- What a pulse and its verify read lead to. -/
inductive PulseNext where
  /-- The operation goes on. -/
  | goOn
  /-- Every word is burned, with code 0, or the operation stops with a code. -/
  | ended (code : Byte)
  deriving DecidableEq, Repr

/-- The word in hand re-sensed with its alarms, and the next word begun. -/
def fuseWordDone (s : State) (op : FuseOp) : State × PulseNext :=
  match op.todo with
  | [] => (s, .ended 0)
  | (w, _) :: rest =>
    match fuseGo (wordSensed s op.sealing w rest) op.owner op.sealing rest with
    | (s1, .inl op') => ({ s1 with fuse := { s1.fuse with op := some op' } }, .goOn)
    | (s1, .inr c) => (s1, .ended c)

/-- An operation stops at the word in hand: it is re-sensed, with the alarms of what it left (R154). -/
def wordStopped (s : State) (w : Nat) : State :=
  changedRegionAlarms (wordAlarms { s with fuse := senseWord s.fuse w } w) w

/-- One pulse with its verify read at the high-margin reference: the next bit, a retry (at most three), the next word,
or the end; a bit that fails after four pulses stops the operation with 0x0A. In the scrap wipe a bit that fails is skipped (R200). -/
def fusePulse (s : State) (level : BitVec 3) : State × PulseNext :=
  match s.fuse.op with
  | some op =>
    match op.todo, op.bits with
    | (w, _) :: _, b :: bs =>
      let s1 := { s with fuse := pulseArray s.fuse level }
      let good := (tget cellBlank s1.fuse.cells w).high.getLsbD b
      let skip := !good && decide (op.tries ≥ 3) && op.owner == .wipe
      if good || skip then
        match bs with
        | [] => fuseWordDone s1 op
        | _ => ({ s1 with fuse := { s1.fuse with op := some { op with bits := bs, tries := 0 } } }, .goOn)
      else if op.tries ≥ 3 then
        (wordStopped s1 w, .ended 0x0A)
      else ({ s1 with fuse := { s1.fuse with op := some { op with tries := op.tries + 1 } } }, .goOn)
    | _, _ => (s, .goOn)
  | none => (s, .goOn)

/-! ### Tacks (R166, R167) -/

/-- The staged entries that are enabled. -/
def tacksEnabled (f : Fuse) : List TackEntry :=
  ((List.range 16).map (fun t => tget tackInit f.tackStaged t)).filter (·.en)

/-- A tack may not name this word (R167). -/
def tackForbidden (f : Fuse) (w : Nat) : Bool :=
  let r := w / 128
  let st := regionState f r
  regionKind r != .static || regionSecret r || st == 3 || st == 2 || st == 5 || (r == 5 && decide (64 ≤ w % 128 ∧ w % 128 ≤ 123))

/-- No two words of the list are the same. -/
def distinctNats : List Nat → Bool
  | [] => true
  | x :: xs => !xs.contains x && distinctNats xs

/-- The code of a COMMIT (R167), 0 if it is accepted. -/
def tackCheck (s : State) : Byte :=
  let es := tacksEnabled s.fuse
  if !(s.lc.state == 1 || s.lc.state == 2 || s.lc.state == 4) then 0x13
  else if es.any (fun e => tackForbidden s.fuse e.word.toNat) then 0x13
  else if !distinctNats (es.map (·.word.toNat)) then 0x12
  else 0

/-- FUSE_TACK_COMMIT (R166, R167): all staged entries at once, or none. -/
def execFuseTackCommit (s : State) : Out :=
  whenFuse s (fun s =>
    match tackCheck s with
    | 0 => { s with fuse := { s.fuse with tacks := (tacksEnabled s.fuse).map (fun e => (e.word.toNat, e.value)) } }
    | e => { s with fuse := { s.fuse with lastErr := e } })

end Sys2Proof.Machine
end

