-- ==== Sys2Proof/Machine/Lifecycle.lean ====
section
/-! DEFINITION. Life-cycle states (05): decoding of region 0, transitions and their checks, tokens, the JTAG mailbox,
and the end of a burn or scrap wipe. -/

namespace Sys2Proof.Machine

/-! ### Region 0 (R177-R180) -/

/-- The state code of a slot (R178). -/
def slotCode (k : Nat) : BitVec 64 :=
  match k with
  | 0 => 0x3C5A96A56C935AC6
  | 1 => 0x96C35A3CA569C35A
  | 2 => 0xA5693CC3965A6C39
  | _ => 0x5AA5C3963C69A5C3

inductive SlotCond where
  | empty | done | pending
  deriving DecidableEq, Repr

/-- Condition of transition slot k (R179). -/
def slotCond (f : Fuse) (k : Nat) : SlotCond :=
  let st := f.sh (8 * k + 6)
  if (List.range 7).all (fun i => (f.sh (8 * k + i)).cls == .blank) then .empty
  else if st.cls = .clean ∧ st.value = slotCode k then .done
  else .pending

/-- A reserved word of region 0 is not Blank (R177). -/
def region0Dirty (f : Fuse) : Bool :=
  ([7, 15, 23, 31] ++ (List.range 96).map (32 + ·)).any (fun w => (f.sh w).cls != FuseClass.blank)

/-- The state that the Done slots below `k` decode to: 1 Maker to 4 Returned. -/
def prefixState (f : Fuse) : BitVec 4 :=
  match slotCond f 0 == .done, slotCond f 1 == .done, slotCond f 2 == .done with
  | false, false, false => 1
  | true, false, false => 2
  | true, true, false => 3
  | true, true, true => 4
  | _, _, _ => 0xF

/-- The decoded state (R180) by its LC_STATE code. -/
def lcDecode (f : Fuse) : BitVec 4 :=
  if slotCond f 3 = .done then 5
  else if region0Dirty f then 0xF
  else if (List.range 4).any (fun k => slotCond f k == .pending) then 0xF
  else prefixState f

/-- The slots that are Pending. -/
def pendingSlots (f : Fuse) : List Nat := (List.range 4).filter (fun k => slotCond f k == .pending)

/-- LC_STATE.TARGET (R202). -/
def lcTarget (s : State) : BitVec 4 :=
  if s.lc.doneThisBoot then s.lc.doneTarget
  else if s.lc.state = 0xF then
    match pendingSlots s.fuse with
    | [k] => BitVec.ofNat 4 (k + 2)
    | _ => 0
  else 0

/-! ### Identity fields -/

/-- HW_TYPE as four little-endian bytes and UNIT_SERIAL: bytes 12-31 of R193. -/
def unitBytes (f : Fuse) : Bytes :=
  toLe 4 ((fuseValue f 256).extractLsb' 32 32).toNat ++ toLe 8 (fuseValue f 257).toNat ++ toLe 8 (fuseValue f 258).toNat

/-- Six words as 48 bytes, big-endian (R145). -/
def words48 (f : Fuse) (w : Nat) : Bytes := ((List.range 6).map (fun i => toBe 8 (f.sh (w + i)).value.toNat)).flatten

/-- A key pair accepted for a region and slot: its SHA-384 is the burned digest, the region is Final, and an
image-signing slot is not revoked (R145, R183, R280). -/
def keyAccepted (f : Fuse) (region slot : Nat) (key : Bytes) : Bool :=
  sha384 key == words48 f (128 * region + 6 * slot) && regionState f region == 3 &&
    !(region == 3 && (f.sh (128 * 4 + slot)).cls != .blank)

/-- Both halves of a hybrid signature over a 48-byte message (R18, R238). -/
def hybridOk (key msg sig : Bytes) : Bool :=
  ecdsaVerify (slice key 0 97) msg (slice sig 0 96) && mldsaVerify (slice key 97 2592) msg (slice sig 96 4627)

/-! ### Tokens and certificates (R183, R193) -/

/-- The fields every token and certificate must have right, with the signature over bytes 0-2816. -/
def tokenOk (s : State) (t : Bytes) (typ from_ target regions : Nat) (nonce : Bytes) : Bool :=
  let region := leAt t 6 1 / 16
  let slot := leAt t 6 1 % 4
  t.length == 7540 && decide (1 ≤ from_ ∧ from_ ≤ 4) && slice t 0 4 == [0x4D, 0x42, 0x33, 0x41] && leAt t 4 1 == 1 && leAt t 5 1 == typ &&
    leAt t 6 1 / 4 % 4 == 0 && (if region == 7 then nbit regions 0 else if region == 8 then nbit regions 1 else false) &&
    leAt t 7 1 == from_ && leAt t 8 1 == target && allZero (slice t 9 3) && slice t 12 20 == unitBytes s.fuse &&
    slice t 36 48 == nonce && allZero (slice t 84 44) &&
    keyAccepted s.fuse region slot (slice t 128 2689) &&
    hybridOk (slice t 128 2689) (sha384 (slice t 0 2817)) (slice t 2817 4723)

/-- The signer regions of R181 for each token of a transition, in digest order: bit 0 allows region 7, bit 1 region 8. -/
def authRegions (from_ target : Nat) : List Nat :=
  if from_ = 1 ∧ target = 2 then [2]
  else if from_ = 2 ∧ target = 3 then [1]
  else if from_ = 3 ∧ target = 4 then [2, 1]
  else if from_ = 1 ∧ target = 5 then [2]
  else if from_ = 2 ∧ target = 5 then [3]
  else if from_ = 3 ∧ target = 5 then [1]
  else if from_ = 4 ∧ target = 5 then [2]
  else [3]

/-- The state that slots 0 to k - 1 decode to (R180, R187). -/
def stateBelow (f : Fuse) (k : Nat) : BitVec 4 :=
  if k ≥ 3 then prefixState f
  else if (List.range k).all (fun j => slotCond f j == .done) then BitVec.ofNat 4 (k + 1)
  else 0xF

/-- The state a token must name as FROM: the decoded one, or in Invalid the one that the slots below the Pending slot
decode to (R187). -/
def tokenFrom (s : State) : BitVec 4 :=
  if s.lc.state = 0xF then
    match pendingSlots s.fuse with
    | [k] => stateBelow s.fuse k
    | _ => prefixState s.fuse
  else s.lc.state

/-- The tokens of an authorisation verify (R183). -/
def tokensOk (s : State) (msg : Bytes) : Bool :=
  let from_ := (tokenFrom s).toNat
  let target := leAt msg 8 1
  let regs := authRegions from_ target
  let toks := inChunks 7540 msg
  toks.length == regs.length && decide (2 ≤ target ∧ target ≤ 5) &&
    (toks.zip regs).all (fun x => tokenOk s x.1 1 from_ target x.2 (zeros 48) && allZero (slice x.1 32 4))

/-! ### GO (R181-R188) -/

/-- The permitted transitions (R181). -/
def lcPermitted (from_ target : BitVec 4) : Bool :=
  (from_ == 1 && target == 2) || (from_ == 2 && target == 3) || (from_ == 3 && target == 4) ||
  (target == 5 && (from_ == 1 || from_ == 2 || from_ == 3 || from_ == 4))

/-- The successor rule: R181 outside Invalid, R187's conditions on the slots in Invalid, and R185. -/
def successorOk (s : State) (target : BitVec 4) : Bool :=
  if s.lc.doneThisBoot then false
  else if s.lc.state = 0xF then
    match pendingSlots s.fuse with
    | [k] =>
      target.toNat == k + 2 &&
        (k == 3 || ((List.range k).all (fun j => slotCond s.fuse j == .done) &&
          ((List.range 3).filter (fun j => decide (j > k))).all (fun j => slotCond s.fuse j != .done)))
    | _ => false
  else lcPermitted s.lc.state target

/-- The seven words of slot k with their target values: the digest big-endian, then the code (R177, R184). -/
def slotWords (k : Nat) (digest : Bytes) : List (Nat × BitVec 64) :=
  (List.range 6).map (fun i => (8 * k + i, BitVec.ofNat 64 (beNat (slice digest (8 * i) 8)))) ++ [(8 * k + 6, slotCode k)]

/-- Each burned word is consistent with the value to burn (R187). -/
def slotConsistent (f : Fuse) (ws : List (Nat × BitVec 64)) : Bool :=
  ws.all (fun w => match (f.sh w.1).cls with
    | .blank => true
    | .clean => (f.sh w.1).value == w.2
    | .marginal => (f.sh w.1).value == w.2
    | .torn => covers f w.1 w.2
    | .wiped => false)

/-- The precondition regions of R181 for the transition to a target. -/
def preconditionOk (s : State) (target : BitVec 4) : Bool :=
  let f := s.fuse
  if target = 2 then [1, 2, 3, 6, 8].all (fun r => regionState f r == 3) && regionUsable f 1
  else if target = 3 then regionState f 5 == 3 && regionState f 7 == 3 &&
    (regionState f 9 == 0 || (regionState f 9 == 3 && regionUsable f 9))
  else true

/-- LC_XFER_DIGEST as 48 bytes. -/
def xferDigest (s : State) : Bytes := mread 0 s.lc.digest 0 48

/-- The block's checks on GO in the order of R182: the code of the first that fails, or 0. -/
def goCheck (s : State) (target : BitVec 4) : Byte :=
  if s.lc.busy then 0x01
  else if !successorOk s target then 0x02
  else if s.lc.state = 0xF ∧ !slotConsistent s.fuse (slotWords (target.toNat - 2) (xferDigest s)) then 0x04
  else if target ≠ 5 ∧ s.lc.grant &&& invasiveMask ≠ 0 then 0x06
  else if !preconditionOk s target then 0x08
  else if !s.fuse.vppOk then 0x03
  else 0

/-- The words of the scrap wipe in the order of R200, without those already Wiped. -/
def wipeWords (f : Fuse) : List (Nat × BitVec 72) :=
  (([1, 9, 3, 7, 8, 6, 2, 4, 5] ++ (List.range 22).map (10 + ·)).flatMap (fun r => (List.range 128).map (128 * r + ·))).filter
    (fun w => (f.sh w).cls != FuseClass.wiped) |>.map (fun w => (w, BitVec.allOnes 72))

/-- A request in the mailbox ended by Pilot or the ROM (R191, R202). -/
def mboxEnd (s : State) (code : Byte) : State :=
  if s.lc.mboxBusy then
    { s with lc := { s.lc with mboxResult := code, resultCode := code, mboxBusy := false, mboxDone := true, mboxDrives := false } }
  else s

/-- The mailbox's own request drives the transition or wipe in hand. -/
def mboxTransition (s : State) : Bool := s.lc.mboxDrives && s.lc.mboxReq != 2

/-- A record, unless Pilot is halted. -/
def note (s : State) (kind : BitVec 16) (a0 a1 : Word) : State := if s.pilot.phase = .halted then s else record s kind a0 a1

/-- The transition or wipe ends: DONE sets, BUSY clears, the mailbox request that drove it ends, and it is journalled. -/
def lcEnd (s : State) (err : Byte) : State :=
  let target := match s.lc.run with
    | some r => r.target
    | none => s.lc.xferTo
  let s1 := { s with
    fuse := { s.fuse with op := none, busy := false }
    lc := { s.lc with err := err, busy := false, done := true, run := none } }
  note (if mboxTransition s1 then mboxEnd s1 err else s1) 0x0500 (target.setWidth 32) (err.setWidth 32)

/-- The end of the fuse wipe: Pilot erases the flash chip (R200). -/
def wipeEnd (s : State) : State := lcEnd { s with flash := [] } 0

/-- The wipe begins, or ends at once when every region is Wiped. -/
def wipeBegin (s : State) (target : BitVec 4) : State :=
  match fuseNext s .wipe none (wipeWords s.fuse) with
  | (s1, some op) => { s1 with
      fuse := { s1.fuse with op := some op, busy := true }
      lc := { s1.lc with busy := true, run := some { target := target, waiting := false, wiping := true } } }
  | (s1, none) => wipeEnd s1

/-- The slot is burned (R185): DONE_THIS_BOOT; a transition to Scrapped goes on to the wipe of R200. -/
def transitionDone (s : State) (target : BitVec 4) : State :=
  let s1 := { s with
    fuse := { s.fuse with op := none, busy := false }
    lc := { s.lc with doneThisBoot := true, doneTarget := target } }
  if target = 5 then wipeBegin s1 target else lcEnd s1 0

/-- The burn of a slot begins: words 8k to 8k+5, then the state word; with VPP_FUSE out of its window it stops with 0x07
(R184). -/
def transitionBurn (s : State) (target : BitVec 4) : State :=
  if !s.fuse.vppOk then lcEnd s 0x07
  else
    let ws := (slotWords (target.toNat - 2) (xferDigest s)).map (fun w => (w.1, fuseEncode w.2))
    match fuseNext s .transition none ws with
    | (s1, some op) => { s1 with
        fuse := { s1.fuse with op := some op, busy := true }
        lc := { s1.lc with run := some { target := target, waiting := false, wiping := false } } }
    | (s1, none) => transitionDone s1 target

/-- GO (R184): refused with ERR, or the block takes the fuse controller, waiting for a running fuse operation to end. TO is
Frozen: it is taken unless a transition is BUSY (R186, R202). -/
def lcGo (s : State) (target : BitVec 4) : State :=
  match goCheck s target with
  | 0 =>
    let s1 := { s with lc := { s.lc with xferTo := target, err := 0, busy := true,
                                          run := some { target := target, waiting := s.fuse.op.isSome, wiping := false } } }
    if s.fuse.op.isSome then s1 else transitionBurn s1 target
  | e => { s with lc := { s.lc with xferTo := if s.lc.busy then s.lc.xferTo else target, err := e } }

/-- LC_XFER_CTL.GO with its target (R184, R202). -/
def execGo (target : BitVec 4) (s : State) : Out := whenCommanded s (fun s => lcGo s target)

/-! ### Pulses: the end of each owner's operation -/

/-- A FUSE_CMD operation has ended: a transition that waited for it begins (R184). -/
def afterCommand (s : State) : State :=
  match s.lc.run with
  | some r => if r.waiting then transitionBurn s r.target else s
  | none => s

/-- FUSE_BIT_PULSE_DONE (R157): one pulse and verify read end. -/
def pulseDone (s : State) (level : BitVec 3) : State :=
  match s.fuse.op with
  | none => s
  | some op =>
    match fusePulse s level, op.owner with
    | (s1, .goOn), _ => s1
    | (s1, .ended c), .command => anchorNext (afterCommand (fuseEnd s1 c)) c
    | (s1, .ended c), .transition =>
      if c = 0 then
        transitionDone s1 (match s1.lc.run with
          | some r => r.target
          | none => s1.lc.xferTo)
      else lcEnd s1 0x07
    | (s1, .ended c), .wipe => if c = 0 then wipeEnd s1 else lcEnd s1 0x07

def execFuseBitPulseDone (level : BitVec 3) (s : State) : Out := whenRunning s (pulseDone · level)

/-- The program operation stops where it stands (R161, R564): its word is re-sensed and its owner's operation ends. An island restart
stops a transition that waits behind it too; one that meets VPP_FUSE out of its window stops as it begins. -/
def fuseCut (s : State) (fuseErr : Byte) : State :=
  match s.fuse.op with
  | none => s
  | some op =>
    let s1 := match op.todo with
      | (w, _) :: _ => wordStopped s w
      | [] => s
    match op.owner with
    | .command =>
      let s2 := fuseEnd s1 fuseErr
      if fuseErr = 0x0A ∧ s2.lc.run.isSome then lcEnd s2 0x07 else afterCommand s2
    | _ => lcEnd s1 0x07

/-- VPP_OK sets once VPP_FUSE has stayed in its window for 10 us (R156). -/
def vppSet (s : State) : State := { s with fuse := { s.fuse with vppOk := true } }

/-- R161: VPP_FUSE leaves its window; during a pulse VPP_LOST is raised and the operation stops with 0x09. -/
def vppExit (s : State) (level : BitVec 3) : State :=
  let s0 := { s with fuse := { s.fuse with vppOk := false } }
  match s0.fuse.op with
  | none => s0
  | some op =>
    let w := match op.todo with
      | (w, _) :: _ => w
      | [] => 0
    fuseCut (fuseAlarm { s0 with fuse := pulseArray s0.fuse level } 4 (w / 128) w) 0x09

def execVppWindowExit (level : BitVec 3) (s : State) : Out := whenRunning s (vppExit · level)

/-! ### The JTAG mailbox (R191) -/

/-- A request is submitted: BUSY, and the code read back. -/
def mboxSubmit (s : State) (req : BitVec 4) : State :=
  { s with lc := { s.lc with mboxReq := req, mboxBusy := true, mboxDone := false } }

/-- Pilot firmware, the ROM holding for debug, or the ROM in the halts 0x87 and 0x88 serves the mailbox. -/
def mboxServed (s : State) : Bool :=
  s.pilot.phase == .firmware || s.pilot.phase == .hold ||
    (s.pilot.phase == .halted && (s.pilot.haltCode == 0x87 || s.pilot.haltCode == 0x88))

/-- JTAG reaches the mailbox through LC_MBOX, and a request in hand is not disturbed (R191). -/
def mboxOpen (s : State) : Bool := s.pins.ir == .lcMbox && !s.lc.mboxBusy

/-- The bytes of the request. -/
def mboxBytes (s : State) : Bytes := mread 0 s.lc.mbox 0 s.lc.mboxLen.toNat

/-- Every berth is FREE (R182). -/
def allBerthsFree (s : State) : Bool := s.berths.all (fun x => x.2.state == .free)

/-- A TRANSITION request as Pilot or the ROM serves it: R189, the byte count, R183, R182, then GO, which leaves the digest
and TO of a transition already BUSY as they are (R186). -/
def serveTransition (s : State) : State :=
  let msg := mboxBytes s
  if s.lc.state = 5 ∨ (msg.length ≠ 7540 ∧ msg.length ≠ 15080) then mboxEnd s 0x0C
  else if !tokensOk s msg then mboxEnd s 0x0B
  else if !allBerthsFree s then mboxEnd s 0x0D
  else if s.lc.busy then mboxEnd (lcGo s (BitVec.ofNat 4 (leAt msg 8 1))) 0x01
  else
    let target := BitVec.ofNat 4 (leAt msg 8 1)
    let s1 := { s with lc := { s.lc with xferTo := target, digest := mwrite 0 s.lc.digest 0 (sha384 msg) } }
    match goCheck s1 target with
    | 0 => lcGo { s1 with lc := { s1.lc with mboxDrives := true } } target
    | e => mboxEnd (lcGo s1 target) e

/-- LC_MBOX_CMD.REQ 0x1 TRANSITION (R191). -/
def execTransition (s : State) : Out :=
  whenRunning s (fun s =>
    if mboxOpen s then (let s1 := mboxSubmit s 1; if mboxServed s1 then serveTransition s1 else s1) else s)

/-- RESUME_WIPE (R201): only in Scrapped, with an empty request and VPP_OK; wipes what is not yet Wiped. The
block's codes show in ERR and in RESULT (R203). -/
def serveResumeWipe (s : State) : State :=
  if s.lc.state ≠ 5 ∨ s.lc.mboxLen ≠ 0 then mboxEnd s 0x0C
  else if s.lc.busy then mboxEnd { s with lc := { s.lc with err := 0x01 } } 0x01
  else if !s.fuse.vppOk then mboxEnd { s with lc := { s.lc with err := 0x03 } } 0x03
  else wipeBegin { s with lc := { s.lc with mboxDrives := true } } 5

def execResumeWipe (s : State) : Out :=
  whenRunning s (fun s =>
    if mboxOpen s then (let s1 := mboxSubmit s 3; if mboxServed s1 then serveResumeWipe s1 else s1) else s)

/-- The requests R189 allows in the decoded state. -/
def mboxAllowed (s : State) (req : BitVec 4) : Bool :=
  if s.lc.state = 5 then req == 3
  else if s.lc.state = 0xF then req == 1
  else req == 1 || req == 2

/-- A reserved or disallowed request ends with RESULT 0x0C; a write of 0 does nothing (R191, R202). -/
def execLcMboxReservedReq (req : BitVec 4) (s : State) : Out :=
  whenRunning s (fun s =>
    if mboxOpen s ∧ req ≠ 0 ∧ !mboxAllowed s req then mboxEnd (mboxSubmit s req) 0x0C else s)

/-- LC_MBOX_RESULT.END with its CODE (R202): ignored while no request is in hand. -/
def execEndRequest (code : Byte) (s : State) : Out :=
  whenCommanded s (fun s => mboxEnd { s with lc := { s.lc with resultCode := code } } code)

end Sys2Proof.Machine
end

