-- ==== Sys2Proof/Machine/Ring.lean ====
section
/-! DEFINITION. The Cable ring (02, 17): frames, enumeration, ordering tokens, the MCTP control messages the agent
answers alone, unit and berth status, ALARM_NOTIFY's limit, and Pilot's registers of the agent. -/

namespace Sys2Proof.Machine

/-- CRING_BYP as the pin is driven: by the boundary register while that controls the pins (R90). -/
def bypHigh (s : State) : Bool := if s.pins.boundaryControls then s.pins.boundary.getLsbD 16 else s.pins.cringByp

/-- The agent takes part in the ring: it is inserted (R79, R80) and has its pins (R90). -/
def inserted (s : State) : Bool := accepts s && s.pins.cringByp && !s.pins.boundaryControls && clocked s .trustCore

/-- The enumerate request to the master (R78): an enumerate frame to position 0 with counter 0. The spec gives neither KIND
nor POS_DST of it (DESIGN CHOICE, log entry 137). -/
def enumerateRequest (s : State) : RingFrame :=
  { dst := 0, src := s.ring.position, hops := ownHops, kind := 0x03, payload := [0] }

/-- CABLE_RING_AGENT_START (R80): CRING_BYP high, and an enumerate request to the master (R78). -/
def execCableRingAgentStart (s : State) : Out :=
  whenRunning s (fun s => if s.pins.cringByp then s else
    let s1 := { s with pins := { s.pins with cringByp := true } }
    if s.pins.boundaryControls then s1 else sendRing s1 (enumerateRequest s))

/-! ### Frames (R76-R78) -/

/-- A frame's bytes from POS_DST to its CRC, if they are well formed and the CRC is good. -/
def parseFrame (raw : Bytes) : Option RingFrame :=
  let len := leAt raw 4 1
  if raw.length = len + 9 ∧ 1 ≤ len ∧ len ≤ 68 ∧
      leAt raw (len + 5) 4 = (crc32c (raw.take (len + 5))).toNat then
    some { dst := byteAt raw 0, src := byteAt raw 1, hops := byteAt raw 2, kind := byteAt raw 3, payload := slice raw 5 len }
  else none

/-- The frame as the next agent receives it: HOPS one lower. -/
def hop (f : RingFrame) : RingFrame := { f with hops := f.hops - 1 }

/-- An enumerate frame (R78): the counter is taken as the position and goes on one higher. -/
def enumerate (s : State) (f : RingFrame) : State :=
  if f.hops = 0 then s
  else
    let p := byteAt f.payload 0
    sendRing { s with ring := { s.ring with position := p, enumerated := true } }
      { hop f with payload := (p + 1) :: f.payload.drop 1 }

/-- An ordering token (R85-R87): forwarded at once when TOKEN_WAIT is 0, when MB3 is halted or has its token already;
else held. Before sensing has ended TOKEN_WAIT is not known, and the token is held until then (DESIGN CHOICE, log entry
138). -/
def takeToken (s : State) (f : RingFrame) : State :=
  if f.hops = 0 then s
  else if s.pilot.phase = .halted ∨ (s.fuse.sensed ∧ tokenWait s.fuse = 0) ∨ s.ring.held.isSome then sendRing s (hop f)
  else
    match s.ring.token with
    | .none =>
      if s.ring.ready then
        { s with ring := { s.ring with held := some (hop f), token := .holding, secondLimit := true } }
      else { s with ring := { s.ring with held := some (hop f), token := .early } }
    | .waiting => { s with ring := { s.ring with held := some (hop f), token := .holding, secondLimit := true } }
    | .released => { s with ring := { s.ring with held := some (hop f), token := .holding } }
    | _ => sendRing s (hop f)

/-! ### MCTP (R81, R82, R587)

The completion codes are MCTP 1.3's (PRESUMED, log entry 33): 0x04 not ready, 0x01 error, 0x02 invalid data, 0x05 unsupported
command. -/

/-- A not-ready completion (R81). -/
def sendNotReady (s : State) (src : Byte) : State := controlAnswer s src (.notReady src) 0 [0x04]

/-- An error completion (R82, R587). -/
def sendError (s : State) (src code : Byte) : State := controlAnswer s src (.mctpError src) 0 [code]

/-- A control request: not-ready until Pilot runs verified firmware (R81). -/
def whenReady (s : State) (src : Byte) (f : State → State) : State :=
  if s.ring.ready then f s else sendNotReady s src

/-- The answer to a supported control command. -/
def answerControl (s : State) (src command : Byte) (body : Bytes) : State :=
  controlAnswer s src (.mctpControl src command body) command body

/-- Set Endpoint ID: the ID is taken and its assigner remembered; 0x00 and 0xFF are no endpoint IDs. -/
def setEid (s : State) (src eid : Byte) : State :=
  whenReady s src (fun s =>
    if eid = 0 ∨ eid = 0xFF then sendError s src 0x02
    else answerControl { s with ring := { s.ring with eid := eid, owner := src } } src 1 [0, 0, eid, 0])

def getEid (s : State) (src : Byte) : State := whenReady s src (fun s => answerControl s src 2 [0, s.ring.eid, 0, 0])

/-- MCTP base specification 1.3. -/
def versionSupport (s : State) (src : Byte) : State :=
  whenReady s src (fun s => answerControl s src 4 [0, 1, 0xF1, 0xF3, 0xF1, 0x00])

/-- SPDM (0x05) and vendor-defined by IANA enterprise number (0x7F). -/
def typeSupport (s : State) (src : Byte) : State := whenReady s src (fun s => answerControl s src 5 [0, 2, 0x05, 0x7F])

def otherMessage (s : State) (src : Byte) : State := whenReady s src (fun s => sendError s src 0x05)

/-- An SPDM message on the ring: its type byte, then the response. -/
def sendSpdm (s : State) (src : Byte) (e : Emission) (fields : List Bytes) : State :=
  sendMctp s src false e (0x05 :: Config.spdmResponse fields)

/-- SPDM ERROR Busy for a request that finds CRING_RX_BUF full (R587). -/
def sendBusy (s : State) (src : Byte) : State := sendSpdm s src (.spdmError (.ring src) .busy) [[0x7F], [0x03]]

/-- A message for Pilot in CRING_RX_BUF, or busy, or not ready (R587). -/
def toPilot (s : State) (src : Byte) (msg : Bytes) : State :=
  if !s.ring.ready then sendNotReady s src
  else if s.ring.rxReady then
    let s1 := { s with ring := { s.ring with busySent := true } }
    if byteAt msg 0 &&& 0x7F = 5 then sendBusy s1 src else sendError s1 src 0x01
  else { s with ring := { s.ring with rxBuf := mOf msg, rxLen := BitVec.ofNat 14 msg.length, srcEid := src, rxReady := true } }

/-- A request that Pilot serves (R587): in CRING_RX_BUF, from where Pilot takes it and frees RX_READY; while no firmware of Pilot's runs it
stays there. -/
def toPilotServed (s : State) (src : Byte) (msg : Bytes) (f : State → State) : State :=
  let s1 := toPilot s src msg
  if s.ring.ready && !s.ring.rxReady && pilotUp s then
    let s2 := f s1
    { s2 with ring := { s2.ring with rxReady := false } }
  else s1

/-- GET_UNIT_STATUS (R84), which the agent answers in every condition; it also reports an open invasive right (R198). -/
def unitStatusAnswer (s : State) (src : Byte) : State :=
  let halted := s.pilot.phase == .halted
  let open_ := s.lc.grant &&& invasiveMask != 0
  sendVendor s src false (.unitStatus src s.pins.stat halted s.pins.haltSeen s.lc.state s.pilot.milestone s.ring.position open_)
    [[0x00], [s.pins.stat], [if halted then 1 else 0, if s.pins.haltSeen then 1 else 0], [lcByte s], [s.pilot.milestone],
      [s.ring.position], [if open_ then 1 else 0]]

/-- A reassembled message: control messages and GET_UNIT_STATUS are the agent's, SPDM and the other vendor-defined ones go to
Pilot, any other type gets an error completion. -/
def message (s : State) (src : Byte) (msg : Bytes) : State :=
  let t := byteAt msg 0 &&& 0x7F
  if t = 0 then
    (match (byteAt msg 2).toNat with
      | 1 => setEid s src (byteAt msg 4)
      | 2 => getEid s src
      | 4 => versionSupport s src
      | 5 => typeSupport s src
      | _ => otherMessage s src)
  else if t = 0x7F ∧ Config.vendorRequest msg = 0 then unitStatusAnswer s src
  else if t = 5 ∨ t = 0x7F then toPilot s src msg
  else otherMessage s src

/-- Where a packet's message is joined: by source endpoint, tag owner and tag (MCTP 1.3). -/
def assemblyKey (p : Bytes) : Nat := (byteAt p 2).toNat * 16 + (byteAt p 3).toNat % 16

/-- One MCTP packet from a ring position: header version 1 and addressed to MB3's endpoint ID, the null or the broadcast one.
A message begins with SOM, goes on in sequence, every packet but its last with a 64 B body; one out of sequence is dropped
with what it belongs to, and so is a message longer than 8,192 B (R82). -/
def packet (s : State) (pos : Byte) (p : Bytes) : State :=
  let dst := byteAt p 1
  let src := byteAt p 2
  let flags := byteAt p 3
  let body := p.drop 4
  let seq : BitVec 2 := flags.extractLsb' 4 2
  let key := assemblyKey p
  let dropped := { s with ring := { s.ring with assembly := tdel s.ring.assembly key } }
  if p.length < 5 ∨ byteAt p 0 &&& 0x0F ≠ 1 ∨ (dst ≠ s.ring.eid ∧ dst ≠ 0 ∧ dst ≠ 0xFF) then s
  else
    let old := if flags.getLsbD 7 then some { sofar := [], next := seq } else tfind s.ring.assembly key
    match old with
    | none => s
    | some a =>
      let sofar := a.sofar ++ body
      if seq ≠ a.next ∨ (!flags.getLsbD 6 ∧ body.length ≠ 64) ∨ 8192 < sofar.length then dropped
      else if flags.getLsbD 6 then
        let peer : RingPeer := { pos := pos, tag := flags.extractLsb' 0 3, inst := (byteAt sofar 1).extractLsb' 0 5 }
        message { dropped with ring := { dropped.ring with peers := tset s.ring.peers src.toNat peer } } src sofar
      else { s with ring := { s.ring with assembly := tset s.ring.assembly key { sofar := sofar, next := seq + 1 } } }

/-- A frame addressed to this agent is taken off the ring. -/
def takeFrame (s : State) (f : RingFrame) : State :=
  if f.kind = 1 then packet s f.src f.payload
  else if f.kind = 2 then takeToken s f
  else s

/-- RING_FRAME_RECEIVE (R76, R77). The master's enumerate frame is a broadcast of KIND 0x03; one with another agent's POS_DST
is forwarded as it is (DESIGN CHOICE, log entry 137). -/
def receiveFrame (s : State) (raw : Bytes) : State :=
  match parseFrame raw with
  | none => s
  | some f =>
    let mine := s.ring.enumerated ∧ f.dst = s.ring.position
    if s.ring.enumerated ∧ f.src = s.ring.position then s
    else if f.kind = 0 ∨ 4 ≤ f.kind.toNat then s
    else if f.hops = 0 then s
    else if f.kind = 3 ∧ (f.dst = 0xFF ∨ mine) then enumerate s f
    else if f.kind = 2 ∧ (f.dst = 0xFF ∨ mine) then takeToken s f
    else if mine then takeFrame s f
    else if f.dst = 0xFF then sendRing (takeFrame s f) (hop f)
    else sendRing s (hop f)

/-- An effect of the inserted agent; otherwise nothing changes. -/
def whenInserted (s : State) (f : State → State) : Out := .next (if inserted s then f s else s)

def execRingFrameReceive (raw : Bytes) (s : State) : Out := whenInserted s (receiveFrame · raw)
def execRingEnumerate (f : RingFrame) (s : State) : Out := whenInserted s (enumerate · f)
def execOrderingToken (f : RingFrame) (s : State) : Out := whenInserted s (takeToken · f)
def execSetEndpointId (src eid : Byte) (s : State) : Out := whenInserted s (setEid · src eid)
def execGetEndpointId (src : Byte) (s : State) : Out := whenInserted s (getEid · src)
def execGetMctpVersionSupport (src : Byte) (s : State) : Out := whenInserted s (versionSupport · src)
def execGetMessageTypeSupport (src : Byte) (s : State) : Out := whenInserted s (typeSupport · src)

/-- An MCTP message of a type other than control, SPDM and vendor-defined (R82). -/
def execMctpOtherMessage (src msgType : Byte) (s : State) : Out :=
  whenInserted s (fun s => if msgType = 0 ∨ msgType = 5 ∨ msgType = 0x7F then s else otherMessage s src)

/-! ### Tokens: Pilot's side and the limits (R86, R87) -/

/-- The management cores may be released as far as the ordering token is concerned (R86). -/
def tokenClear (s : State) : Bool :=
  tokenWait s.fuse == 0 || s.ring.token == .holding || s.ring.token == .released || s.ring.token == .done

/-- CRING_CTL.READY (R586): the bit sets. Where Pilot does run verified firmware, a token held early counts as arriving now
(R87); with none the wait of R86 begins. -/
def setReady (s : State) : State :=
  let s1 := { s with ring := { s.ring with ready := true } }
  if tokenWait s.fuse = 0 ∨ !pilotUp s then s1
  else
    match s.ring.token with
    | .early => { s1 with ring := { s1.ring with token := .holding, secondLimit := true } }
    | .none => showWait { s1 with ring := { s1.ring with token := .waiting } }
    | _ => s1

def execReady (s : State) : Out := whenCommanded s setReady

/-- The token has served: it goes on, and MB3 acts on no other in this startup. -/
def endToken (s : State) : State :=
  let s1 := forwardToken s
  { s1 with ring := { s1.ring with token := .done } }

/-- CRING_CTL.FORWARD (R586): ignored while no token is held. -/
def execForward (s : State) : Out := whenCommanded s (fun s => if s.ring.held.isSome then endToken s else s)

/-- TOKEN_WAIT_LIMIT (R86, R87): the limit that runs ends, with a journal event where it ends a wait. A token forwarded at
the early limit is the one token MB3 acts on in this startup, so no later wait follows (DESIGN CHOICE, log entry 138). With no
token at the first limit, the second runs and a token that comes within it is held. -/
def tokenLimit (s : State) : State :=
  match s.ring.token with
  | .early => note (endToken s) 0x0504 0 0
  | .waiting => note { s with ring := { s.ring with token := .released, secondLimit := true } } 0x0504 0 0
  | .holding => note (endToken s) 0x0504 0 0
  | .released => { s with ring := { s.ring with token := .done, secondLimit := false } }
  | _ => s

def execTokenWaitLimit (s : State) : Out := whenRunning s tokenLimit

/-! ### Status requests (R84, R587) -/

/-- GET_UNIT_STATUS. -/
def execGetUnitStatus (src : Byte) (s : State) : Out := whenInserted s (unitStatusAnswer · src)

/-- State code of R307. -/
def berthCode : BerthState → Byte
  | .free => 0
  | .assigned => 1
  | .running => 2
  | .suspended => 3
  | .rinsing => 4

/-- Rinse level code of R247. -/
def levelCode : RinseLevel → Byte
  | .startupClean => 0
  | .full => 1
  | .memoryOnly => 2

/-- Pilot's answer to GET_BERTH_STATE (R84). -/
def berthStateAnswer (s : State) (src : Byte) (b : Nat) : State :=
  if b ≥ 4096 then sendVendor s src false (.berthInvalid src) [[0x01], [0x01]]
  else
    let st := berthCode (s.berth b).state
    let lv := levelCode (s.berth b).level
    sendVendor s src false (.berthState src b st lv) [[0x01], [0x00], toLe 4 b, [st, lv]]

/-- GET_BERTH_STATE (R84): a vendor request that Pilot answers; not-ready and busy as R587 gives. -/
def getBerthState (s : State) (src : Byte) (b : Nat) : State :=
  toPilotServed s src (0x7F :: Config.requestBytes [[0x7F, 0x01], toLe 4 b]) (berthStateAnswer · src b)

def execGetBerthState (src : Byte) (berth : Nat) (s : State) : Out := whenInserted s (getBerthState · src berth)

/-- ALARM_NOTIFY_HOLDOFF_EXPIRY (R567): the second ends; a count coalesced since the last message is sent now. -/
def notifyExpiry (s : State) (kind : BitVec 16) : State :=
  let x := tget notifyInit s.ring.notify kind.toNat
  if x.holdoff ∧ x.count > 0 ∧ s.ring.eid ≠ 0 then
    sendNotify { s with ring := { s.ring with notify := tset s.ring.notify kind.toNat { x with count := 0 } } }
      kind (min 65535 x.count) x.event
  else { s with ring := { s.ring with notify := tset s.ring.notify kind.toNat { x with holdoff := false } } }

def execAlarmNotifyHoldoffExpiry (kind : BitVec 16) (s : State) : Out := whenRunning s (notifyExpiry · kind)

/-! ### Pilot's registers of the agent (R586) -/

/-- CRING_TX_CTL.SEND: CRING_TX_BUF as one MCTP message, in its packets; a TX_LEN of 0 or above 8,192 is ignored. To an
endpoint that has sent a request it is the answer (DESIGN CHOICE, log entry 33). -/
def cringSend (s : State) : State :=
  let n := s.ring.txLen.toNat
  let dst := s.ring.dstEid
  if n = 0 ∨ n > 8192 ∨ s.ring.txBusy then s
  else
    let msg := mread 0 s.ring.txBuf 0 n
    sendMctp s dst (tfind s.ring.peers dst.toNat).isNone (.mctp dst msg) msg

def execCringSend (s : State) : Out := whenInserted s cringSend

/-- CRING_RX_INFO.RX_READY written 1: the buffer is free. -/
def execCringRxFree (s : State) : Out := whenCommanded s (fun s => { s with ring := { s.ring with rxReady := false } })

end Sys2Proof.Machine
end

