-- ==== Sys2Proof/Machine/Boundary.lean ====
section
/-! DEFINITION. The pins, the clocks and the test chain (02): reset and power failure, reset release, the halt line's
read-back, clock loss, VPP_FUSE's window, and the JTAG instructions. -/

namespace Sys2Proof.Machine

/-- Every island resets (R66): all is as at reset but what the fuses and the flash hold. A programming pulse that the
reset cuts leaves its bit as `cut` says (R160). -/
def afterReset (s : State) (cut : BitVec 3) : State :=
  { State.reset with
    fuse := { fuseReset with cells := (pulseArray s.fuse cut).cells }
    pilot := { pilotReset with drawn := s.pilot.drawn }
    flash := s.flash
    out := s.out
    pending := s.pending }

/-- MB_PORST_N falls (R66). -/
def execMbPorstNAssert (cutLevel : BitVec 3) (s : State) : Out := .next (afterReset s cutLevel)

/-- Package power fails: the same for all that MB3 holds (R44, R302). -/
def execPackagePowerFail (cutLevel : BitVec 3) (s : State) : Out := .next (afterReset s cutLevel)

/-- Every island of the 234 with its clock running and its strap read (R38, R106). -/
def islandsReleased : Tbl IslandSt :=
  (List.range 234).map (fun i => (i, { islandInit with pll := true, strap := true }))

/-- RESET_RELEASE (R66, R67, R71): straps latched, every island released, the ROM entered with code 0x01 (R105). -/
def release (s : State) (bootsel : BitVec 2) (vpp : Bool) : State :=
  if s.pins.porstLow then
    let s1 := { s with
      pins := { s.pins with porstLow := false, bootsel := bootsel, stat := 0x01 }
      isl := islandsReleased
      pilot := { s.pilot with phase := .rom, milestone := 0x01 } }
    if vpp then record s1 0x0106 0 0 else s1
  else s

def execResetRelease (bootsel : BitVec 2) (vppPresent : Bool) (s : State) : Out := .next (release s bootsel vppPresent)

/-- HALT_SEEN_ELSEWHERE (R70): MB_HALT_N read low while MB3 does not drive it. The condition stays until reset when the pin
rises again: the spec does not say (DESIGN CHOICE, log entry 139). -/
def execHaltSeenElsewhere (s : State) : Out :=
  whenRunning s (fun s => if s.pins.haltLow then s else { s with pins := { s.pins with haltSeen := true } })

/-- REFERENCE_CLOCK_LOSS (R74): halt code 0x80. -/
def execReferenceClockLoss (s : State) : Out :=
  whenRunning s (fun s => if s.pilot.phase = .halted then s else halt s 0x80)

/-! ### The test chain (R88-R90) -/

/-- The segment is in the chain: its bypass is open (R79). -/
def chained (s : State) : Bool := accepts s && bypHigh s
def whenChained (s : State) (f : State → State) : Out := .next (if chained s then f s else s)

/-- IDCODE (R88): die revision, part number 0x4D33, Tvedgetex's identity, 1. -/
def idcodeWord (s : State) : Word :=
  (((fuseValue s.fuse 256).extractLsb' 28 4 ++ (0x4D33 : BitVec 16)) ++ Config.jedecId ++ (1 : BitVec 1) : BitVec 32)

def execBypass (s : State) : Out :=
  whenChained s (fun s => emit { s with pins := { s.pins with ir := .bypass } } (.jtag 0))

def execIdcode (s : State) : Out :=
  whenChained s (fun s => emit { s with pins := { s.pins with ir := .idcode } } (.jtag (idcodeWord s)))

/-- What the boundary register samples, from what the pins read from outside (R63, R88). Its bits follow the table of R63: 0
MB_PORST_N, 1-2 MB_BOOTSEL, 3-10 MB_STAT, 11 MB_HALT_N, 12-13 CRING_RX, 14-15 CRING_TX, 16 CRING_BYP, 17-20 TCK, TMS, TDI, TDO
(DESIGN CHOICE, log entry 12). MB_STAT and CRING_BYP read as MB3 drives them, MB_HALT_N low while MB3 pulls it; while the
boundary register controls the pins it is what drives them. -/
def sampled (s : State) (pins : BitVec 21) : BitVec 21 :=
  let own : BitVec 21 :=
    if s.pins.boundaryControls then s.pins.boundary
    else (s.pins.stat.setWidth 21 <<< 3) ||| (if s.pins.haltLow then 0#21 else 1#21 <<< 11) |||
      (if s.pins.cringByp then 1#21 <<< 16 else 0#21) ||| (pins &&& (3#21 <<< 14))
  let outputs : BitVec 21 := (0xFF#21 <<< 3) ||| (7#21 <<< 14)
  let halt : BitVec 21 := 1#21 <<< 11
  (pins &&& ~~~(outputs ||| halt ||| 1#21)) ||| (own &&& outputs) ||| (own &&& pins &&& halt) ||| 1#21

/-- SAMPLE/PRELOAD (R88): the pins are sampled out and the boundary register takes the preload. -/
def execSamplePreload (pins preload : BitVec 21) (s : State) : Out :=
  whenChained s (fun s => emit { s with pins := { s.pins with ir := .samplePreload, boundary := preload } }
    (.jtag ((sampled s pins).setWidth 32)))

/-- EXTEST (R88, R90): the boundary register drives the pins from its preload, captures them and takes the word shifted in,
which drives them next. The host port and every memory and link path count as closed until a reset. -/
def execExtest (s : State) (pins shifted : BitVec 21 := 0) : Out :=
  whenChained s (fun s =>
    let s1 := emit { s with pins := { s.pins with ir := .extest, boundaryControls := true } } (.pinsDriven s.pins.boundary)
    let s2 := emit s1 (.jtag ((sampled s1 pins).setWidth 32))
    emit { s2 with pins := { s2.pins with boundary := shifted } } (.pinsDriven shifted))

/-- A private instruction (R89, R191, R192): LC_MBOX always; the debug port under any granted right; internal scan under
SCAN, after which only reset is accepted. One that is not allowed selects BYPASS and is journalled. -/
def jtagPrivate (s : State) (i : JtagPrivate) : State :=
  let refuse := note { s with pins := { s.pins with ir := .bypass } } 0x0501 (s.lc.grant.setWidth 32) 1
  match i with
  | .lcMbox => { s with pins := { s.pins with ir := .lcMbox } }
  | .debugPort => if s.lc.grant ≠ 0 then { s with pins := { s.pins with ir := .debugPort } } else refuse
  | .scan => if s.lc.grant.getLsbD 7 then { s with pins := { s.pins with ir := .scan, scanned := true } } else refuse

def execJtagPrivateInstruction (i : JtagPrivate) (s : State) : Out := whenChained s (jtagPrivate · i)

/-- TRST_N (IEEE 1149.1): the segment's instruction returns to IDCODE; what the boundary register has closed stays
closed (R90). -/
def execTrstNAssert (s : State) : Out :=
  whenRunning s (fun s => { s with pins := { s.pins with ir := .idcode } })

end Sys2Proof.Machine
end

