-- ==== Sys2Proof/Machine/Vault.lean ====
section
/-! DEFINITION. The vault (06): tags, attributes, every vault command, fills and invalidations on the handshake
channels, and the completion of a Tier-2 rotation. -/

namespace Sys2Proof.Machine

/-! ### The end of a command, and invalidations (R228) -/

/-- VAULT_DATA zeroed. -/
def clearData (s : State) : State := { s with vault := { s.vault with data := [] } }

/-- VAULT_DATA holding exactly this output. -/
def putData (s : State) (b : Bytes) : State := { s with vault := { s.vault with data := mOf b } }

/-- A command ends with its code: DONE sets (R234). -/
def vaultEnd (s : State) (err : Byte) : State :=
  { s with vault := { s.vault with busy := false, done := true, err := err } }

/-- An island that can hold a key: in service or in Darn, with its domain on. -/
def holdsKeys (s : State) (ix : Nat) : Bool :=
  s.power.domOn.getLsbD (domainOf (islandAt ix)) && (tget islandInit s.isl ix).service != .failed

/-- The island's key cache answers. The berth keys of Ferry and of the sampler serve every engine and array: they stand at the
numbers of engine 0 and array 0 whatever becomes of those two (log entry 53). -/
def cacheUp (s : State) (ix : Nat) : Bool := ix == 206 || ix == 222 || holdsKeys s ix

/-- The islands that can hold an entry (the table before R227): every Pier, Ferry (held by engine island 0) and the
Press sampler (held by array island 0) for a record; the link's lane and its group's spare for a link slot; every
island for 8192, which names everything. -/
def holders (s : State) (entry : Nat) : List Nat :=
  (if entry < 4096 then List.range 154 ++ [206, 222]
   else if entry = 8192 then List.range 230
   else [154 + (entry - 4112), 154 + 48 + (entry - 4112) / 12]).filter (cacheUp s)

/-- A message on the channel of each of these islands. -/
def sendAll (s : State) (dests : List Nat) (m : LaneMsg) : State :=
  { s with vault := { s.vault with channels := dests.foldl (fun c i => tmod [] c i (· ++ [m])) s.vault.channels } }

/-- The Tier-2 Piers that serve a window of the berth: the Pier of each port, by number 136 + p (R229). -/
def sweepPiers (s : State) (b : Nat) : List Nat :=
  ((List.range 16).filter (fun p => (s.berth b).t2.any (fun w => w.2.unit == p))).map (136 + ·)

/-- R231, steps 1 to 3: the old generation's seed is zeroed and ROTATING clears, which PF1's summary shows (R526); the
invalidation follows. -/
def endRotation (s : State) (b : Nat) : State :=
  let r := s.record b
  let r' := if r.curGen then { r with t2Seed0 := none } else { r with t2Seed1 := none }
  changeRecord s b { r' with rotating := false }

/-- What follows a change once every acknowledgement has arrived. A command that ends so ends well, and its ERR 0x00 takes the place of
the 0x01 that a VAULT_CMD write during it had set (DESIGN CHOICE, log entry 176; R234 and R236 do not say). A rotation that no Tier-2
Pier takes part in ends at once, and its own invalidation is the next change (R229, R231). -/
def finishAfter (s : State) : VaultAfter → State
  | .command => vaultEnd s 0
  | .rotate b =>
    let s1 := vaultEnd s 0
    match sweepPiers s1 b with
    | [] =>
      let s2 := endRotation s1 b
      { s2 with vault := { s2.vault with afterQueue := (b, .sweepEnd b) :: s2.vault.afterQueue } }
    | ps => { s1 with vault := { s1.vault with sweeps := tset s1.vault.sweeps b ps } }
  | .sweepEnd b => { s with vault := { s.vault with rotDone := true, rotBerth := BitVec.ofNat 12 b } }
  | .destroyAll => { vaultEnd s 0 with lc := { s.lc with vaultEmpty := true } }
  | .quiet => s

/-- The EPOCH of an entry that the channels number. -/
def entryEpoch (s : State) (entry : Nat) : Word := if entry < 4096 then (s.record entry).epoch else (s.slot (entry - 4096)).epoch

/-- What a destruction of everything names: each record and link slot that holds or has held anything, with its new EPOCH (R198, R228). -/
def everyEntry (s : State) : List (Nat × Word) :=
  s.vault.records.map (fun x => (x.1, x.2.epoch)) ++
    (s.vault.slots.filter (fun x => decide (16 ≤ x.1))).map (fun x => (4096 + x.1, x.2.epoch))

/-- Invalidations that name an entry and its new EPOCH sent on every port that can hold it; with no holder the change is
complete at once (R228). -/
def startChange (s : State) (entry : Nat) (after : VaultAfter) : State :=
  match holders s entry with
  | [] => finishAfter s after
  | dests =>
    let s1 := sendAll s dests (if entry = 8192 then .invalidateAll (everyEntry s) else .invalidate entry (entryEpoch s entry))
    { s1 with vault := { s1.vault with awaiting := some (dests, after) } }

/-- The waiting changes in their order, until one waits for acknowledgements. -/
def runChanges : Nat → State → State
  | 0, s => s
  | n + 1, s =>
    match s.vault.awaiting, s.vault.afterQueue with
    | none, (e, a) :: rest => runChanges n (startChange { s with vault := { s.vault with afterQueue := rest } } e a)
    | _, _ => s

/-- The next waiting change, once nothing is being acknowledged. A change adds at most one to those that wait. -/
def nextChange (s : State) : State := runChanges (2 * s.vault.afterQueue.length) s

/-- A change of an entry: `after` follows the last acknowledgement (R228). One that meets another still being acknowledged
waits its turn. -/
def invalidate (s : State) (entry : Nat) (after : VaultAfter) : State :=
  match s.vault.awaiting with
  | some _ => { s with vault := { s.vault with afterQueue := s.vault.afterQueue ++ [(entry, after)] } }
  | none => nextChange (startChange s entry after)

/-- A command that changed an entry: BUSY until every acknowledgement. -/
def vaultChanged (s : State) (entry : Nat) : State :=
  invalidate { s with vault := { s.vault with busy := true, err := 0 } } entry .command

/-- A change to a berth record that Pilot makes in the course of another command (R228). -/
def changeQuiet (s : State) (b : Nat) (r : BerthRecord) : State := invalidate (changeRecord s b r) b .quiet

/-- An acknowledgement taken off the list; the last one completes the change. -/
def ackTaken (s : State) (ix : Nat) : State :=
  match s.vault.awaiting with
  | none => s
  | some (l, after) =>
    match l.filter (· != ix) with
    | [] => nextChange (finishAfter { s with vault := { s.vault with awaiting := none } } after)
    | l' => { s with vault := { s.vault with awaiting := some (l', after) } }

/-- INVALIDATION_ACK (R228): an island's acknowledgement reaches the vault. -/
def execInvalidationAck (isl : Island) (s : State) : Out :=
  whenRunning s (fun s =>
    if s.vault.acks.contains (islandIx isl) then
      ackTaken { s with vault := { s.vault with acks := s.vault.acks.erase (islandIx isl) } } (islandIx isl)
    else s)

/-! ### Commands: the common frame -/

/-- RS decoding finds a word of this entry uncorrectable (R24, R207): a slot at 4096 + k, or a record. -/
def spoilEntry (s : State) (entry : Nat) : State :=
  if entry < 4096 then { s with vault := { s.vault with records := tset s.vault.records entry { s.record entry with bad := true } } }
  else { s with vault := { s.vault with slots := tset s.vault.slots (entry - 4096) { s.slot (entry - 4096) with bad := true } } }
def spoilUsed (s : State) (spoiled : Option Nat) : State :=
  match spoiled with
  | some e => if e < 4160 then spoilEntry s e else s
  | none => s

/-- A VAULT_CMD write (R234): ignored with 0x01 while a command runs; else the fields are taken and the command runs. A
reserved attribute bit is refused with 0x03 where the command takes an attribute word. -/
def vaultCommand (s : State) (c : VaultCmd) (takesAttr : Bool) (f : State → State) : State :=
  if s.vault.busy then { s with vault := { s.vault with err := 0x01 } }
  else
    let s1 := spoilUsed { s with vault := { s.vault with cmd := c, err := 0 } } c.spoiled
    if takesAttr ∧ s.vault.attr &&& 0xFFF2F800 ≠ 0 then vaultEnd s1 0x03 else f s1

/-- VAULT_CMD_ATTR's DEST and EXPIRE. -/
def cmdDest (s : State) : BitVec 11 := s.vault.attr.setWidth 11
def cmdExpire (s : State) : Bool := s.vault.attr.getLsbD 16

/-- The DEST a firmware slot's TYPE permits (R213): FW_READ always, SIGN with 0x02, KDF with 0x01 or 0x03, SYM with 0x03. -/
def destMask (typ : Nat) : BitVec 11 :=
  0x400 ||| (if typ = 2 then 0x040 else 0) ||| (if typ = 1 ∨ typ = 3 then 0x100 else 0) ||| (if typ = 3 then 0x200 else 0)

/-- The checks on writing a firmware slot 12-15 with a TYPE, a LEN and a DEST (R211, R213); 0 if none fails. -/
def fwCheck (typ len : Nat) (dest : BitVec 11) : Byte :=
  if typ ≠ 1 ∧ typ ≠ 2 ∧ typ ≠ 3 ∧ typ ≠ 6 then 0x03
  else if dest &&& ~~~(destMask typ) ≠ 0 then 0x04
  else if len = 0 ∨ len > 4064 ∨ (typ = 2 ∧ len ≠ 88) then 0x0F
  else 0

/-- A firmware slot as a command writes it. -/
def fwSlot (typ : Nat) (dest : BitVec 11) (expire : Bool) (m : Bytes) : DeviceSlot :=
  { slotInit with typ := BitVec.ofNat 8 typ, dest := dest, expire := expire, valid := true, material := m }

/-- A key is now held: VAULT_EMPTY no longer. -/
def notEmpty (s : State) : State := { s with lc := { s.lc with vaultEmpty := false } }

/-- The slot may be written: it is not VALID, or it is UNUSABLE (R235). -/
def slotFree (s : State) (k : Nat) : Bool := !(s.slot k).valid || (s.slot k).unusable

/-- The entry number of a link slot on the channels. -/
def linkEntry (k : Nat) : Nat := 4096 + k

/-- Expansion of a Tier-2 seed (R219): 96 bytes of line keys. -/
def lineKeys (b : Nat) (g : Bool) (seed : Bytes) : Bytes := kdf seed (ascii "MB3-T2-LINE") (toBe 2 b ++ [if g then 1 else 0]) 96

/-- Drawing a Tier-2 seed (R217): one whose XTS keys are equal is discarded and drawn again. A definition must end, so the
drawing does after eight such seeds with none at all (DESIGN CHOICE, log entry 61). -/
def drawSeed (s : State) (b : Nat) (g : Bool) : Nat → Option Bytes × State
  | 0 => (none, s)
  | fuel + 1 =>
    let seed := drawBytes s 32
    let k := lineKeys b g seed
    if slice k 0 32 = slice k 32 32 then drawSeed (drew s 32) b g fuel else (some seed, drew s 32)

/-! ### GENERATE, WRITE, READ -/

/-- GENERATE (R213, R225): exchange seeds with their berth, firmware slots, the ephemeral seed of a link slot, or a seed
field of an OPEN record. -/
def generateOp (s : State) : State :=
  let c := s.vault.cmd
  let k := c.index.toNat
  if c.space then
    let r := s.record k
    if c.field = 6 then vaultEnd s 0x03
    else if c.field ≠ 0 ∧ c.field ≠ 1 ∧ c.field ≠ 5 then vaultEnd s 0x04
    else if !r.opened then vaultEnd s 0x0D
    else if r.unusable then vaultEnd s 0x08
    else if (c.field = 0 ∧ r.t2Seed0.isSome) ∨ (c.field = 1 ∧ r.t2Seed1.isSome) ∨ (c.field = 5 ∧ r.pressSeed.isSome) then
      vaultEnd s 0x07
    else if !s.vault.drbgOk then vaultEnd s 0x0E
    else if c.field = 5 then
      vaultChanged (changeRecord (drew (notEmpty s) 48) k { r with pressSeed := some (drawBytes s 48) }) k
    else
      let g := c.field == 1
      match drawSeed s k g 8 with
      | (none, s1) => vaultEnd s1 0x0E
      | (seed, s1) => vaultChanged (changeRecord (notEmpty s1) k (if g then { r with t2Seed1 := seed } else { r with t2Seed0 := seed })) k
  else if k ≥ 64 then vaultEnd s 0x03
  else if k < 8 then vaultEnd s 0x04
  else if k < 12 then
    if !slotFree s k then vaultEnd s 0x07
    else if !s.vault.drbgOk then vaultEnd s 0x0E
    else vaultEnd (putSlot (notEmpty (drew s 120)) k
      { slotInit with typ := 4, dest := 0x080, expire := true, valid := true, berth := s.vault.aux.setWidth 16,
                      material := drawBytes s 120 }) 0
  else if k < 16 then
    match fwCheck c.typ.toNat s.vault.len.toNat (cmdDest s) with
    | 0 =>
      if !slotFree s k then vaultEnd s 0x07
      else if !s.vault.drbgOk then vaultEnd s 0x0E
      else vaultEnd (putSlot (notEmpty (drew s s.vault.len.toNat)) k
        (fwSlot c.typ.toNat (cmdDest s) (cmdExpire s) (drawBytes s s.vault.len.toNat))) 0
    | e => vaultEnd s e
  else if !slotFree s k then vaultEnd s 0x07
  else if !s.vault.drbgOk then vaultEnd s 0x0E
  else vaultChanged (putSlot (notEmpty (drew s 120)) k
    { slotInit with typ := 5, dest := 0x004, expire := true, valid := true, material := drawBytes s 120 ++ zeros 192 })
    (linkEntry k)

def execGenerate (c : VaultCmd) (s : State) : Out := whenVault s (fun s => vaultCommand s c true generateOp)

/-- WRITE (R211, R213): key material from VAULT_DATA into a firmware slot. -/
def writeOp (s : State) : State :=
  let c := s.vault.cmd
  let k := c.index.toNat
  if c.space then vaultEnd s 0x04
  else if k ≥ 64 then vaultEnd s 0x03
  else if k < 12 ∨ 16 ≤ k then vaultEnd s 0x04
  else
    match fwCheck c.typ.toNat s.vault.len.toNat (cmdDest s) with
    | 0 =>
      if !slotFree s k then vaultEnd s 0x07
      else vaultEnd (clearData (putSlot (notEmpty s) k
        (fwSlot c.typ.toNat (cmdDest s) (cmdExpire s) (mread 0 s.vault.data 0 s.vault.len.toNat)))) 0
    | e => vaultEnd s e

def execWrite (c : VaultCmd) (s : State) : Out := whenVault s (fun s => vaultCommand s c true writeOp)

/-- A slot's key for a use that needs a class: 0x04 for slots 0-3 under an invasive grant, 0x06 if it is empty or lacks
the class, 0x08 if UNUSABLE. -/
def inputSlot (s : State) (k : Nat) (cls : Nat) : State × Byte :=
  let d := s.slot k
  if s.vault.invOpen ∧ k < 4 then (s, 0x04)
  else if d.unusable then (s, 0x08)
  else if !d.valid ∨ !d.dest.getLsbD cls then (s, 0x06)
  else
    match useSlot s k with
    | (s1, true) => (s1, 0)
    | (s1, false) => (s1, 0x08)

/-- READ (R211): an FW_READ slot into VAULT_DATA. -/
def readOp (s : State) : State :=
  let k := s.vault.cmd.index.toNat
  if s.vault.cmd.space then vaultEnd s 0x04
  else if k ≥ 64 then vaultEnd s 0x03
  else
    match inputSlot s k 10 with
    | (s1, 0) => vaultEnd (putData s1 (s.slot k).material) 0
    | (s1, e) => vaultEnd s1 e

def execRead (c : VaultCmd) (s : State) : Out := whenVault s (fun s => vaultCommand s c false readOp)

/-! ### DERIVE, ATTR, DESTROY -/

/-- Label of slots 4-7, their input slot, TYPE, LEN and DEST (R213, R219). -/
def derivedSlot (k : Nat) : Bytes × Nat × Byte × Nat × BitVec 11 :=
  match k with
  | 4 => (ascii "MB3-ALIAS", 0, 2, 88, 0x040)
  | 5 => (ascii "MB3-SETTINGS", 2, 3, 32, 0x200)
  | 6 => (ascii "MB3-JOURNAL", 2, 3, 32, 0x200)
  | _ => (ascii "MB3-WRAP", 2, 3, 32, 0)

/-- The unit decodes as Scrapped with a region of 1-31 not Wiped, which refuses every key derivation (R201). -/
def scrapUnwiped (s : State) : Bool :=
  s.lc.state == 5 && ((List.range 31).map (1 + ·)).any (fun r => !(regionWords s.fuse r).all (fun x => x.cls == .wiped))

/-- DERIVE (R221). R201 gives no code for its refusal; the model gives 0x08 (DESIGN CHOICE, log entry 148). A firmware slot takes its
input's EXPIRE, and sets it too where VAULT_CMD_ATTR asks for it (R221 and R234; DESIGN CHOICE, log entry 178). -/
def deriveOp (s : State) : State :=
  let c := s.vault.cmd
  let k := c.index.toNat
  if scrapUnwiped s then vaultEnd s 0x08
  else if c.space then vaultEnd s 0x04
  else if k ≥ 64 then vaultEnd s 0x03
  else if 4 ≤ k ∧ k < 8 then
    let d := derivedSlot k
    if !slotFree s k then vaultEnd s 0x07
    else if k = 4 ∧ !s.vault.drbgOk then vaultEnd s 0x0E
    else
      match inputSlot s d.2.1 8 with
      | (s1, 0) =>
        let ctx := if k = 4 then drawBytes s1 48 else []
        let s2 := if k = 4 then drew s1 48 else s1
        vaultEnd (putSlot (notEmpty s2) k
          { slotInit with typ := d.2.2.1, dest := d.2.2.2.2, expire := true, valid := true,
                          material := kdf (s.slot d.2.1).material d.1 ctx d.2.2.2.1 }) 0
      | (s1, e) => vaultEnd s1 e
  else if 12 ≤ k ∧ k < 16 then
    let input := s.vault.aux.toNat
    let data := mread 0 s.vault.data 0 4096
    let ll := leAt data 0 1
    let label := slice data 1 ll
    let cl := leAt data (ll + 1) 2
    if input ≥ 64 then vaultEnd s 0x03
    else if ll = 0 ∨ ll > 64 ∨ cl > 1024 then vaultEnd (clearData s) 0x03
    else if label.any (· == 0) ∨ slice label 0 4 = ascii "MB3-" then vaultEnd (clearData s) 0x04
    else
      match fwCheck c.typ.toNat s.vault.len.toNat (cmdDest s) with
      | 0 =>
        if !slotFree s k then vaultEnd (clearData s) 0x07
        else
          match inputSlot s input 8 with
          | (s1, 0) => vaultEnd (clearData (putSlot (notEmpty s1) k
              (fwSlot c.typ.toNat (cmdDest s) ((s.slot input).expire || cmdExpire s)
                (kdf (s.slot input).material label (slice data (ll + 3) cl) s.vault.len.toNat)))) 0
          | (s1, e) => vaultEnd (clearData s1) e
      | e => vaultEnd (clearData s) e
  else vaultEnd s 0x04

def execDerive (c : VaultCmd) (s : State) : Out := whenVault s (fun s => vaultCommand s c true deriveOp)

/-- A slot emptied; its EPOCH goes on. What is kept of a link's agreements goes with it. -/
def emptySlot (s : State) (k : Nat) : State :=
  { s with vault := { s.vault with slots := tset s.vault.slots k { slotInit with epoch := (s.slot k).epoch + 1 }
                                   links := tdel s.vault.links k } }

/-- What a record is once destroyed: its EPOCH goes on from an OPEN record's (R215). -/
def closedRecord (r : BerthRecord) : BerthRecord := { recordInit with epoch := if r.opened then r.epoch + 1 else r.epoch }

/-- A record destroyed. -/
def emptyRecord (s : State) (b : Nat) : State :=
  rotationSeen (s.record b) { s with vault := { s.vault with
      records := tset s.vault.records b (closedRecord (s.record b)), sweeps := tdel s.vault.sweeps b } } b

/-- DESTROY (R233): a slot, a field of a record, or with FIELD 7 the whole record. -/
def destroyOp (s : State) : State :=
  let c := s.vault.cmd
  let k := c.index.toNat
  if c.space then
    if c.field = 6 then vaultEnd s 0x03
    else if c.field = 7 then vaultChanged (emptyRecord s k) k
    else
      let r := s.record k
      if !r.opened then vaultEnd s 0x0D
      else vaultChanged (changeRecord s k
        (match c.field.toNat with
          | 0 => { r with t2Seed0 := none }
          | 1 => { r with t2Seed1 := none }
          | 2 => { r with weight := none }
          | 3 => { r with bounce := none }
          | 4 => { r with pair := none }
          | _ => { r with pressSeed := none })) k
  else if k ≥ 64 then vaultEnd s 0x03
  else if k < 4 then vaultEnd s 0x04
  else if k < 16 then vaultEnd (emptySlot s k) 0
  else vaultChanged (emptySlot s k) (linkEntry k)

def execDestroy (c : VaultCmd) (s : State) : Out := whenVault s (fun s => vaultCommand s c false destroyOp)

/-- ATTR (R211): DEST bits cleared, EXPIRE set; never the other way. A link slot's change is invalidated (R228). -/
def attrOp (s : State) : State :=
  let k := s.vault.cmd.index.toNat
  let d := s.slot k
  if s.vault.cmd.space then vaultEnd s 0x04
  else if k ≥ 64 then vaultEnd s 0x03
  else if k < 4 then vaultEnd s 0x04
  else if d.unusable then vaultEnd s 0x08
  else if !d.valid then vaultEnd s 0x06
  else if cmdDest s &&& ~~~d.dest ≠ 0 ∨ (d.expire ∧ !cmdExpire s) then vaultEnd s 0x05
  else
    let s1 := putSlot s k { d with dest := cmdDest s, expire := cmdExpire s }
    if k < 16 then vaultEnd s1 0 else vaultChanged s1 (linkEntry k)

def execAttr (c : VaultCmd) (s : State) : Out := whenVault s (fun s => vaultCommand s c true attrOp)

/-! ### BERTH_OPEN, ROTATE, RELEASE -/

/-- Berth assignment and release are closed: a transition completed this boot, or an invasive grant (R185, R198). -/
def vaultClosed (s : State) : Bool := s.lc.doneThisBoot || s.pilot.assignClosed || s.vault.invOpen

/-- BERTH_OPEN (R216, R223): a fresh record with T2_SEED_0 and PRESS_SEED drawn after a reseed. -/
def berthOpenOp (s : State) : State :=
  let b := s.vault.cmd.index.toNat
  if !s.vault.cmd.space then vaultEnd s 0x04
  else if (s.record b).opened then vaultEnd s 0x07
  else if vaultClosed s then vaultEnd s 0x0D
  else if !s.vault.drbgOk then vaultEnd s 0x0E
  else
    let s0 := { s with vault := { s.vault with sinceReseed := 0 } }
    match drawSeed s0 b false 8 with
    | (none, s1) => vaultEnd s1 0x0E
    | (seed, s1) => vaultChanged (putRecord (notEmpty (drew s1 48)) b
        { recordInit with opened := true, epoch := 1, t2Seed0 := seed, pressSeed := some (drawBytes s1 48) }) b

def execBerthOpen (c : VaultCmd) (s : State) : Out := whenVault s (fun s => vaultCommand s c false berthOpenOp)

/-- ROTATE (R229): refused with 0x09 while ROTATING; else the other generation is drawn and becomes current. -/
def rotateOp (s : State) : State :=
  let b := s.vault.cmd.index.toNat
  let r := s.record b
  if !s.vault.cmd.space then vaultEnd s 0x04
  else if !r.opened then vaultEnd s 0x0D
  else if r.unusable then vaultEnd s 0x08
  else if r.rotating then vaultEnd s 0x09
  else if !s.vault.drbgOk then vaultEnd s 0x0E
  else
    match useRecord s b with
    | (s1, false) => vaultEnd s1 0x08
    | (s1, true) =>
      let g := !r.curGen
      match drawSeed s1 b g 8 with
      | (none, s2) => vaultEnd s2 0x0E
      | (seed, s2) =>
        let r' := if g then { r with t2Seed1 := seed } else { r with t2Seed0 := seed }
        invalidate (changeRecord { s2 with vault := { s2.vault with busy := true } } b
          { r' with curGen := g, rotating := true, sweepShare := s.vault.aux.setWidth 8 }) b (.rotate b)

def execRotate (c : VaultCmd) (s : State) : Out := whenVault s (fun s => vaultCommand s c false rotateOp)

/-- Z of an agreement (R218). For a peer key that is no point of the curve R226 names no refusal and R218 gives no Z: it is a free value,
and the command goes on (DESIGN CHOICE, log entry 175). -/
def agreeZ (seed peer : Bytes) : Bytes :=
  match ecdh (eccScalar seed) peer with
  | [] => padTo 48 (Config.offCurveZ seed peer)
  | z => padTo 48 z

/-- Z then SS of a hybrid agreement with an exchange seed (R213, R218). -/
def agree (seed peer ct : Bytes) : Bytes := agreeZ seed peer ++ padTo 32 (kemDecap (slice seed 56 64) ct)

/-- RELEASE (R226): the wrapped key under the release KEK goes straight into the field; the plaintext never passes
through VAULT_DATA. -/
def releaseOp (s : State) : State :=
  let c := s.vault.cmd
  let b := c.index.toNat
  let k := s.vault.aux.toNat
  let d := mread 0 s.vault.data 0 1773
  let r := s.record b
  let refuse (s : State) (e : Byte) : State := vaultEnd (clearData s) e
  if !c.space then refuse s 0x04
  else if k < 8 ∨ 12 ≤ k ∨ (c.field ≠ 2 ∧ c.field ≠ 3 ∧ c.field ≠ 4) then refuse s 0x03
  else
    match inputSlot s k 7 with
    | (s1, 0) =>
      if (s.slot k).berth ≠ BitVec.ofNat 16 b then refuse s1 0x0C
      else if !r.opened ∨ vaultClosed s then refuse s1 0x0D
      else
        match useRecord s1 b with
        | (s2, false) => refuse s2 0x08
        | (s2, true) =>
          let zss := agree (s.slot k).material (slice d 0 97) (slice d 97 1568)
          let kek := kdf zss (ascii "MB3-PRIRDO-KEK") (slice d 1665 48 ++ toBe 2 b ++ [c.field.setWidth 8]) 32
          match gcmDec kek (slice d 1713 12) (slice d 1665 48) (slice d 1725 32) (slice d 1757 16) with
          | none => refuse s2 0x0A
          | some key =>
            vaultChanged (clearData (changeRecord s2 b
              (match c.field.toNat with
                | 2 => { r with weight := some key }
                | 3 => { r with bounce := some key }
                | _ => { r with pair := some key }))) b
    | (s1, e) => refuse s1 e

def execRelease (c : VaultCmd) (s : State) : Out := whenVault s (fun s => vaultCommand s c false releaseOp)

/-! ### WRAP, UNWRAP, KEYPAIR, DESTROY_ALL -/

/-- Slot 7, which WRAP and UNWRAP use internally. -/
def wrapKey (s : State) : State × Byte :=
  if (s.slot 7).unusable then (s, 0x08)
  else if !(s.slot 7).valid then (s, 0x06)
  else
    match useSlot s 7 with
    | (s1, true) => (s1, 0)
    | (s1, false) => (s1, 0x08)

/-- WRAP (R233). Under an invasive grant it is refused with 0x06 before anything else (R199). R233 sets no lower limit on LEN for it: a
slot with LEN 4,053-4,064 makes a blob longer than VAULT_DATA, of which the first 4,096 B stay (DESIGN CHOICE, log entry 177). -/
def wrapOp (s : State) : State :=
  let k := s.vault.cmd.index.toNat
  let d := s.slot k
  if s.vault.invOpen then vaultEnd s 0x06
  else if s.vault.cmd.space then vaultEnd s 0x04
  else if k ≥ 64 then vaultEnd s 0x03
  else if k < 12 ∨ 16 ≤ k then vaultEnd s 0x04
  else if d.unusable then vaultEnd s 0x08
  else if !d.valid then vaultEnd s 0x06
  else if d.expire then vaultEnd s 0x0C
  else if !s.vault.drbgOk then vaultEnd s 0x0E
  else
    match useSlot s k with
    | (s1, false) => vaultEnd s1 0x08
    | (s1, true) =>
      match wrapKey s1 with
      | (s2, 0) =>
        let iv := drawBytes s2 12
        let ct := gcmEnc (s.slot 7).material iv (slotHead d) d.material
        vaultEnd (putData (drew s2 12) ((slotHead d ++ iv ++ ct.1 ++ ct.2).take 4096)) 0
      | (s2, e) => vaultEnd s2 e

def execWrap (c : VaultCmd) (s : State) : Out := whenVault s (fun s => vaultCommand s c false wrapOp)

/-- UNWRAP (R233): the blob's TYPE and LEN; a DEST or EXPIRE wider than the blob's is refused with 0x05. Under an invasive grant it is
refused with 0x06 before anything else (R199). A LEN above 4,052 leaves VAULT_DATA no room for its tag, so the blob's tag fails: 0x0B
(DESIGN CHOICE, log entry 177). -/
def unwrapOp (s : State) : State :=
  let k := s.vault.cmd.index.toNat
  let data := mread 0 s.vault.data 0 4096
  let head := slice data 0 16
  let len := leAt head 2 2
  let attr := BitVec.ofNat 32 (leAt head 4 4)
  let refuse (s : State) (e : Byte) : State := vaultEnd (clearData s) e
  if s.vault.invOpen then refuse s 0x06
  else if s.vault.cmd.space then refuse s 0x04
  else if k ≥ 64 then refuse s 0x03
  else if k < 12 ∨ 16 ≤ k then refuse s 0x04
  else if !slotFree s k then refuse s 0x07
  else if len = 0 ∨ len > 4052 then refuse s 0x0B
  else
    match wrapKey s with
    | (s1, 0) =>
      (match gcmDec (s.slot 7).material (slice data 16 12) head (slice data 28 len) (slice data (28 + len) 16) with
        | none => refuse s1 0x0B
        | some m =>
          (match fwCheck (leAt head 0 1) len (cmdDest s) with
            | 0 =>
              if cmdDest s &&& ~~~(attr.setWidth 11 : BitVec 11) ≠ 0 then refuse s1 0x05
              else vaultEnd (clearData (putSlot (notEmpty s1) k
                (fwSlot (leAt head 0 1) (cmdDest s) (cmdExpire s || attr.getLsbD 16) m))) 0
            | e => refuse s1 e))
    | (s1, e) => refuse s1 e

def execUnwrap (c : VaultCmd) (s : State) : Out := whenVault s (fun s => vaultCommand s c true unwrapOp)

/-- The id-tvx-hybrid-key of a signing seed (R213, R241). -/
def hybridPub (seed : Bytes) : Bytes := padTo 97 (eccPub (eccScalar seed)) ++ padTo 2592 (mldsaPub (slice seed 56 32))

/-- The id-tvx-hybrid-kem of an exchange seed (R225, R241). -/
def kemPair (seed : Bytes) : Bytes := padTo 97 (eccPub (eccScalar seed)) ++ padTo 1568 (kemPub (slice seed 56 64))

/-- KEYPAIR (R225, R235): the public keys of a slot's seed into VAULT_DATA. The key itself goes to no engine, so no DEST bit of R210 is
asked for (DESIGN CHOICE, log entry 179). -/
def keypairOp (s : State) : State :=
  let k := s.vault.cmd.index.toNat
  let d := s.slot k
  if s.vault.cmd.space then vaultEnd s 0x04
  else if k ≥ 64 then vaultEnd s 0x03
  else if s.vault.invOpen ∧ k < 4 then vaultEnd s 0x04
  else if d.unusable then vaultEnd s 0x08
  else if !d.valid then vaultEnd s 0x06
  else if d.typ ≠ 2 ∧ d.typ ≠ 4 ∧ d.typ ≠ 5 then vaultEnd s 0x04
  else
    match useSlot s k with
    | (s1, false) => vaultEnd s1 0x08
    | (s1, true) => vaultEnd (putData s1 (if d.typ = 2 then hybridPub d.material else kemPair d.material)) 0

def execKeypair (c : VaultCmd) (s : State) : Out := whenVault s (fun s => vaultCommand s c false keypairOp)

/-- A slot of 4-63 destroyed if it holds a key. -/
def destroySlot (s : State) (k : Nat) : State := if 4 ≤ k ∧ (s.slot k).valid then emptySlot s k else s

/-- The destructions of R198: every record and slots 4-63, whose EPOCHs go on, with one invalidation of everything on every
port. -/
def destroyAllNow (s : State) : State :=
  let s1 := (s.vault.slots.map (·.1)).foldl destroySlot s
  let s2 := (s.vault.records.map (·.1)).foldl emptyRecord s1
  invalidate { s2 with vault := { s2.vault with sweeps := [], busy := true, err := 0 } } 8192 .destroyAll

def execDestroyAll (c : VaultCmd) (s : State) : Out := whenVault s (fun s => vaultCommand s c false destroyAllNow)

/-- A reserved OP (R235) is refused with 0x02, and a reserved step of LINK_AGREE (R386) with 0x03. -/
def execVaultReservedOp (c : VaultCmd) (op : BitVec 5) (s : State) : Out :=
  whenVault s (fun s =>
    let step := s.vault.aux.toNat % 16
    if op = 0 ∨ 0x0F ≤ op.toNat then vaultCommand s c false (fun s => vaultEnd s 0x02)
    else if op = 0x0E ∧ (step = 0 ∨ 9 ≤ step) then vaultCommand s c false (fun s => vaultEnd s 0x03)
    else s)

/-! ### Fills (R35, R227) -/

/-- The port an island misses at: stack groups 0-7, Tier 2 8, Gangway groups 9-12, Ferry 13, Press sampler 14. -/
def portOf (i : Island) : Nat :=
  match i with
  | .pier n => pierGroup n
  | .gangway n => if n < 48 then 9 + n / 12 else 9 + (n - 48)
  | .ferry _ => 13
  | _ => 14

/-- A miss joins its port's queue; a miss on an entry already waiting there joins it (R35). -/
def joinMiss : List (Nat × List Nat) → Nat → Nat → List (Nat × List Nat)
  | [], e, i => [(e, [i])]
  | (f, l) :: q, e, i => if f = e then (f, if l.contains i then l else l ++ [i]) :: q else (f, l) :: joinMiss q e i

def vaultMiss (s : State) (i : Island) (entry : Nat) : State :=
  { s with vault := { s.vault with ports := tmod [] s.vault.ports (portOf i) (joinMiss · entry (islandIx i)) } }

/-- The contents of a fill for a port (the table before R227). -/
def fillContent (s : State) (port entry : Nat) : KeyFill :=
  let blank : KeyFill := { epoch := 0, flags := 0, gen0 := none, gen1 := none, pair := none, weight := none, bounce := none,
                           press := none, link := [] }
  if entry < 4096 then
    let r := s.record entry
    let base := { blank with epoch := r.epoch, flags := recordFlags r }
    if port < 8 then { base with pair := r.pair }
    else if port = 8 then { base with gen0 := r.t2Seed0.map (lineKeys entry false), gen1 := r.t2Seed1.map (lineKeys entry true),
                                       pair := r.pair }
    else if port = 13 then { base with weight := r.weight, bounce := r.bounce }
    else { base with press := r.pressSeed }
  else
    let d := s.slot (entry - 4096)
    let c := tfind s.vault.links (entry - 4096)
    { blank with epoch := d.epoch, link := d.material.drop 120 ++ toLe 4 ((c.map (·.gen)).getD 0) ++ toLe 4 ((c.map (·.maintGen)).getD 0) }

/-- The fill at the head of a port's queue goes to every island that waits for it (R207, R210, R227); a record not OPEN or
UNUSABLE, one whose tag fails, or a link slot without the class GANGWAY, is answered with a refusal. -/
def serveFill (s : State) (port : Nat) : State :=
  match tget [] s.vault.ports port with
  | [] => s
  | (entry, dests) :: rest =>
    let s0 := { s with vault := { s.vault with ports := tset s.vault.ports port rest } }
    if entry < 4096 then
      if !(s.record entry).opened ∨ (s.record entry).unusable then sendAll s0 dests (.fill entry none)
      else
        match useRecord s0 entry with
        | (s1, true) => sendAll s1 dests (.fill entry (some (fillContent s1 port entry)))
        | (s1, false) => sendAll s1 dests (.fill entry none)
    else if !(s.slot (entry - 4096)).valid ∨ (s.slot (entry - 4096)).unusable ∨ !(s.slot (entry - 4096)).dest.getLsbD 2 then sendAll s0 dests (.fill entry none)
    else
      match useSlot s0 (entry - 4096) with
      | (s1, true) => sendAll s1 dests (.fill entry (some (fillContent s1 port entry)))
      | (s1, false) => sendAll s1 dests (.fill entry none)

/-- The port whose fill is next: in round-robin order the first that a miss waits at (R227). -/
def fillPort (s : State) : Option Nat :=
  ((List.range 15).map (fun i => (s.vault.turn + i) % 15)).find? (fun p => !(tget [] s.vault.ports p).isEmpty)

/-- A word of the entry that a port's next fill reads is uncorrectable (R24, R207). -/
def spoilNext (s : State) (port : Nat) : State :=
  match tget [] s.vault.ports port with
  | [] => s
  | (entry, _) :: _ => spoilEntry s entry

/-- VAULT_FILL (R227): the next port in round-robin order is served one fill; `readable` is the RS decoding of the entry it
reads. -/
def vaultFill (s : State) (readable : Bool) : State :=
  match fillPort s with
  | none => s
  | some p =>
    let s1 := { s with vault := { s.vault with turn := (p + 1) % 15 } }
    serveFill (if readable then s1 else spoilNext s1 p) p

def execVaultFill (readable : Bool) (s : State) : Out :=
  whenRunning s (fun s => if clocked s .vaultFuse then vaultFill s readable else s)

/-- The Pier of a port has reported the sweep of berth b done; the last one of a berth completes the rotation (R231). -/
def sweepReport (s : State) (pier b : Nat) : State :=
  match tfind s.vault.sweeps b with
  | none => s
  | some l =>
    match l.filter (· != pier) with
    | [] =>
      let s1 := { s with vault := { s.vault with sweeps := tdel s.vault.sweeps b } }
      if (s1.record b).opened then invalidate (endRotation s1 b) b (.sweepEnd b) else s1
    | l' => { s with vault := { s.vault with sweeps := tset s.vault.sweeps b l' } }

end Sys2Proof.Machine
end

