-- ==== Sys2Proof/Machine/CryptoEngine.lean ====
section
/-! DEFINITION. The crypto engines' commands (R238) and the entropy source and DRBG events (R223, R224). -/

namespace Sys2Proof.Machine

/-- An operation refused: it ends at once with its code. -/
def cryptoRefuse (s : State) (err : Byte) : State :=
  { s with crypto := { s.crypto with busy := false, done := true, pass := false, err := err } }

/-- An operation begins; its result appears when it ends. -/
def cryptoRun (s : State) (err : Byte) (pass : Bool) (out : Bytes) : State :=
  { s with crypto := { s.crypto with busy := true, result := some (err, pass, out) } }

/-- A CRYPTO_CMD write: 0x01 while an operation runs; KEYSEL taken; LEN must be 1-8,192 (0x05). -/
def cryptoCommand (s : State) (ks : BitVec 6) (f : State → State) : State :=
  if s.crypto.busy then { s with crypto := { s.crypto with err := 0x01 } }
  else
    let s1 := { s with crypto := { s.crypto with keysel := ks, pass := false, err := 0 } }
    if s1.crypto.len.toNat = 0 ∨ s1.crypto.len.toNat > 8192 then cryptoRefuse s1 0x05 else f s1

/-- The input bytes. -/
def cryptoInput (s : State) : Bytes := mread 0 s.crypto.inBuf 0 s.crypto.len.toNat

/-- The key slot of a keyed operation (R238): 0x04 if UNUSABLE or refused, 0x03 if it lacks the class. -/
def cryptoKey (s : State) (cls : Nat) (f : State → Bytes → State) : State :=
  let k := s.crypto.keysel.toNat
  let d := s.slot k
  if d.unusable ∨ (s.vault.invOpen ∧ k < 4) then cryptoRefuse s 0x04
  else if !d.valid ∨ !d.dest.getLsbD cls then cryptoRefuse s 0x03
  else
    match useSlot s k with
    | (s1, true) => f s1 d.material
    | (s1, false) => cryptoRefuse s1 0x04

def execSha384Op (keysel : BitVec 6) (s : State) : Out :=
  whenCommanded s (fun s => cryptoCommand s keysel (fun s => cryptoRun s 0 false (sha384 (cryptoInput s))))

def execSha3Op (keysel : BitVec 6) (s : State) : Out :=
  whenCommanded s (fun s => cryptoCommand s keysel (fun s => cryptoRun s 0 false (sha3384 (cryptoInput s))))

def execHmacOp (keysel : BitVec 6) (s : State) : Out :=
  whenCommanded s (fun s => cryptoCommand s keysel (fun s => cryptoKey s 9 (fun s key =>
    cryptoRun s 0 false (hmac384 key (cryptoInput s)))))

/-- AES-GCM encrypt: IV, AAD length, AAD, data in; ciphertext then tag out. -/
def execAesGcmEncrypt (keysel : BitVec 6) (s : State) : Out :=
  whenCommanded s (fun s => cryptoCommand s keysel (fun s => cryptoKey s 9 (fun s key =>
    let m := cryptoInput s
    let n := leAt m 12 4
    if m.length < 16 + n then cryptoRefuse s 0x05
    else
      let r := gcmEnc key (slice m 0 12) (slice m 16 n) (m.drop (16 + n))
      cryptoRun s 0 false (r.1 ++ r.2))))

/-- AES-GCM decrypt: the data is ciphertext then tag; a tag that fails gives 0x06 and no output. -/
def execAesGcmDecrypt (keysel : BitVec 6) (s : State) : Out :=
  whenCommanded s (fun s => cryptoCommand s keysel (fun s => cryptoKey s 9 (fun s key =>
    let m := cryptoInput s
    let n := leAt m 12 4
    if m.length < 32 + n then cryptoRefuse s 0x05
    else
      let c := m.drop (16 + n)
      match gcmDec key (slice m 0 12) (slice m 16 n) (c.take (c.length - 16)) (c.drop (c.length - 16)) with
      | some p => cryptoRun s 0 false p
      | none => cryptoRun s 0x06 false [])))

/-- The two halves of a hybrid signature by a signing seed over a 48-byte message (R213, R238). -/
def hybridSigOf (seed msg : Bytes) (rand : Nat) : Bytes :=
  let r := padTo 88 (Config.signRandom rand)
  padTo 96 (ecdsaSign (eccScalar seed) msg (eccScalar r)) ++ padTo 4627 (mldsaSign (slice seed 56 32) msg (slice r 56 32))

/-- Hybrid sign: a 48-byte message under a SIGN slot. -/
def execHybridSign (keysel : BitVec 6) (s : State) : Out :=
  whenCommanded s (fun s => cryptoCommand s keysel (fun s => cryptoKey s 6 (fun s key =>
    if s.crypto.len ≠ 48 then cryptoRefuse s 0x05
    else cryptoRun (drew s 1) 0 false (hybridSigOf key (cryptoInput s) s.pilot.drawn))))

/-- Hybrid verify: PASS only if both halves verify (R18). -/
def execHybridVerify (keysel : BitVec 6) (s : State) : Out :=
  whenCommanded s (fun s => cryptoCommand s keysel (fun s =>
    let m := cryptoInput s
    if m.length ≠ 7460 then cryptoRefuse s 0x05
    else cryptoRun s 0 (hybridOk (slice m 0 2689) (slice m 7412 48) (slice m 2689 4723)) []))

/-- DRBG_READ: LEN bytes, refused with 0x07 while the DRBG is not healthy. -/
def execDrbgRead (keysel : BitVec 6) (s : State) : Out :=
  whenCommanded s (fun s => cryptoCommand s keysel (fun s =>
    if !s.vault.drbgOk then cryptoRefuse s 0x07
    else cryptoRun (drew s s.crypto.len.toNat) 0 false (drawBytes s s.crypto.len.toNat)))

/-- A reserved OP is refused with 0x02. -/
def execCryptoReservedOp (keysel : BitVec 6) (op : BitVec 4) (s : State) : Out :=
  whenCommanded s (fun s =>
    if op = 0 ∨ 9 ≤ op.toNat then
      (if s.crypto.busy then { s with crypto := { s.crypto with err := 0x01 } }
       else cryptoRefuse { s with crypto := { s.crypto with keysel := keysel } } 0x02)
    else s)

/-- CRYPTO_OP_DONE: the running operation ends with its result. -/
def execCryptoOpDone (s : State) : Out :=
  whenRunning s (fun s =>
    match s.crypto.result with
    | some (e, p, out) =>
      { s with crypto := { s.crypto with busy := false, done := true, err := e, pass := p, result := none, outBuf := mOf out } }
    | none => s)

/-! ### Entropy and the DRBG -/

/-- A new debug nonce, or none while the DRBG is not healthy (R196). -/
def drawNonce (s : State) : State :=
  if s.vault.drbgOk then
    let s1 := drew s 48
    { s1 with lc := { s1.lc with nonce := some (drawBytes s 48) } }
  else { s with lc := { s.lc with nonce := none } }

/-- ENTROPY_TEST_FAIL (R196, R224): DRBG_OK clears, no debug nonce is held and the alarm is raised; before firmware entry MB3
halts with 0x89, which waits for the ROM's step of R105 that reports it. -/
def entropyFail (s : State) : State :=
  let s1 := { s with vault := { s.vault with drbgOk := false, entropyFailed := true }, lc := { s.lc with nonce := none } }
  match s.pilot.phase with
  | .firmware => alarm s1 .trustCore 0x0301 0 0
  | .warm => alarm s1 .trustCore 0x0301 0 0
  | .halted => s1
  | _ => if s.pilot.policyDone then halt s1 0x89 else s1

def execEntropyTestFail (s : State) : Out := whenRunning s entropyFail

/-- DRBG_RESEED (R224): DRBG_OK sets again once the start-up tests of a reseed pass; a nonce not held is drawn (R196). -/
def drbgReseed (s : State) (pass : Bool) : State :=
  if pass then
    let late := s.pilot.phase == .firmware || s.pilot.phase == .warm || s.pilot.phase == .halted
    let s1 := { s with vault := { s.vault with drbgOk := true, entropyFailed := s.vault.entropyFailed && !late, sinceReseed := 0 } }
    if s1.lc.nonce.isNone then drawNonce s1 else s1
  else s

def execDrbgReseed (pass : Bool) (s : State) : Out :=
  whenRunning s (fun s => if s.pilot.entropyOk then drbgReseed s pass else s)

end Sys2Proof.Machine
end

