-- ==== Sys2Proof/Machine/Reply.lean ====
section
/-! DEFINITION. How Pilot's answers to mailbox commands leave (R530-R535). -/

namespace Sys2Proof.Machine

/-- The message slot of a function whose mailbox is SERVING takes the response: CODE, MSTATUS, the request's TAG, LENGTH
and the body (R530, R557). -/
def putResponse (s : State) (f : Func) (code mstatus : Byte) (body : Bytes) : State :=
  let x := s.fn f
  match x.mbx, x.slot with
  | .serving, some k =>
    let old := (tget hostSlotInit s.host.slots k).msg
    let m := [code, mstatus] ++ mread 0 old 2 2 ++ toLe 4 body.length ++ body
    { s with host := { s.host with slots := tset s.host.slots k { owner := some (fnIx f), msg := mOf m } } }
  | _, _ => s

/-- Pilot's response to a function's command, with its MSTATUS. -/
def replyMs (s : State) (f : Func) (code mstatus : Byte) (body : Bytes) : State :=
  putResponse (emit s (.reply f code mstatus body)) f code mstatus body

/-- Pilot answers a mailbox command of a function: code, MSTATUS 0x00 and the body. -/
def reply (s : State) (f : Func) (code : Byte) (body : Bytes) : State := replyMs s f code 0 body

/-- STATUS and three reserved bytes. -/
def statusBody (st : Byte) : Bytes := [st, 0, 0, 0]

end Sys2Proof.Machine
end

