-- ==== Sys2Proof/Machine/Journal.lean ====
section
/-! DEFINITION. The journal in flash, the life-long counters with their anchors, the fault window's registers, and
external time (16). -/

namespace Sys2Proof.Machine

/-! ### Flash (R94, R275, R287) -/

def flashRead (s : State) (a n : Nat) : Bytes := mread 0xFF s.flash a n

/-- Programming can only clear bits. -/
def flashProgram (s : State) (a : Nat) (b : Bytes) : State :=
  { s with flash := mwrite 0xFF s.flash a (List.zipWith (· &&& ·) (flashRead s a b.length) b) }

/-- Erase of `n` sectors of 64 KiB from address `a`; each is a flash erase event (R573). -/
def flashErase (s : State) (a n : Nat) : State := bump { s with flash := merase s.flash a (a + 65536 * n) } 5 n

/-! ### Records in flash (R569-R572) -/

/-- Sectors of the journal: the device from 0x0370_0000 to its end. -/
def journalSectors (s : State) : Nat := s.pilot.flashSectors - 0x370

/-- Address of a slot. -/
def slotAddr (sector slot : Nat) : Nat := 0x03700000 + 65536 * sector + 64 * slot

def slotBytes (s : State) (sector slot : Nat) : Bytes := flashRead s (slotAddr sector slot) 64

/-- A record counts as committed only if COMMIT reads exactly 0x4A52_4E4C. -/
def committed (r : Bytes) : Bool := leAt r 60 4 == 0x4A524E4C

/-- The record's tag verifies under slot 6. -/
def recordVerified (s : State) (r : Bytes) : Bool :=
  slotServes s 6 9 && gcmTag (s.slot 6).material (toBe 8 (leAt r 0 8) ++ slice r 40 4) (slice r 0 44) [] == slice r 44 16

/-- A record whose tag fails although its LC is the present one and its tag is not the all-zero one of R199 (R572). -/
def recordBad (s : State) (r : Bytes) : Bool :=
  !recordVerified s r && byteAt r 11 == lcByte s && !allZero (slice r 44 16)

/-- Every committed record of a sector, in slot order. -/
def sectorRecords (s : State) (sector : Nat) : List Bytes :=
  ((List.range 1024).map (slotBytes s sector)).filter committed

/-- The newest sector but for one passed over: of those whose committed SECTOR record has the highest event number. -/
def newestBut (s : State) (skip : Option Nat) : Option Nat :=
  let c := (List.range (journalSectors s)).filter (fun i => skip != some i && committed (slotBytes s i 0) && leAt (slotBytes s i 0) 8 2 == 1)
  c.foldl (fun b i => match b with
    | none => some i
    | some j => if leAt (slotBytes s j 0) 0 8 < leAt (slotBytes s i 0) 0 8 then some i else some j) none

/-- The newest sector. -/
def newestSector (s : State) : Option Nat := newestBut s none

/-- The committed records of a sector found, if any. -/
def recordsOf (s : State) : Option Nat → List Bytes
  | some i => sectorRecords s i
  | none => []

/-- The first slot of a sector, from a slot on, that is still erased: no other is ever programmed (R571). -/
def freeSlot (s : State) (sector start : Nat) : Nat :=
  match ((List.range 1024).drop start).find? (fun i => (slotBytes s sector i).all (· == 0xFF)) with
  | some i => i
  | none => 1024

/-! ### Counters and anchors (R573, R574) -/

/-- A COUNTERS record: boots and hours as arguments, the other four in DATA. -/
def countersRecord (s : State) : State :=
  let c (i : Nat) : Nat := tget 0 s.jrn.counters i
  takeEntry { s with jrn := { s.jrn with countersDirty := false } }
    { srcKind := 0, srcInst := 0, kind := 0x0002, count := 1, arg0 := BitVec.ofNat 32 (c 0), arg1 := BitVec.ofNat 32 (c 1),
      data := toLe 4 (c 2) ++ toLe 4 (c 3) ++ toLe 4 (c 4) ++ toLe 4 (c 5) }

/-- The counters a COUNTERS record holds. -/
def countersOf (r : Bytes) : List Nat := [leAt r 16 4, leAt r 20 4, leAt r 24 4, leAt r 28 4, leAt r 32 4, leAt r 36 4]

/-- VPP_OK_SET (R156): pending anchor burns are tried again (R574). -/
def execVppOkSet (s : State) : Out :=
  whenRunning s (fun s => if pilotUp s then anchorBurn (vppSet s) else vppSet s)

/-- COUNTERS_RECORD_TIMER (R574): within 10 s of a change a COUNTERS record is written; anchors follow its commit. -/
def execCountersRecordTimer (s : State) : Out :=
  whenPilot s (fun s => if s.jrn.countersDirty then countersRecord s else s)

/-- POWER_ON_HOUR_TICK (R573). -/
def execPowerOnHourTick (s : State) : Out := whenPilot s (fun s => bump s 1 1)

/-! ### The journal scan (R572, R574) -/

/-- The COUNTERS record the counters are set from: the newest that verifies or carries another LC. -/
def newestCounters (s : State) (rs : List Bytes) : Option Bytes :=
  (rs.filter (fun r => leAt r 8 2 == 2 && (recordVerified s r || byteAt r 11 != lcByte s))).getLast?

/-- Counter i from its record and its anchor. -/
def counterFrom (s : State) (c i : Nat) : Nat := max c (anchorCount s i * granule i)

/-- JOURNAL_SCAN: the newest sector is found and read, counters are set (from the sector before it where its opening was cut short
of its COUNTERS record), a counter below its anchor is raised with
ROLLBACK, BOOT is one more than the largest of the three values, records that fail their tag raise TAG_BAD, and the
reports taken so far get their event numbers. What the counters counted in this startup before the scan is added (R573). -/
def journalScan (s : State) : State :=
  let sec := newestSector s
  let rs := recordsOf s sec
  let cs := match newestCounters s rs, sec with
    | some r, _ => countersOf r
    | none, none => [0, 0, 0, 0, 0, 0]
    | none, some _ => ((newestCounters s (recordsOf s (newestBut s sec))).map countersOf).getD [0, 0, 0, 0, 0, 0]
  let vals := (List.range 6).map (fun i => counterFrom s (cs.getD i 0) i)
  let boot := (rs.foldl (fun m r => max m (leAt r 4 4)) (vals.getD 0 0)) + 1
  let early := s.jrn.early
  let s1 := { s with jrn := { s.jrn with
    scanned := true
    early := []
    boot := boot % 2 ^ 32
    index := 0
    sector := sec.getD (journalSectors s - 1)
    slot := match sec with
      | some i => freeSlot s i 0
      | none => 1024
    counters := (List.range 6).map (fun i => (i, if i = 0 then boot else vals.getD i 0 + tget 0 s.jrn.counters i)) } }
  let s2 := early.foldl recordEntry (if s1.pilot.flashOctal then s1 else record s1 0x0505 0 0)
  let s3 := (List.range 6).foldl (fun s i =>
    if cs.getD i 0 < anchorCount s i * granule i then
      record s 0x0006 (BitVec.ofNat 32 i) (BitVec.ofNat 32 (anchorCount s i * granule i)) else s) s2
  let s4 := (rs.filter (recordBad s)).foldl (fun s r => record s 0x0008 (BitVec.ofNat 32 (leAt r 0 4)) (BitVec.ofNat 32 (leAt r 4 4))) s3
  countersRecord s4

/-! ### Writing records (R569, R571) -/

/-- The own erase count of a sector, from its SECTOR record. -/
def sectorErases (s : State) (sector : Nat) : Nat :=
  let r := slotBytes s sector 0
  if committed r && leAt r 8 2 == 1 then leAt r 16 4 else 0

/-- What a failed program left in the slot: COMMIT is programmed only once the other bytes read back as the record's (R571). -/
def tornRecord (rcd unwritten : Bytes) : Bytes :=
  let img := List.zipWith (· ||| ·) rcd (unwritten ++ List.replicate (64 - unwritten.length) 0xFF)
  if img.take 60 = rcd.take 60 then img else img.take 60 ++ List.replicate 4 0xFF

/-- A failure at the present place is tried once more; then JOURNAL_FAIL is raised with the Flash status, and the next sector is taken.
At startup three sectors without success halt with 0xA3; the flash takes no HALT record then. `inErase`: it was the opening of a
sector that failed. -/
def journalFail (s : State) (inErase : Bool) (status : Word) : State :=
  let j := s.jrn
  if j.fails = 0 then { s with jrn := { j with fails := 1, down := true } }
  else
    let s1 := { s with jrn := { j with fails := 0, down := true, sectorFails := j.sectorFails + 1, slot := 1024,
                                       sector := if inErase then (j.sector + 1) % journalSectors s else j.sector } }
    let s2 := record s1 0x0007 (BitVec.ofNat 32 s1.jrn.sector) status
    if s1.jrn.sectorFails ≥ 3 ∧ !s.pilot.ready then halt s2 0xA3 else s2

/-- A SECTOR record opens the next sector (R569), with a COUNTERS record to follow. At INDEX 2^32 - 1 the one DROPPED record takes
that number and no sector is opened any more (R560). -/
def openSector (s : State) (e : FlashEnd) : State :=
  if 2 ^ 32 - 1 ≤ s.jrn.index then record s 0x0003 1 0xFFFFFFFF
  else
    let n := (s.jrn.sector + 1) % journalSectors s
    let erases := sectorErases s n + 1
    let s1 := flashErase s (slotAddr n 0) 1
    let x : AlarmEntry := { srcKind := 0, srcInst := 0, kind := 0x0001, count := 1, arg0 := BitVec.ofNat 32 erases,
                            arg1 := BitVec.ofNat 32 n, data := zeros 16 }
    let rcd := recordBytes s1 (BitVec.ofNat 64 (s1.jrn.boot * 2 ^ 32 + s1.jrn.index)) x
    match e with
    | .ok =>
      let s2 := if saltDrawn s1 then drew s1 4 else s1
      countersRecord (flashProgram { s2 with jrn := { s2.jrn with
        index := s2.jrn.index + 1, sector := n, slot := 1, fails := 0, sectorFails := 0, down := false } } (slotAddr n 0) rcd)
    | .failed u status => journalFail (flashProgram s1 (slotAddr n 0) (tornRecord rcd u)) true status
    | .eraseFailed status => journalFail s true status

/-- A DROPPED record for what a full buffer lost, once the flash takes records again. -/
def reportDropped (s : State) : State :=
  match s.jrn.dropped with
  | some (n, first) => record { s with jrn := { s.jrn with dropped := none } } 0x0003 (BitVec.ofNat 32 n) (BitVec.ofNat 32 first)
  | none => s

/-- A COUNTERS record is committed: the anchors follow it (R574). -/
def settleCounters (s : State) (rcd : Bytes) : State :=
  anchorBurn { s with jrn := { s.jrn with settled := (List.range 6).zip (countersOf rcd) } }

/-- JOURNAL_RECORD_COMMIT (R571): the oldest buffered record goes into the next slot that is still erased, or the next sector is
opened. -/
def commitRecord (s : State) (e : FlashEnd) : State :=
  match s.jrn.buffer with
  | [] => s
  | rcd :: rest =>
    if journalSectors s = 0 then { s with jrn := { s.jrn with down := true } }
    else
      let k := freeSlot s s.jrn.sector s.jrn.slot
      if k ≥ 1024 then openSector s e
      else
        match e with
        | .ok =>
          let j := { s.jrn with buffer := rest, slot := k + 1, fails := 0, sectorFails := 0, down := false }
          let s1 := flashProgram { s with jrn := j } (slotAddr s.jrn.sector k) rcd
          reportDropped (if leAt rcd 8 2 = 2 then settleCounters s1 rcd else s1)
        | .failed u status => journalFail (flashProgram s (slotAddr s.jrn.sector k) (tornRecord rcd u)) false status
        | .eraseFailed status => journalFail s false status

def execJournalRecordCommit (programOk : FlashEnd) (s : State) : Out := whenPilot s (commitRecord · programOk)

/-- At most `n` commits, until no record waits or the flash takes none. -/
def flushRecords : Nat → State → State
  | 0, s => s
  | n + 1, s => if s.jrn.buffer.isEmpty || s.jrn.down then s else flushRecords n (commitRecord s .ok)

/-- R571: the records that wait come before an update erase or program. A program that fails is JOURNAL_RECORD_COMMIT's own: these
succeed (DESIGN CHOICE, log entry 188). -/
def recordsFirst (s : State) : State := flushRecords 600 s

/-- A halt of Pilot firmware (0xA0 to 0xA6): the HALT record is written before it, if flash is usable (R566). -/
def firmwareHalt (s : State) (code : Byte) : State :=
  halt (if s.pilot.flashReady then recordsFirst (record s 0x0303 (code.setWidth 32) 0) else s) code

/-! ### Draining the islands' queues (R565, R566, R578) -/

/-- The first island at or after the drain's place whose queue is not empty. -/
def drainHead (s : State) : Option Nat :=
  ((List.range 234).map (fun k => (s.jrn.drain + k) % 234)).find? (fun i => !(tget [] s.jrn.queues i).isEmpty)

/-- The head entry leaves its queue, and the drain goes on to the next island (R565). -/
def drainOne (s : State) : State × Option AlarmEntry :=
  match drainHead s with
  | none => (s, none)
  | some i =>
    match tget [] s.jrn.queues i with
    | [] => (s, none)
    | e :: q => ({ s with jrn := { s.jrn with queues := tset s.jrn.queues i q, drain := (i + 1) % 234 } }, some e)

/-- JRN_AQ_POP (R566): the head entry becomes a numbered record, routed by its KIND; a DARN record advances the Darn count
(R573). -/
def popAlarm (s : State) : State :=
  match drainOne s with
  | (s1, none) => s1
  | (s1, some e) =>
    let s2 := takeEntry s1 e
    if e.kind = 0x0200 then bump s2 2 e.count else s2

/-- JRN_POST_CTL.RING (R578): JRN_POST as ALARM_NOTIFY. -/
def execRing (s : State) : Out :=
  whenCommanded s (fun s => notify s (BitVec.ofNat 16 (leNat (mread 0 s.jrn.post 8 2))) (leNat (mread 0 s.jrn.post 14 2))
    (BitVec.ofNat 64 (leNat (mread 0 s.jrn.post 0 8))))

/-- JRN_POST_CTL.HOST (R578): JRN_POST into the fault window. -/
def execHostPost (s : State) : Out := whenCommanded s (fun s => fltPost s (mread 0 s.jrn.post 0 64))

/-- FLT_CONS (R568): a write outside [PROD - 256, PROD] is ignored and sets OVERRUN. -/
def execFltCons (value : Word) (s : State) : Out :=
  whenBar s .pf0 (fun s =>
    if (s.jrn.fltProd - value).toNat ≤ 256 then { s with jrn := { s.jrn with fltCons := value } }
    else { s with jrn := { s.jrn with overrun := true } })

/-! ### External time (R575, R576) -/

/-- TIME_NONCE, code 0x31. -/
def execTimeNonce (body : Bytes) (s : State) : Out :=
  whenPilot s (fun s =>
    if body ≠ [] then replyMs s .pf0 0x31 0x05 []
    else if !s.vault.drbgOk then reply s .pf0 0x31 (statusBody 0x05 ++ zeros 48)
    else
      let n := drawBytes s 48
      let s1 := drew s 48
      reply { s1 with pilot := { s1.pilot with timeNonce := some n } } .pf0 0x31 (statusBody 0 ++ n))

/-- The nonce's 10 s end. -/
def execTimeNonceExpiry (s : State) : Out :=
  whenRunning s (fun s => { s with pilot := { s.pilot with timeNonce := none } })

/-- STATUS of a TIME_MARK (R576). -/
def timeMarkStatus (s : State) (b : Bytes) : Byte :=
  let key := slice b 60 2689
  let msg := sha384 (ascii "MB3-TIME" ++ slice b 0 56 ++ slice (unitBytes s.fuse) 4 16)
  if b.length ≠ 7472 ∨ !allZero (slice b 57 3) ∨ leAt b 56 1 > 3 then 0x04
  else if s.pilot.timeNonce ≠ some (slice b 8 48) then 0x01
  else if !keyAccepted s.fuse 7 (leAt b 56 1) key then 0x02
  else if !hybridOk key msg (slice b 2749 4723) then 0x03
  else 0

/-- TIME_MARK, code 0x32: an accepted mark writes a TIME record and spends the nonce. -/
def execTimeMark (body : Bytes) (s : State) : Out :=
  whenPilot s (fun s =>
    match timeMarkStatus s body with
    | 0 =>
      let ev := s.jrn.boot * 2 ^ 32 + s.jrn.index
      let s1 := record { s with pilot := { s.pilot with timeNonce := none } } 0x0004
        (BitVec.ofNat 32 (leAt body 0 4)) (BitVec.ofNat 32 (leAt body 4 4))
      reply s1 .pf0 0x32 (statusBody 0 ++ toLe 8 ev)
    | e => reply s .pf0 0x32 (statusBody e ++ zeros 8))

/-! ### Journal commands (R577) -/

/-- Every committed record in flash, in ascending event number. -/
def allRecords (s : State) : List Bytes :=
  ((List.range (journalSectors s)).flatMap (sectorRecords s)).mergeSort (fun a b => decide (leAt a 0 8 ≤ leAt b 0 8))

/-- R572: a record read that fails its tag, and is not one that is expected to, raises TAG_BAD. -/
def tagsBad (s : State) (rs : List Bytes) : State :=
  (rs.filter (recordBad s)).foldl (fun s r => record s 0x0008 (BitVec.ofNat 32 (leAt r 0 4)) (BitVec.ofNat 32 (leAt r 4 4))) s

/-- JOURNAL_READ, code 0x30. -/
def execJournalRead (body : Bytes) (s : State) : Out :=
  whenPilot s (fun s =>
    let from_ := leAt body 0 8
    let max_ := leAt body 8 2
    if body.length ≠ 10 ∨ max_ = 0 ∨ max_ > 500 then reply s .pf0 0x30 ([0x01, 0, 0, 0] ++ zeros 63)
    else
      let rs := ((allRecords s).filter (fun r => decide (from_ ≤ leAt r 0 8))).take max_
      let bits := (rs.zip (List.range 504)).foldl (fun v x => v + (if recordVerified s x.1 then 2 ^ x.2 else 0)) 0
      tagsBad (reply s .pf0 0x30 ([0x00, 0] ++ toLe 2 rs.length ++ toLe 63 bits ++ rs.flatten)) rs)

/-- COUNTERS, code 0x33. -/
def execCounters (body : Bytes) (s : State) : Out :=
  whenPilot s (fun s =>
    if body ≠ [] then replyMs s .pf0 0x33 0x05 []
    else reply s .pf0 0x33 (statusBody 0 ++ (List.range 6).flatMap (fun i => toLe 4 (tget 0 s.jrn.counters i)) ++
      (List.range 6).map (fun i => BitVec.ofNat 8 (anchorCount s i)) ++ [s.jrn.anchors.setWidth 8, 0]))

end Sys2Proof.Machine
end

