-- ==== Sys2Proof/Machine/Image.lean ====
section
/-! DEFINITION. Boot sources in flash (08): the Manifest and its checks, the Pilot image header, source records, and the
order in which sources are tried. -/

namespace Sys2Proof.Machine

/-! ### Areas (R275) -/

/-- Base of a source's area; a recovery boot uses the Slipway. -/
def areaBase : BootSource → Nat
  | .bankA => 0x00100000
  | .bankB => 0x01300000
  | .slipway => 0x02500000
  | .recovery => 0x02500000

/-- Base of a source's record sector. -/
def recordBase : BootSource → Nat
  | .bankA => 0x00000000
  | .bankB => 0x00010000
  | .slipway => 0x00020000
  | .recovery => 0x00020000

/-! ### The Manifest (R277-R280) -/

def partCount (m : Bytes) : Nat := leAt m 6 1
def signerCount (m : Bytes) : Nat := leAt m 7 1
/-- Length of the signed span. -/
def spanLen (m : Bytes) : Nat := 64 + 64 * partCount m + 768
def signedSpan (m : Bytes) : Bytes := m.take (spanLen m)
def partEntry (m : Bytes) (i : Nat) : Bytes := slice m (64 + 64 * i) 64
def partEntries (m : Bytes) : List Bytes := (List.range (partCount m)).map (partEntry m)
def siteEntry (m : Bytes) (k : Nat) : Bytes := slice m (64 + 64 * partCount m + 64 * k) 64
def signerBlock (m : Bytes) (i : Nat) : Bytes := slice m (spanLen m + 7416 * i) 7416
/-- Whole length of the Manifest. -/
def manifestLen (m : Bytes) : Nat := spanLen m + 7416 * signerCount m

def pKind (e : Bytes) : Nat := leAt e 0 1
def pSvn (e : Bytes) : Nat := leAt e 1 1
def pVersion (e : Bytes) : Nat := leAt e 4 4
def pOffset (e : Bytes) : Nat := leAt e 8 4
def pLength (e : Bytes) : Nat := leAt e 12 4
def pHash (e : Bytes) : Bytes := slice e 16 48

/-- The entry of a kind that occurs once. -/
def partOfKind (m : Bytes) (k : Nat) : Bytes := ((partEntries m).find? (fun e => pKind e == k)).getD []

/-- Anti-rollback counter region of a kind (R278). -/
def counterRegion (k : Nat) : Nat := if k = 1 then 10 else if k = 6 then 12 else if k = 7 then 13 else 11

/-- Two parts do not overlap. -/
def disjoint (a b : Bytes) : Bool :=
  decide (pOffset a + pLength a ≤ pOffset b) || decide (pOffset b + pLength b ≤ pOffset a)

/-- No two of the list overlap. -/
def allDisjoint : List Bytes → Bool
  | [] => true
  | x :: xs => xs.all (disjoint x) && allDisjoint xs

/-- One part entry is well formed (R276, R278). -/
def partOk (e : Bytes) : Bool :=
  decide (1 ≤ pKind e ∧ pKind e ≤ 7) && decide (pSvn e ≤ 128) && allZero (slice e 2 2) &&
    pOffset e % 4096 == 0 && decide (0x10000 ≤ pOffset e) && decide (pOffset e + pLength e ≤ 0x1200000) &&
    decide (64 ≤ pLength e) &&
    (if pKind e == 6 then decide (pLength e - 64 ≤ 1048576) else if pKind e == 7 then decide (pLength e - 64 ≤ 2097152) else true)

/-- One site entry is well formed (R279). -/
def siteOk (m e : Bytes) : Bool :=
  let i := leAt e 8 1
  allZero (slice e 9 7) && (i == 0xFF || (decide (i < partCount m) && pKind (partEntry m i) == 7)) &&
    (!allZero (slice e 0 8) || allZero (slice e 16 48))

/-- INTEGRATOR_COSIGN (R281). -/
def cosign (f : Fuse) : Bool := (policyWord f 4).getLsbD 0

/-- One signer block names an allowed region (R280). -/
def signerOk (f : Fuse) (m : Bytes) (i : Nat) : Bool :=
  let b := signerBlock m i
  let region := leAt b 0 1 / 16
  leAt b 0 1 / 4 % 4 == 0 && allZero (slice b 1 3) &&
    (if i == 0 then region == 3 else if cosign f then region == 7 else region == 3 || region == 7)

/-- Check 1 of R284: the Manifest is well formed under R276-R280 and its formats meet the policy minima. -/
def manifestOk (f : Fuse) (m : Bytes) : Bool :=
  let es := partEntries m
  let count (k : Nat) : Nat := (es.filter (fun e => pKind e == k)).length
  slice m 0 4 == [0x4D, 0x42, 0x33, 0x4D] && leAt m 4 1 == 1 && decide (minVersion f 4 ≤ leAt m 4 1) &&
    decide (leAt m 5 1 < 4) && decide (6 ≤ partCount m ∧ partCount m ≤ 18) && decide (1 ≤ signerCount m ∧ signerCount m ≤ 2) &&
    (nbit (leAt m 5 1) 0 || allZero (slice m 12 16)) && decide (minVersion f 5 ≤ leAt m 32 1) && decide (leAt m 34 1 < 16) &&
    allZero (slice m 35 29) && es.all partOk && [1, 2, 3, 4, 5, 6].all (fun k => count k == 1) && decide (count 7 ≤ 12) &&
    allDisjoint es && decide ((es.filter (fun e => 2 ≤ pKind e ∧ pKind e ≤ 5)).foldl (fun t e => t + (pLength e - 64)) 0 ≤ 458752) &&
    (List.range 12).all (fun k => siteOk m (siteEntry m k)) && (!cosign f || signerCount m == 2) &&
    (List.range (signerCount m)).all (signerOk f m)

/-- The key and signature of a signer block. -/
def sbKey (b : Bytes) : Bytes := slice b 4 2689
def sbSig (b : Bytes) : Bytes := slice b 2693 4723
/-- The key is accepted under R280. -/
def sbAccepted (f : Fuse) (b : Bytes) : Bool := keyAccepted f (leAt b 0 1 / 16) (leAt b 0 1 % 4) (sbKey b)
def ecdsaHalf (b msg : Bytes) : Bool := ecdsaVerify (slice (sbKey b) 0 97) msg (slice (sbSig b) 0 96)
def mldsaHalf (b msg : Bytes) : Bool := mldsaVerify (slice (sbKey b) 97 2592) msg (slice (sbSig b) 96 4627)

/-- HW_TYPE matches, and UNIT_SERIAL if bound. -/
def bindingOk (f : Fuse) (hw serial : Bytes) (bound : Bool) : Bool :=
  hw == (unitBytes f).take 4 && (!bound || serial == (unitBytes f).drop 4)

/-- Checks 1 to 6 of R284: 0 or the code of the first that fails. -/
def manifestCheck (f : Fuse) (m : Bytes) : Byte :=
  let blocks := (List.range (signerCount m)).map (signerBlock m)
  let msg := sha384 (signedSpan m)
  if !manifestOk f m then 0x8C
  else if !blocks.all (sbAccepted f) then 0x8D
  else if !blocks.all (ecdsaHalf · msg) then 0x8E
  else if !blocks.all (mldsaHalf · msg) then 0x8F
  else if !bindingOk f (slice m 8 4) (slice m 12 16) (nbit (leAt m 5 1) 0) then 0x90
  else if !(partEntries m).all (fun e => decide (stepCount f (counterRegion (pKind e)) ≤ pSvn e)) then 0x91
  else 0

/-! ### The Pilot image header (R283) and checks 7 to 10 -/

/-- M_PILOT: SHA-384 of header bytes 0-7543. -/
def mPilot (h : Bytes) : Bytes := sha384 (h.take 7544)

/-- Check 7: well formed and consistent with its entry; BLOCK_COUNT need only be nonzero. -/
def headerOk (e h : Bytes) : Bool :=
  slice h 0 4 == [0x4D, 0x42, 0x33, 0x50] && leAt h 4 1 == 1 && leAt h 5 1 == 1 && leAt h 6 1 == pSvn e &&
    decide (leAt h 7 1 < 2) && (nbit (leAt h 7 1) 0 || allZero (slice h 12 16)) && leAt h 28 4 == pVersion e &&
    leAt h 32 4 != 0 && pLength e == 8192 + 4096 * leAt h 32 4 && allZero (slice h 88 40) &&
    leAt h 128 1 / 16 == 3 && leAt h 128 1 / 4 % 4 == 0 && allZero (slice h 129 3) && (slice h 7544 648).all (· == 0xFF)

/-- Checks 7 to 10 of R284 on the header `h` of the Pilot entry. -/
def headerCheck (f : Fuse) (m h : Bytes) : Byte :=
  let e := partOfKind m 1
  let b := slice h 128 7416
  let msg := sha384 (h.take 128)
  if !headerOk e h then 0x8C
  else if mPilot h ≠ pHash e then 0x92
  else if !sbAccepted f b then 0x8D
  else if !ecdsaHalf b msg then 0x8E
  else if !mldsaHalf b msg then 0x8F
  else if !bindingOk f (slice h 8 4) (slice h 12 16) (nbit (leAt h 7 1) 0) then 0x90
  else if leAt h 32 4 > 325 then 0x94
  else 0

/-- The Manifest of an area, as read from flash. -/
def manifestAt (s : State) (base : Nat) : Bytes := flashRead s base 65536

/-- The Pilot image header of an area. -/
def headerAt (s : State) (base : Nat) : Bytes := flashRead s (base + pOffset (partOfKind (manifestAt s base) 1)) 8192

/-- Checks 1 to 10 of R284 on an area. -/
def sourceCheck (s : State) (base : Nat) : Byte :=
  let m := manifestAt s base
  match manifestCheck s.fuse m with
  | 0 => headerCheck s.fuse m (headerAt s base)
  | e => e

/-- A block of the hash chain of an area (R101, R283). -/
def chainBlock (s : State) (base i : Nat) : Bytes :=
  flashRead s (base + pOffset (partOfKind (manifestAt s base) 1) + 0x2000 + 4096 * i) 4096

/-- Check 11 for one block with its CRC good (R105): 0, or 0x92 or 0x93. -/
def blockCheck (blk expect : Bytes) (i count : Nat) : Byte :=
  let w := leAt blk 4088 4
  if sha384 blk ≠ expect then 0x92
  else if w % 2 ^ 31 ≠ i ∨ nbit w 31 ≠ (i + 1 == count) then 0x93
  else 0

/-- A block's CRC (R101). -/
def blockCrcOk (blk : Bytes) : Bool := leAt blk 4092 4 == (crc32c (blk.take 4092)).toNat

/-- The whole chain of an area (R296 makes check 11 without loading). -/
def chainCheck (s : State) (base count : Nat) : Nat → Nat → Bytes → Byte
  | 0, _, _ => 0
  | fuel + 1, i, expect =>
    let blk := chainBlock s base i
    if !blockCrcOk blk then 0x8B
    else
      match blockCheck blk expect i count with
      | 0 => chainCheck s base count fuel (i + 1) (slice blk 4040 48)
      | e => e

/-- A part other than Pilot firmware: its header agrees with its entry and its payload hashes to HASH (R282, R285). -/
def partPayload (s : State) (base : Nat) (e : Bytes) : Bytes := flashRead s (base + pOffset e + 64) (pLength e - 64)
def partGood (s : State) (base : Nat) (e : Bytes) : Bool :=
  let h := flashRead s (base + pOffset e) 64
  slice h 0 4 == [0x4D, 0x42, 0x33, 0x50] && leAt h 4 1 == 1 && leAt h 5 1 == pKind e && leAt h 6 1 == pSvn e &&
    leAt h 7 1 == 0 && leAt h 8 4 == pVersion e && leAt h 12 4 == pLength e - 64 && allZero (slice h 16 48) &&
    sha384 (partPayload s base e) == pHash e

/-! ### Source records (R286, R287) -/

def recWord (s : State) (src : BootSource) (off : Nat) : Nat := leNat (flashRead s (recordBase src + off) 4)
def setCommit (s : State) (src : BootSource) : Bool := recWord s src 64 == 0x434D4954
def setBad (s : State) (src : BootSource) : Bool := recWord s src 68 != 0xFFFFFFFF
def setRetired (s : State) (src : BootSource) : Bool := recWord s src 72 != 0xFFFFFFFF
def setStaged (s : State) : Bool := recWord s .slipway 80 == 0x53544744
def setTried (s : State) : Bool := recWord s .slipway 84 != 0xFFFFFFFF
def setConfirmed (s : State) : Bool := recWord s .slipway 88 == 0x434E464D
def setCopied (s : State) : Bool := recWord s .slipway 92 == 0x43504944
def recSeq (s : State) (src : BootSource) : Nat := leNat (flashRead s (recordBase src + 48) 8)
def recDigest (s : State) (src : BootSource) : Bytes := flashRead s (recordBase src) 48

/-- A word of a source record programmed. -/
def programWord (s : State) (src : BootSource) (off v : Nat) : State := flashProgram s (recordBase src + off) (toLe 4 v)

/-- The banks in the order of their SEQ, highest first; bank A first when equal (R288). -/
def bankOrder (s : State) : List BootSource :=
  if recSeq s .bankB > recSeq s .bankA ∧ setCommit s .bankB then [.bankB, .bankA] else [.bankA, .bankB]

/-- boot_sources() (R287-R288). -/
def bootSources (s : State) : List BootSource :=
  if s.pins.bootsel = 1 then [.recovery]
  else
    let trial := if setStaged s && !setBad s .slipway && !setCopied s && (!setTried s || setConfirmed s) then [BootSource.slipway] else []
    let banks := (bankOrder s).filter (fun b => setCommit s b && !setBad s b && !setRetired s b)
    match trial ++ banks with
    | [] => if setStaged s && !setBad s .slipway then [.slipway] else []
    | l => l

/-- The code shown while a source is verified (R288). -/
def sourceStat : BootSource → Byte
  | .bankA => 0x06
  | .bankB => 0x07
  | .slipway => 0x08
  | .recovery => 0x08

/-- ARG0 of a BOOT record (R566). -/
def sourceCode : BootSource → Nat
  | .bankA => 0
  | .bankB => 1
  | .slipway => 2
  | .recovery => 3

/-- BAD in the record of the source booted, unless it is a recovery boot (R290). -/
def markBad (s : State) : State :=
  match s.pilot.booted with
  | some .recovery => s
  | some src => programWord s src 68 0
  | none => s

/-- The booted source's Manifest. -/
def bootedBase (s : State) : Nat :=
  match s.pilot.booted with
  | some src => areaBase src
  | none => areaBase .bankA
def bootedManifest (s : State) : Bytes := manifestAt s (bootedBase s)

/-- The committed bank with the highest SEQ, if any. -/
def activeBank (s : State) : Option BootSource := (bankOrder s).find? (setCommit s)

/-- The bank an update is copied into: the one that does not hold the highest committed SEQ (R298). -/
def targetBank (s : State) : BootSource :=
  match activeBank s with
  | some .bankA => .bankB
  | _ => .bankA

end Sys2Proof.Machine
end

