-- ==== Sys2Proof/Machine/Startup.lean ====
section
/-! DEFINITION. Power-on and boot up to the management cores (03): self-tests, sensing, ROM policy, boot sources and the
hash chain, firmware entry with settings and identity, microcode, and the management mailbox. -/

namespace Sys2Proof.Machine

/-! ### Self-tests (R107-R109) -/

/-- The 232 islands of R106: all but the Trust Core and the vault-and-fuse island. -/
def isPeripheral : Island → Bool
  | .trustCore => false
  | .vaultFuse => false
  | _ => true

/-- ISLAND_SELF_TEST_START (R107). -/
def execIslandSelfTestStart (isl : Island) (s : State) : Out :=
  whenRunning s (fun s =>
    let x := s.island isl
    if islandExists isl ∧ isPeripheral isl ∧ x.pll ∧ x.strap ∧ x.test = .pending then
      s.setIsland isl { x with test := .running }
    else s)

/-- ISLAND_SELF_TEST_DONE (R108): the result is known and the island parks. -/
def execIslandSelfTestDone (isl : Island) (pass : Bool) (s : State) : Out :=
  whenRunning s (fun s =>
    let x := s.island isl
    if islandExists isl ∧ isPeripheral isl ∧ x.test = .running then
      s.setIsland isl { x with test := if pass then .passed else .failed, parked := true }
    else s)

/-- CORE_ISLAND_SELF_TEST_DONE (R109): a failure halts with 0x82 or 0x84. -/
def execCoreIslandSelfTestDone (isl : Island) (pass : Bool) (s : State) : Out :=
  whenRunning s (fun s =>
    match isl with
    | .trustCore =>
      if s.pilot.coreTest = .pending then
        let s1 := { s with pilot := { s.pilot with coreTest := if pass then .passed else .failed } }
        if pass then s1 else halt s1 0x82
      else s
    | .vaultFuse =>
      if s.pilot.vaultTest = .pending then
        let s1 := { s with pilot := { s.pilot with vaultTest := if pass then .passed else .failed } }
        if pass then s1 else halt s1 0x84
      else s
    | _ => s)

/-- The spares that can cover a lane (R33), by island number. -/
def sparesOf (ix : Nat) : List Nat :=
  if ix < 136 then [17 * (ix / 17) + 16]
  else if ix < 154 then [152, 153]
  else if ix < 202 then [202 + (ix - 154) / 12]
  else []

/-- The lane is itself a spare. -/
def isSpare (ix : Nat) : Bool :=
  (decide (ix < 136) && ix % 17 == 16) || ix == 152 || ix == 153 || decide (202 ≤ ix ∧ ix < 206)

/-- The spare covers no lane and can serve: its self-test passed, it is in service and PARK does not hold it (R33, R369). -/
def spareFree (s : State) (ix : Nat) : Bool :=
  (tfind s.cover ix).isNone && !(tget pierInit s.piers ix).park && !(decide (202 ≤ ix) && (tget gwInit s.links (ix - 154)).park) &&
    (tget islandInit s.isl ix).service == .inService && (tget islandInit s.isl ix).test == .passed

/-- The island that does a lane's work: its spare if one covers it (R33). -/
def servedBy (s : State) (ix : Nat) : Nat :=
  match s.cover.find? (fun c => c.2 == ix) with
  | some c => c.1
  | none => ix

/-- An island that takes nothing any more: what was on its way to it is gone, and no broadcast or change of the vault waits for
its acknowledgement. -/
def retire (s : State) (ix : Nat) : State :=
  let due := ((s.lanes.bcasts.filter (fun x => x.waiting.contains ix)).map (fun x => (ix, x.seq))).filter (fun a => !s.lanes.acks.contains a)
  let wait := (s.vault.awaiting.any (fun w => w.1.contains ix)) && !s.vault.acks.contains ix
  let s1 := { s with lanes := { s.lanes with cmds := tdel s.lanes.cmds ix, acks := s.lanes.acks ++ due } }
  if ix = 206 ∨ ix = 222 then s1
  else { s1 with vault := { s1.vault with channels := tdel s1.vault.channels ix, acks := if wait then s1.vault.acks ++ [ix] else s1.vault.acks } }

/-- An island marked failed, with OUT_OF_SERVICE journalled (R34, R109). -/
def outOfService (s : State) (ix : Nat) : State :=
  let i := islandAt ix
  note (retire (s.setIsland i { s.island i with service := .failed, parked := true }) ix) 0x0202 ((srcKindOf i).setWidth 32)
    (BitVec.ofNat 32 (instOf i))

/-- The berths that hold a window on a unit of a tier get a fault bit (R34, R333). -/
def faultBerths (s : State) (hit : Berth → Bool) (set_ : Berth → Berth) : State :=
  s.berths.foldl (fun s x =>
    if x.2.state ≠ .free ∧ hit x.2 then
      let s1 := s.setBerth x.1 (set_ x.2)
      if set_ x.2 = x.2 then s1 else msix s1 (.vf x.1) 1
    else s) s

/-- Pilot's fault for a channel or port that has no lane left, in every berth with a window on its unit (R34). -/
def raiseLost (s : State) (ix : Nat) : State :=
  if ix < 136 then
    faultBerths s (fun b => b.t1.any (fun w => w.2.unit == ix / 17)) (fun b => { b with stackFault := b.stackFault ||| (1#8 <<< (ix / 17)) })
  else if ix < 154 then
    faultBerths s (fun b => b.t2.any (fun w => w.2.unit == ix - 136)) (fun b => { b with portFault := true })
  else s

/-- The channel, port or link of a lane has no lane left. Pilot raises the fault, after its return if a warm restart runs (R34, R133). -/
def homeLost (s : State) (ix : Nat) : State :=
  if s.pilot.phase = .warm then { s with pilot := { s.pilot with lostHomes := s.pilot.lostHomes ++ [ix] } } else raiseLost s ix

/-- A channel, port or link with no lane left leaves service (R34). -/
def loseLane (s : State) (ix : Nat) : State := homeLost (outOfService s ix) ix

/-- A lane that no longer serves its channel, port or link: another free spare of the group takes it, or it is lost (R34,
R109). -/
def coverLane (s : State) (home : Nat) : State :=
  match (sparesOf home).find? (spareFree s) with
  | some sp => { s with cover := tset s.cover sp home }
  | none => homeLost s home

/-- An island that failed its self-test: a lane takes its group's spare if one passed, which is not a Darn; else its
channel or link, array or engine leaves service (R109). A spare that covers a lane leaves it to another spare, if there is
one (DEDUCED, log entry 157). -/
def failTested (s : State) (ix : Nat) : State :=
  let i := islandAt ix
  let s1 := s.setIsland i { s.island i with test := .failed, service := .failed, parked := true }
  if isSpare ix then
    let s2 := outOfService { s1 with cover := tdel s1.cover ix } ix
    match tfind s1.cover ix with
    | some home => coverLane s2 home
    | none => s2
  else
    match (sparesOf ix).find? (spareFree s1) with
    | some sp => { s1 with cover := tset s1.cover sp ix }
    | none => loseLane s1 ix

/-- A lane whose channel or port is taken out of service whole (R97): a spare that covers it is free again. -/
def unserve (s : State) (ix : Nat) : State :=
  let s1 := { s with cover := s.cover.filter (fun c => c.2 != ix) }
  if (tget islandInit s.isl ix).service = .failed then homeLost s1 ix else loseLane s1 ix

/-- SELF_TEST_COLLECTION_TIMEOUT (R109): an island that has not reported a pass is failed, spares first. -/
def collectTests (s : State) : State :=
  if s.pilot.collected then s
  else
    let bad (ix : Nat) : Bool := (tget islandInit s.isl ix).test != .passed
    let s1 := ((List.range 232).filter (fun ix => isSpare ix && bad ix)).foldl failTested s
    let s2 := ((List.range 232).filter (fun ix => !isSpare ix && bad ix)).foldl failTested s1
    milestone { s2 with pilot := { s2.pilot with collected := true } } 0x11

def execSelfTestCollectionTimeout (s : State) : Out := whenPilot s collectTests

/-! ### The ROM: sensing, policy, entropy, flash (R105, R142, R155, R180) -/

/-- A measurement taken (R254). -/
def takeMeasure (s : State) (i : Nat) (v : Bytes) : State :=
  { s with pilot := { s.pilot with measurements := tset s.pilot.measurements i v } }

/-- policyDigest of tvx-config (R246): words 124-127 of region 5, zero if it is not Final. -/
def policyDigest (f : Fuse) : Bytes :=
  if regionState f 5 = 3 then ((List.range 4).map (fun j => toLe 8 (f.sh (128 * 5 + 124 + j)).value.toNat)).flatten else zeros 32

/-- minVersions of tvx-config: region 5 word 2 bytes 0-5. -/
def minVersions (f : Fuse) : Bytes := (toLe 8 (policyWord f 2).toNat).take 6

/-- The ROM goes on once policy has passed: entropy (0x89), flash (0x8A), the debug hold of R67, then the list of boot
sources (0x95 if there is none). -/
def romAdvance (s : State) : State :=
  if s.pilot.phase ≠ .rom ∨ !s.pilot.policyDone ∨ s.pilot.sourcesChosen then s
  else if s.vault.entropyFailed then halt s 0x89
  else if !s.pilot.entropyOk then s
  else if s.pilot.flashFailed then halt s 0x8A
  else if !s.pilot.flashReady then s
  else if s.pins.bootsel = 2 ∧ (s.lc.state = 1 ∨ s.lc.state = 4) then
    showStat { s with pilot := { s.pilot with phase := .hold } } 0x05
  else
    match bootSources s with
    | [] => halt s 0x95
    | src :: rest => showStat { s with pilot := { s.pilot with sources := src :: rest, sourcesChosen := true } } (sourceStat src)

/-- FUSE_SENSING_DONE (R142, R143, R180): every word classed, the life-cycle decoded, alarms raised, SENSED set; sensing
that cannot finish halts with 0x85. -/
def sensingDone (s : State) (complete : Bool) (drift : List (Nat × FuseCell)) : State :=
  if s.pilot.phase ≠ .rom ∨ s.fuse.sensed then s
  else if !complete then halt s 0x85
  else
    let f := drifted s.fuse drift
    let sh := f.cells.map (fun (c : Nat × FuseCell) => (c.1, classify c.2))
    let f1 := { f with shadows := sh, sensedShadows := sh, sensed := true, busy := false }
    let f2 := { f1 with compat := (policyWord f1 3).getLsbD 0 }
    let s1 := { s with fuse := f2, lc := { s.lc with state := lcDecode f2 } }
    let s2 := (f2.shadows.map (·.1)).foldl wordAlarms s1
    let s3 := (List.range 32).foldl regionAlarms s2
    let s4 := if s3.lc.state = 5 ∧ !(wipeWords f2).isEmpty then fuseAlarm s3 5 0 0 else s3
    let s5 := if tokenWait f2 = 0 ∧ s4.ring.held.isSome then forwardToken { s4 with ring := { s4.ring with token := .none } } else s4
    milestone s5 0x02

def execFuseSensingDone (complete : Bool) (drift : List (Nat × FuseCell)) (s : State) : Out :=
  whenRunning s (sensingDone · complete drift)

/-- An alarm halts the boot in Integrator or Fielded (R153, R155). -/
def policyHalts (s : State) : Bool :=
  let f := s.fuse
  let lc := s.lc.state
  let unreadable := regionState f 5 == 4 || regionState f 5 == 5 || (f.sh 640).cls == .torn
  let code (i : Nat) : Nat := if unreadable then 2 else ((policyWord f 0).extractLsb' (2 * i) 2).toNat
  (lc == 2 || lc == 3) &&
    ((List.range 4).any (fun i => f.alarm.getLsbD i && ((code i == 1 && lc == 3) || decide (code i ≥ 2))) ||
      !regionUsable f 1)

/-- ROM_POLICY (R155, R105): halts 0x86, 0x87 and 0x88; an odd boot strap is journalled (R67). -/
def romPolicy (s : State) : State :=
  if s.pilot.phase ≠ .rom ∨ !s.fuse.sensed ∨ s.pilot.policyDone then s
  else if policyHalts s then halt s 0x86
  else if s.lc.state = 0xF then halt s 0x87
  else if s.lc.state = 5 then halt s 0x88
  else
    let odd := s.pins.bootsel = 3 ∨ (s.pins.bootsel = 2 ∧ s.lc.state ≠ 1 ∧ s.lc.state ≠ 4)
    let s1 := if odd then record s 0x0503 (s.pins.bootsel.setWidth 32) 0 else s
    let cfg := sha384 (derEnum s.lc.state.toNat ++ derBool s.fuse.compat ++ derOctets (policyDigest s.fuse) ++ derOctets (minVersions s.fuse))
    romAdvance (takeMeasure (takeMeasure { s1 with pilot := { s1.pilot with policyDone := true } } 1
      (padTo 48 (Config.romDigest ((fuseValue s.fuse 256).extractLsb' 28 4).toNat))) 3 cfg)

/-- ENTROPY_STARTUP_DONE (R223): the DRBG is instantiated, TAG_KEY drawn (R206) and the debug nonce drawn (R196). -/
def entropyStartup (s : State) (pass : Bool) : State :=
  if s.pilot.phase ≠ .rom ∨ s.pilot.entropyOk then s
  else if pass then
    let s1 := { s with
      pilot := { s.pilot with entropyOk := true }
      vault := { s.vault with drbgOk := true, tagKey := drawBytes s 32 } }
    romAdvance (drawNonce (drew s1 32))
  else romAdvance { s with vault := { s.vault with entropyFailed := true } }

/-- FLASH_SFDP_DONE (R94): 8D-8D-8D, or 1S-1S-1S at 50 MHz; a flash that does not answer halts with 0x8A. -/
def sfdpDone (s : State) (answers octal : Bool) (sectors : Nat) : State :=
  if s.pilot.phase ≠ .rom ∨ s.pilot.flashReady ∨ s.pilot.flashFailed then s
  else if answers then
    romAdvance (milestone { s with pilot := { s.pilot with flashReady := true, flashOctal := octal, flashSectors := sectors } }
      (if octal then 0x03 else 0x04))
  else romAdvance { s with pilot := { s.pilot with flashFailed := true } }

/-! ### Boot sources and the chain (R101-R105, R284) -/

/-- The source in hand fails: it joins the ROM boot record; the next is tried, or MB3 halts with the last code. -/
def failSource (s : State) (err : Byte) : State :=
  match s.pilot.sources with
  | [] => s
  | src :: rest =>
    let s1 := { s with pilot := { s.pilot with bootRecord := s.pilot.bootRecord ++ [(src, err)], sources := rest, chain := none } }
    match rest with
    | [] => halt s1 err
    | n :: _ => showStat s1 (sourceStat n)

/-- BOOT_SOURCE_CHECK (R284): checks 1 to 10 on the first source; M_PILOT is measured. -/
def bootSourceCheck (s : State) : State :=
  match s.pilot.phase, s.pilot.sources, s.pilot.chain with
  | .rom, src :: _, none =>
    if s.pilot.booted.isSome then s
    else
      match sourceCheck s (areaBase src) with
      | 0 =>
        let h := headerAt s (areaBase src)
        let c : ChainSt :=
          { source := src, blockCount := leAt h 32 4, index := 0, expect := slice h 40 48, crcTries := 0,
            entry := leAt h 36 4, complete := false }
        takeMeasure { s with pilot := { s.pilot with chain := some c } } 2 (mPilot h)
      | e => failSource s e
  | _, _, _ => s

def execBootSourceCheck (s : State) : Out := whenRunning s bootSourceCheck

/-- FLASH_BLOCK_READ (R105): a CRC that fails is read again up to three times more (0x8B); a hash, INDEX or LAST that
fails ends the source at once; else the payload is copied. -/
def blockRead (s : State) (transferOk : Bool) : State :=
  match s.pilot.phase, s.pilot.chain with
  | .rom, some c =>
    if c.complete then s
    else
      let blk := chainBlock s (areaBase c.source) c.index
      if !transferOk ∨ !blockCrcOk blk then
        (if c.crcTries ≥ 3 then failSource s 0x8B
         else { s with pilot := { s.pilot with chain := some { c with crcTries := c.crcTries + 1 } } })
      else
        match blockCheck blk c.expect c.index c.blockCount with
        | 0 => { s with pilot := { s.pilot with
            sram := mwrite 0 s.pilot.sram (4040 * c.index) (blk.take 4040)
            codeLen := 4040 * (c.index + 1)
            chain := some { c with index := c.index + 1, expect := slice blk 4040 48, crcTries := 0,
                                   complete := c.index + 1 == c.blockCount } } }
        | e => failSource s e
  | _, _ => s

def execFlashBlockRead (transferOk : Bool) (s : State) : Out := whenRunning s (blockRead · transferOk)

/-- A slot the ROM writes, with EXPIRE. -/
def romSlot (typ : Byte) (dest : BitVec 11) (m : Bytes) : DeviceSlot :=
  { slotInit with typ := typ, dest := dest, expire := true, valid := true, material := m }

/-- A secret region's 384 bits, words in order, each least significant byte first. -/
def secretBytes (f : Fuse) (r : Nat) : Bytes := ((List.range 6).map (fun i => toLe 8 (f.sh (128 * r + i)).value.toNat)).flatten

/-- DERIVE_CDI (R219, R220): the four derivations from fuse secrets into slots 0-3. -/
def deriveCdi (s : State) : State :=
  let ctx := [lcByte s] ++ unitBytes s.fuse
  let uds := secretBytes s.fuse 1
  let mp := tget [] s.pilot.measurements 2
  let s1 := if regionUsable s.fuse 1 then
      putSlot (putSlot (putSlot s 0 (romSlot 1 0x100 (kdf uds (ascii "MB3-CDI") (ctx ++ mp) 48)))
        1 (romSlot 2 0x040 (kdf uds (ascii "MB3-DEVICE-ID") ctx 88)))
        2 (romSlot 1 0x100 (kdf uds (ascii "MB3-STORE") ctx 48))
    else s
  if regionUsable s.fuse 9 then
    putSlot s1 3 (romSlot 2 0x040 (kdf (secretBytes s.fuse 9) (ascii "MB3-INTEGRATOR-ID") ctx 88))
  else s1

/-- CHAIN_VERIFIED (R103, R104, R105, R289): TRIED programmed for a Slipway trial, the code region locked, its digest
saved, the device secrets derived and locked, unused SRAM scrubbed, 0x10 shown. Both core islands have passed (R109). -/
def chainVerified (s : State) : State :=
  match s.pilot.phase, s.pilot.chain with
  | .rom, some c =>
    if c.complete ∧ s.pilot.coreTest = .passed ∧ s.pilot.vaultTest = .passed then
      let s0 := if c.source = .slipway ∧ !setTried s then programWord s .slipway 84 0 else s
      let s1 := { s0 with pilot := { s0.pilot with
        codeLocked := true
        execEnable := true
        sram := s0.pilot.sram.filter (fun x => decide (x.1 < s0.pilot.codeLen))
        restartDigest := sha384 (mread 0 s0.pilot.sram 0 s0.pilot.codeLen)
        booted := some c.source } }
      let s2 := deriveCdi s1
      milestone { s2 with pilot := { s2.pilot with udsLocked := true, chain := none } } 0x10
    else s
  | _, _ => s

def execChainVerified (s : State) : Out := whenRunning s chainVerified

end Sys2Proof.Machine
end

