-- ==== Sys2Proof/Machine/Settings.lean ====
section
/-! DEFINITION. The settings store (08): its two areas, the choice of a copy, conversion, the sealed part, and the write
that commits a copy; and the judging of identity certificates (07). -/

namespace Sys2Proof.Machine

/-! ### Areas (R275, R303) -/

/-- Base of a settings area; false is A, true is B. -/
def settingsBase (b : Bool) : Nat := if b then 0x00080000 else 0x00040000

/-- The header of a copy and whether its COMMIT is set. -/
def settingsHead (s : State) (b : Bool) : Bytes := flashRead s (settingsBase b) 128
def settingsCommitted (s : State) (b : Bool) : Bool := leNat (flashRead s (settingsBase b + 0x3FFFC) 4) == 0x434D4954
def settingsSeq (s : State) (b : Bool) : Nat := leAt (settingsHead s b) 8 8
def settingsFormat (s : State) (b : Bool) : Nat := leAt (settingsHead s b) 4 1
def settingsPublic (s : State) (b : Bool) : Bytes := flashRead s (settingsBase b + 128) (leAt (settingsHead s b) 16 4)

/-- The copy can be read: committed, MAGIC right, sizes within the area, PUBLIC_DIGEST good. -/
def settingsReadable (s : State) (b : Bool) : Bool :=
  let h := settingsHead s b
  settingsCommitted s b && slice h 0 4 == [0x4D, 0x42, 0x33, 0x53] &&
    decide (leAt h 16 4 + leAt h 20 4 ≤ 262012) && sha384 (settingsPublic s b) == slice h 52 48

/-- SETTINGS_MIN_READ and SETTINGS_FORMAT of the booted Manifest. -/
def minRead (s : State) : Nat := leAt (bootedManifest s) 33 1
def writesFormat (s : State) : Nat := leAt (bootedManifest s) 32 1

/-- The committed area with the highest SEQ, if any. -/
def newestSettings (s : State) (ok : Bool → Bool) : Option Bool :=
  match ok false, ok true with
  | true, true => some (decide (settingsSeq s false < settingsSeq s true))
  | true, false => some false
  | false, true => some true
  | false, false => none

/-- The area an ordinary write goes to: the one that does not hold the highest committed SEQ (R305). -/
def settingsTarget (s : State) : Bool :=
  match newestSettings s (settingsCommitted s) with
  | some b => !b
  | none => false

/-- The area the next write goes to: a migration's is not the one its copy was read from (R304). -/
def writeTarget (s : State) : Bool := if s.pilot.settings.migrating then !s.pilot.settings.area else settingsTarget s

/-- Associated data of the SEALED section: bytes 0-51 of the header, the TAG field taken as zero (DEDUCED, log entry 17). -/
def settingsAad (h : Bytes) : Bytes := h.take 36 ++ zeros 16

/-- The SEALED section of a copy under slot 5, if its tag verifies. -/
def settingsSealed (s : State) (b : Bool) : Option Bytes :=
  let h := settingsHead s b
  let c := flashRead s (settingsBase b + 128 + leAt h 16 4) (leAt h 20 4)
  if slotServes s 5 9 then gcmDec (s.slot 5).material (slice h 24 12) (settingsAad h) c (slice h 36 16) else none

/-! ### Choice at a start (R304, R306) -/

/-- The settings copy is chosen, or defaults; an old format is converted and its write is due; a sealed part that fails
its tag is its default, which no conversion touches. -/
def chooseSettings (s0 : State) : State :=
  let s := touchSlot s0 5
  let fits (b : Bool) : Bool :=
    settingsReadable s b && decide (minRead s ≤ settingsFormat s b) && decide (settingsFormat s b ≤ writesFormat s)
  match newestSettings s fits with
  | none =>
    record { s with pilot := { s.pilot with settings := { settingsDefault with format := writesFormat s } } } 0x0506 1 0
  | some b =>
    let f := settingsFormat s b
    let pub := settingsPublic s b
    let conv (x : Bytes) : Bytes := if f < writesFormat s then Config.settingsConvert f (writesFormat s) x else x
    let st : Settings :=
      { chosen := true, area := b, format := writesFormat s, seq := settingsSeq s b, publicPart := conv pub,
        sealedPart := ((settingsSealed s b).map conv).getD [], dirty := false, migrating := decide (f < writesFormat s),
        writeFails := 0, install := none, answer := false, held := none }
    let s1 := { s with pilot := { s.pilot with settings := st } }
    if (settingsSealed s b).isNone then record s1 0x0506 2 0 else s1

/-! ### Identities (R251) -/

/-- The first n certificates of a PUBLIC section: each a 4-byte little-endian length and its DER. R303 has the section hold the
certificates and other items and gives no layout; this one is the model's (DESIGN CHOICE, log entry 180). -/
def unpackCerts : Nat → Bytes → List Bytes
  | 0, _ => []
  | n + 1, p => slice p 4 (leAt p 0 4) :: unpackCerts n (p.drop (4 + leAt p 0 4))
def packCerts (cs : List Bytes) : Bytes := cs.flatMap (fun c => toLe 4 c.length ++ c)

/-- What a PUBLIC section holds after its four certificates. -/
def publicRest : Nat → Bytes → Bytes
  | 0, p => p
  | n + 1, p => publicRest n (p.drop (4 + leAt p 0 4))

/-- The stored certificates of identity kind 0 (Tvedgetex) or 1 (integrator): root, then identity. Defaults hold none
(R304). -/
def storedCert (s : State) (i : Nat) : Bytes :=
  (unpackCerts 4 (s.pilot.settings.held.getD s.pilot.settings.publicPart)).getD i []
def rootCert (s : State) (kind : Nat) : Bytes := storedCert s (2 * kind)
def identityCert (s : State) (kind : Nat) : Bytes := storedCert s (2 * kind + 1)

/-- Device slot of an identity kind. -/
def identitySlot (kind : Nat) : Nat := if kind = 0 then 1 else 3

/-- R251: the subject key equals the slot's key and the certificate's lcState the decoded state. -/
def identityFits (s : State) (kind : Nat) (cert : Bytes) : Bool :=
  let k := identitySlot kind
  !cert.isEmpty && slotServes s k 6 && certKey cert == hybridPub (s.slot k).material && certLc cert == s.lc.state.toNat

/-- Identities judged against the stored certificates. Once an invasive grant has closed slots 0-3 no key can be compared, and
the judgement stands. -/
def judgeIdentities (s0 : State) : State :=
  if s0.vault.invOpen then s0
  else
    let s := touchSlot (touchSlot s0 1) 3
    { s with pilot := { s.pilot with
        enrolled := (identityFits s 0 (identityCert s 0), identityFits s 1 (identityCert s 1)) } }

/-! ### Writing (R304, R305) -/

/-- Settings writes are refused: an invasive grant has destroyed slot 5 (R199), or there is no settings key. -/
def settingsClosed (s : State) : Bool := s.vault.invOpen || !slotServes s 5 9

/-- Only the migration write is made in a trial or a recovery boot. -/
def settingsHeld (s : State) : Bool := s.update.state == .trial || s.update.state == .recovery

/-- A write is due. -/
def settingsDue (s : State) : Bool :=
  !settingsClosed s && s.vault.drbgOk && (s.pilot.settings.migrating || ((s.pilot.settings.dirty || s.pilot.settings.held.isSome) && !settingsHeld s))

/-- The PUBLIC section a write carries: held-back changes join it outside a trial. -/
def publicNow (s : State) : Bytes :=
  if settingsHeld s then s.pilot.settings.publicPart else s.pilot.settings.held.getD s.pilot.settings.publicPart

/-- The bytes of the copy to be written, without its COMMIT. -/
def settingsImage (s : State) (seq : Nat) (iv : Bytes) : Bytes :=
  let st := s.pilot.settings
  let pub := publicNow s
  let h0 := [0x4D, 0x42, 0x33, 0x53, BitVec.ofNat 8 st.format, 0, 0, 0] ++ toLe 8 seq ++ toLe 4 pub.length ++
    toLe 4 st.sealedPart.length ++ iv
  let r := gcmEnc (s.slot 5).material iv (h0 ++ zeros 16) st.sealedPart
  h0 ++ r.2 ++ sha384 pub ++ zeros 28 ++ pub ++ r.1

/-- A settings write ends well: the area is erased, written and committed last. An ENROL_INSTALL behind it is answered. -/
def settingsStored (s : State) : State :=
  let b := writeTarget s
  let seq := (match newestSettings s (settingsCommitted s) with
    | some x => settingsSeq s x
    | none => 0) + 1
  let iv := drawBytes s 12
  let s1 := flashErase (drew s 12) (settingsBase b) 4
  let s2 := flashProgram s1 (settingsBase b) (settingsImage s seq iv)
  let s3 := flashProgram s2 (settingsBase b + 0x3FFFC) (toLe 4 0x434D4954)
  let st := s3.pilot.settings
  let s4 := { s3 with pilot := { s3.pilot with settings :=
    { st with chosen := true, area := b, seq := seq, publicPart := publicNow s, held := if settingsHeld s then st.held else none,
              dirty := false, migrating := false, writeFails := 0, install := none, answer := false } } }
  let s5 := if s.pilot.settings.migrating ∧ 0x19 ≤ s4.pilot.milestone.toNat then showStat s4 s4.pilot.milestone else s4
  if st.install.isSome && st.answer then reply s5 .pf0 0x13 [0x00] else s5

/-- A halt of Pilot firmware with a code (R132): the HALT record (R566), then for 0xA0 to 0xA2 the booted source marked BAD (R290). -/
def pilotHalt (s : State) (code : Byte) : State :=
  let s1 := if s.pilot.flashReady then recordsFirst (record s 0x0303 (code.setWidth 32) 0) else s
  halt (if code = 0xA0 ∨ code = 0xA1 ∨ code = 0xA2 then markBad s1 else s1) code

/-- The change of an ENROL_INSTALL that waits for its settings write is undone, and the command is answered with 0x03. -/
def installRefused (s : State) : State :=
  let st := s.pilot.settings
  match st.install with
  | some old =>
    let t := judgeIdentities { s with pilot := { s.pilot with settings :=
      { st with publicPart := old, install := none, answer := false, dirty := false } } }
    if st.answer then reply t .pf0 0x13 [0x03] else t
  | none => s

/-- A settings write fails: a migration that fails twice halts with 0xA2; an ENROL_INSTALL is answered with 0x03 and its
change undone. -/
def settingsFailed (s : State) : State :=
  let st := s.pilot.settings
  if st.migrating then
    if st.writeFails ≥ 1 then pilotHalt s 0xA2
    else { s with pilot := { s.pilot with settings := { st with writeFails := 1 } } }
  else installRefused s

/-- SETTINGS_WRITE (R305). -/
def execSettingsWrite (programOk : Bool) (s : State) : Out :=
  whenPilot s (fun s => if settingsDue s then (if programOk then settingsStored s else settingsFailed s) else s)

/-! ### Enrolment commands (R252, R538) -/

/-- tvx-unit (R245) of an identity kind. -/
def tvxUnit (s : State) (kind : Nat) : Bytes :=
  let u := unitBytes s.fuse
  derSeq [derNat (leAt u 0 4), derNat ((fuseValue s.fuse 256).extractLsb' 28 4).toNat, derOctets (u.drop 4), derEnum s.lc.state.toNat,
    derEnum kind]
def unitSerial (s : State) : Bytes := (unitBytes s.fuse).drop 4

/-- The certificationRequestInfo of PKCS #10 for an identity's key, with its tvx-unit (R252). R252 gives the request no subject: the model
writes that of the identity certificate (R245) for both kinds (DESIGN CHOICE, log entry 181). -/
def csrInfo (s : State) (kind : Nat) (key : Bytes) : Bytes :=
  derSeq [derNat 0, tvxName (ascii "MB3 Device Identity") none (unitSerial s), derKey oidHybridKey key,
    derTlv 0xA0 (derSeq [derOid [1, 2, 840, 113549, 1, 9, 14], derSet [derSeq [derExt oidTvxUnit false (tvxUnit s kind)]]])]

/-- ENROL_CSR, code 0x12. -/
def enrolCsr (s0 : State) (body : Bytes) : State :=
  let kind := leAt body 0 1
  let k := identitySlot kind
  if body.length ≠ 4 ∨ kind > 1 ∨ !allZero (body.drop 1) then reply s0 .pf0 0x12 (statusBody 0x02)
  else
    let s := touchSlot s0 k
    if !slotServes s k 6 then reply s .pf0 0x12 (statusBody 0x01)
    else
      let info := csrInfo s kind (hybridPub (s.slot k).material)
      reply (drew s 1) .pf0 0x12 (statusBody 0 ++ derSigned info (hybridSigOf (s.slot k).material (sha384 info) s.pilot.drawn))

def execEnrolCsr (body : Bytes) (s : State) : Out := whenPilot s (enrolCsr · body)

/-- The two certificates of an ENROL_INSTALL body, if it is well formed. -/
def installCerts (body : Bytes) : Option (Bytes × Bytes) :=
  let rl := leAt body 4 4
  let il := leAt body (8 + rl) 4
  if 12 ≤ body.length ∧ leAt body 0 1 ≤ 1 ∧ allZero (slice body 1 3) ∧ body.length = 12 + rl + il then
    some (slice body 8 rl, slice body (12 + rl) il)
  else none

/-- The issuer's signature on a certificate (R241). -/
def certSigned (issuer cert : Bytes) : Bool := hybridOk (certKey issuer) (sha384 (certTbs cert)) (certSig cert)

/-- ENROL_INSTALL, code 0x13: 0x03 while no settings write can be made (R199); then the issuer signature, R251's rule and the settings
store. In a trial or recovery boot the change is held in SRAM and answered at once (R305). -/
def enrolInstall (s : State) (body : Bytes) : State :=
  match (if settingsClosed s then none else installCerts body) with
  | none => reply s .pf0 0x13 [if settingsClosed s then 0x03 else 0x04]
  | some (root, cert) =>
    let kind := leAt body 0 1
    if !certSigned root cert then reply s .pf0 0x13 [0x01]
    else if !identityFits s kind cert then reply s .pf0 0x13 [0x02]
    else
      let st := s.pilot.settings
      let rest := publicRest 4 (st.held.getD st.publicPart)
      let cs := if kind = 0 then [root, cert, rootCert s 1, identityCert s 1] else [rootCert s 0, identityCert s 0, root, cert]
      if settingsHeld s then
        reply (judgeIdentities { s with pilot := { s.pilot with settings := { st with held := some (packCerts cs ++ rest) } } })
          .pf0 0x13 [0x00]
      else
        judgeIdentities { s with pilot := { s.pilot with settings :=
          { st with publicPart := packCerts cs ++ rest, dirty := true, install := some st.publicPart, answer := true } } }

def execEnrolInstall (body : Bytes) (s : State) : Out := whenPilot s (enrolInstall · body)

end Sys2Proof.Machine
end

