-- ==== Sys2Proof/Machine/Certs.lean ====
section
/-! DEFINITION. The per-boot alias certificates and the DICE entries of the measurements (07). -/

namespace Sys2Proof.Machine

/-! ### DICE entries (R249, R254) -/

/-- Counts of regions 10-13 as sensed at reset: svn of tvx-config (R246). -/
def svnCounts (s : State) : List Nat := (List.range 4).map (fun i => stepCount s.fuse.atReset (10 + i))
def svnBytes (s : State) : Bytes := (svnCounts s).map (BitVec.ofNat 8)
def svnDer (s : State) : Bytes := derSeq ((svnCounts s).map derNat)

/-- The operational flags (R249), as DICE numbers them: recovery in the layer 1 entry, debug in Maker in layers 0 and 1. -/
def tcbFlags (s : State) (layer : Nat) : List Nat :=
  (if layer = 1 ∧ s.pilot.booted = some .recovery then [2] else []) ++ (if layer ≤ 1 ∧ s.lc.state = 1 then [3] else [])

/-- The part of the booted Manifest that a measurement index names, if any. -/
def partOfIndex (s : State) (i : Nat) : Option Bytes :=
  let m := bootedManifest s
  if i = 2 then some (partOfKind m 1)
  else if 4 ≤ i ∧ i ≤ 7 then some (partOfKind m (i - 2))
  else if i = 8 then some (partOfKind m 6)
  else if 16 ≤ i then
    let n := leAt (siteEntry m (i - 16)) 8 1
    if n = 0xFF then none else some (partEntry m n)
  else none

/-- The DICE entry of a measurement, with every field of R249. A chiplet's vendor is O of its leaf, its model the site table's kind, and
its fwids the staged and the record digest. The spec gives no text form: a chiplet's model is its KIND_ID in 16 uppercase hexadecimal
digits and a part's version its VERSION in decimal; model and type of MB3's own entries, and version and svn of an entry that no part
of the Manifest stands for, are free values; the vendor of layers 0 and 1 is layer 2's (DESIGN CHOICE, log entry 152). -/
def tcbEntry (s : State) (i : Nat) (v : Bytes) : TcbInfo :=
  let x := s.site (i - 16)
  let layer := if i = 1 then 0 else if i ≤ 3 then 1 else 2
  let part := partOfIndex s i
  { vendor := if i < 16 then ascii "Tvedgetex" else x.vendor
    model := if i < 16 then Config.tcbModel i else hexUpper (toBe 8 (leAt (siteEntry (bootedManifest s) (i - 16)) 0 8))
    version := (part.map (fun e => decimal (pVersion e))).getD (Config.tcbVersion i)
    svn := (part.map pSvn).getD (Config.tcbSvn i)
    layer := layer
    index := i
    fwids := if i < 16 then [if v.length = 48 then v else sha384 v] else [padTo 48 x.staged, padTo 48 x.record]
    flags := tcbFlags s layer
    typ := Config.tcbType i }

def tcbOf (s : State) (i : Nat) : Bytes := derTcb (tcbEntry s i (tget [] s.pilot.measurements i))

/-! ### Alias certificates (R239, R242, R253, R258) -/

/-- An encoded field, or an empty SEQUENCE where the certificate it is copied from is not held. -/
def orEmptySeq (b : Bytes) : Bytes := if b.isEmpty then derSeq [] else b

/-- The tbsCertificate of the alias of an identity kind: the slot 4 key, issued by the device identity (R242). Layer 1 has the entries of
indices 2 and 3: each is a DiceTcbInfo of its own (DESIGN CHOICE, log entry 152). -/
def aliasTbs (s : State) (kind : Nat) : Bytes :=
  let key := hybridPub (s.slot 4).material
  let issuer := identityCert s kind
  derTbs (orEmptySeq (certSubject issuer)) (orEmptySeq (certValidity issuer)) (tvxName (ascii "MB3 Alias") none (unitSerial s)) oidHybridKey key
    (derUsual (some 0) [5, 0] key (hybridPub (s.slot (identitySlot kind)).material) ++
      [derExt oidTvxUnit false (tvxUnit s kind), derExt oidTcbInfo false (tcbOf s 2), derExt oidTcbInfo false (tcbOf s 3)])

/-- The alias certificate held since this boot. -/
def aliasCert (s : State) (kind : Nat) : Bytes := tget [] s.pilot.aliases kind

/-- The alias of an identity kind issued, if slot 4 and the identity's slot serve (R239, R253). It is issued once, at the boot,
with whatever identity certificate the settings then hold (DEDUCED, log entry 150). -/
def issueAlias (s0 : State) (kind : Nat) : State :=
  let s := touchSlot (touchSlot s0 4) (identitySlot kind)
  if slotServes s 4 6 && slotServes s (identitySlot kind) 6 then
    let tbs := aliasTbs s kind
    let cert := derSigned tbs (hybridSigOf (s.slot (identitySlot kind)).material (sha384 tbs) s.pilot.drawn)
    let s1 := drew s 1
    { s1 with pilot := { s1.pilot with aliases := tset s1.pilot.aliases kind cert } }
  else s

end Sys2Proof.Machine
end

