-- ==== Sys2Proof/Machine/Update.lean ====
section
/-! DEFINITION. Field update through the Slipway (08): the update commands, the state machine of R292, the copy, the
counters, and the state found at a start. -/

namespace Sys2Proof.Machine

/-- State codes of UPDATE_STATUS, in the order of R292. -/
def updateCode : UpdateState → Byte
  | .idle => 0
  | .erasing => 1
  | .staging => 2
  | .validating => 3
  | .staged => 4
  | .trial => 5
  | .copying => 6
  | .burning => 7
  | .recovery => 8

/-- A state change is journalled (R566). -/
def setUpdate (s : State) (st : UpdateState) (status : Byte) : State :=
  let s1 := { s with update := { s.update with state := st, lastStatus := status } }
  if st = s.update.state then s1 else record s1 0x0502 ((updateCode st).setWidth 32) (status.setWidth 32)

/-- An update command answers with its status, which UPDATE_STATUS reports from then on. -/
def updateReply (s : State) (code st : Byte) : State :=
  reply { s with update := { s.update with lastStatus := st } } .pf0 code (statusBody st)

/-! ### Areas and checks -/

def slipBase : Nat := areaBase .slipway
def slipManifest (s : State) : Bytes := manifestAt s slipBase

/-- The 64 KiB sectors, by area offset, that the Manifest and its parts occupy. -/
def areaSectors (m : Bytes) : List Nat :=
  ((List.range 288).filter (fun k => k == 0 || (partEntries m).any (fun e =>
    decide (pOffset e < 65536 * (k + 1)) && decide (65536 * k < pOffset e + pLength e))))

/-- These sectors of an area erased. -/
def eraseArea (s : State) (base : Nat) (m : Bytes) : State :=
  (areaSectors m).foldl (fun s k => flashErase s (base + 65536 * k) 1) s

/-- Checks 7 to 11 of R284 and the payload checks of R296 on an area. -/
def areaGood (s : State) (base : Nat) : Bool :=
  let m := manifestAt s base
  let h := headerAt s base
  headerCheck s.fuse m h == 0 && chainCheck s base (leAt h 32 4) (leAt h 32 4) 0 (slice h 40 48) == 0 &&
    ((partEntries m).filter (fun e => pKind e != 1)).all (partGood s base)

/-- REVOKE names the slot of this signer block of region 3. -/
def revokes (m b : Bytes) : Bool := leAt b 0 1 / 16 == 3 && nbit (leAt m 34 1) (leAt b 0 1 % 4)

/-- UPDATE_BEGIN's status before it erases (R293, R294), against the fuses as sensed at this reset: 0x01 if it may start. -/
def beginStatus (s : State) (m : Bytes) : Byte :=
  if m.length ≠ manifestLen m then 0x03
  else
    match manifestCheck s.fuse.atReset m with
    | 0x8C => 0x03
    | 0x8D => 0x04
    | 0x8E => 0x05
    | 0x8F => 0x05
    | 0x90 => 0x06
    | 0x91 => 0x07
    | _ =>
      match newestSettings s (settingsReadable s) with
      | some b =>
        if settingsFormat s b < leAt m 33 1 then 0x0B
        else if (List.range (signerCount m)).any (fun i => revokes m (signerBlock m i)) then 0x0C else 0x01
      | none => if (List.range (signerCount m)).any (fun i => revokes m (signerBlock m i)) then 0x0C else 0x01

/-! ### Commands (R291, R293-R296) -/

/-- The SEQ and MANIFEST_DIGEST of a committed bank, or zeros. -/
def bankStatus (s : State) (b : BootSource) : Bytes :=
  if setCommit s b then toLe 8 (recSeq s b) ++ recDigest s b else zeros 56

/-- UPDATE_STATUS, code 0x20: the items of R291 in its order (DESIGN CHOICE of layout, log entry 18). -/
def execUpdateStatus (body : Bytes) (s : State) : Out :=
  whenPilot s (fun s =>
    if body ≠ [] then replyMs s .pf0 0x20 0x05 []
    else
      let flags := b2n (setStaged s) + 2 * b2n (setBad s .slipway) + 4 * b2n (setTried s) + 8 * b2n (setConfirmed s) +
        16 * b2n (setCopied s)
      reply s .pf0 0x20 ([0, updateCode s.update.state, s.update.lastStatus,
        (match s.pilot.booted with
          | some b => BitVec.ofNat 8 (sourceCode b)
          | none => 0)] ++ toLe 4 s.update.written ++ bankStatus s .bankA ++ bankStatus s .bankB ++
        [BitVec.ofNat 8 flags, if s.fuse.vppOk then 1 else 0, 0, 0] ++ slice (slipManifest s) 28 4))

/-- UPDATE_BEGIN, code 0x21. -/
def execUpdateBegin (body : Bytes) (s : State) : Out :=
  whenPilot s (fun s =>
    if s.update.state ≠ .idle then updateReply s 0x21 0x02
    else
      match beginStatus s body with
      | 0x01 =>
        let s1 := setUpdate { s with update := { s.update with manifest := body, written := 0, mark := 0, confirmed := false,
                                                               copyTries := 0 } } .erasing 0x01
        updateReply s1 0x21 0x01
      | e => updateReply s 0x21 e)

/-- UPDATE_ERASE_DONE: the Slipway record and body are erased and the Manifest programmed, or 0x0A. -/
def execUpdateEraseDone (ok : Bool) (s : State) : Out :=
  whenPilot s (fun s =>
    if s.update.state ≠ .erasing then s
    else
      let m := s.update.manifest
      let s1 := eraseArea (flashErase (recordsFirst s) (recordBase .slipway) 1) slipBase m
      if ok then setUpdate (flashProgram s1 slipBase m) .staging 0x00
      else setUpdate { s1 with update := { s1.update with manifest := [] } } .idle 0x0A)

/-- The bytes lie wholly inside one part. -/
def insidePart (m : Bytes) (off len : Nat) : Bool :=
  (partEntries m).any (fun e => decide (pOffset e ≤ off) && decide (off + len ≤ pOffset e + pLength e))

/-- UPDATE_WRITE, code 0x22 (R295). -/
def execUpdateWrite (body : Bytes) (s : State) : Out :=
  whenPilot s (fun s =>
    let off := leAt body 0 4
    let data := body.drop 4
    if s.update.state ≠ .staging then updateReply s 0x22 0x02
    else if body.length < 5 ∨ data.length > 16384 ∨ off < s.update.mark ∨ !insidePart (slipManifest s) off data.length then
      updateReply s 0x22 0x08
    else
      let s1 := flashProgram (recordsFirst s) (slipBase + off) data
      let s2 := { s1 with update := { s1.update with mark := off + data.length, written := s1.update.written + data.length } }
      updateReply s2 0x22 (if flashRead s2 (slipBase + off) data.length = data then 0x00 else 0x0A))

/-- UPDATE_END, code 0x23. -/
def execUpdateEnd (body : Bytes) (s : State) : Out :=
  whenPilot s (fun s =>
    if body ≠ [] then replyMs s .pf0 0x23 0x05 []
    else if s.update.state ≠ .staging then updateReply s 0x23 0x02
    else updateReply (setUpdate s .validating 0x01) 0x23 0x01)

/-- UPDATE_VALIDATE_DONE (R296): the checks, the settings area that does not hold the newest copy erased, then STAGED. -/
def execUpdateValidateDone (programOk : Bool) (s : State) : Out :=
  whenPilot s (fun s =>
    if s.update.state ≠ .validating then s
    else if !areaGood s slipBase then setUpdate s .idle 0x09
    else if revokes (slipManifest s) (slice (headerAt s slipBase) 128 7416) then setUpdate s .idle 0x0C
    else if !programOk then setUpdate s .idle 0x0A
    else
      setUpdate (programWord (flashErase (recordsFirst s) (settingsBase (settingsTarget s)) 4) .slipway 80 0x53544744) .staged 0x00)

/-- UPDATE_ABORT, code 0x24: a trial is marked BAD and stays a trial until reset; otherwise the state is IDLE. A
Slipway that had been STAGED is marked BAD so that it counts as idle at the next start. -/
def execUpdateAbort (body : Bytes) (s : State) : Out :=
  whenPilot s (fun s =>
    if body ≠ [] then replyMs s .pf0 0x24 0x05 []
    else
      match s.update.state with
      | .staging => updateReply (setUpdate s .idle 0) 0x24 0
      | .staged => updateReply (setUpdate (programWord (recordsFirst s) .slipway 68 0) .idle 0) 0x24 0
      | .trial => updateReply (programWord (recordsFirst s) .slipway 68 0) 0x24 0
      | _ => updateReply s 0x24 0x02)

/-! ### Confirmation, copy, counters (R297-R300) -/

def holdConfirm (s : State) : Bool := nbit (leAt (bootedManifest s) 5 1) 1

/-- R297's conditions; a trial marked BAD by ABORT does not confirm, nor any from an invasive grant on (R199). -/
def confirmReady (s : State) : Bool :=
  s.update.state == .trial && s.pilot.ready && !s.pilot.settings.migrating && (!holdConfirm s || s.update.confirmed) &&
    !setBad s .slipway && !s.vault.invOpen

/-- TRIAL_CONFIRM: CONFIRMED is programmed and the copy begins. -/
def confirmTrial (s : State) : State :=
  if confirmReady s then setUpdate (programWord (recordsFirst s) .slipway 88 0x434E464D) .copying s.update.lastStatus else s

def execTrialConfirm (s : State) : Out := whenPilot s confirmTrial

/-- The lowest SVN among the parts that share a counter region, if there is one. -/
def lowestSvn (m : Bytes) (region : Nat) : Option Nat :=
  ((partEntries m).filter (fun e => counterRegion (pKind e) == region)).foldl
    (fun b e => match b with
      | none => some (pSvn e)
      | some v => some (min v (pSvn e))) none

/-- The counter regions still below their target. -/
def countersDue (s : State) (m : Bytes) : List Nat :=
  [10, 11, 12, 13].filter (fun r => match lowestSvn m r with
    | some v => decide (stepCount s.fuse r < v)
    | none => false)

/-- The words of region 4 that REVOKE names and that are not burned. -/
def revokesDue (s : State) (m : Bytes) : List Nat :=
  ((List.range 4).filter (fun k => nbit (leAt m 34 1) k)).map (128 * 4 + ·) |>.filter (fun w => (s.shadow w).cls == .blank)

/-- The bank that was active before the update (R300): of two committed banks that are not retired, the one with the lower SEQ. The
update may have carried that bank's own Manifest, so its digest does not tell them apart. -/
def oldBank (s : State) : Option BootSource :=
  let live (b : BootSource) : Bool := setCommit s b && !setRetired s b
  if live .bankA && live .bankB then some (if recSeq s .bankA < recSeq s .bankB then .bankA else .bankB) else none

/-- COUNTER_BURN (R300): one step of raising counters, then of revoking, while VPP_OK is 1 and the controller is free;
when nothing is left RETIRED is programmed and the update is over. -/
def burnCounters (s : State) : State :=
  if s.update.state ≠ .burning then s
  else
    let m := slipManifest s
    let free := s.fuse.vppOk && !s.fuse.busy && !s.lc.busy
    match countersDue s m, revokesDue s m with
    | r :: _, _ =>
      if free && incrementCheck s.lc.state s.fuse r == 0 then
        fuseBegin (bump s 4 1) none [(incrementWord s.fuse r, fuseEncode (BitVec.allOnes 64))]
      else s
    | [], w :: _ =>
      if free && programCheck s.lc.state s.fuse w (BitVec.allOnes 64) == 0 then
        fuseBegin (bump s 4 1) none [(w, fuseEncode (BitVec.allOnes 64))]
      else s
    | [], [] =>
      match oldBank s with
      | some b => setUpdate (programWord (recordsFirst s) b 72 0) .idle s.update.lastStatus
      | none => setUpdate s .idle s.update.lastStatus

def execCounterBurn (s : State) : Out := whenPilot s burnCounters

/-- UPDATE_CONFIRM, code 0x25. -/
def execUpdateConfirm (body : Bytes) (s : State) : Out :=
  whenPilot s (fun s =>
    if body ≠ [] then replyMs s .pf0 0x25 0x05 []
    else
      match s.update.state with
      | .trial =>
        if s.pilot.ready && holdConfirm s then
          updateReply (confirmTrial { s with update := { s.update with confirmed := true } }) 0x25 0x01
        else updateReply s 0x25 0x02
      | .burning => updateReply (burnCounters s) 0x25 0x01
      | _ => updateReply s 0x25 0x02)

/-- The committed bank, not retired, whose MANIFEST_DIGEST matches the Slipway (R299). -/
def matchingBank (s : State) : Option BootSource :=
  [BootSource.bankA, .bankB].find? (fun b => setCommit s b && !setRetired s b && recDigest s b == sha384 (signedSpan (slipManifest s)))

/-- Steps 1 to 3 of R298: the target bank erased and the Slipway copied into it. -/
def copyArea (s : State) : State :=
  let b := targetBank s
  let m := slipManifest s
  let s1 := eraseArea (flashErase s (recordBase b) 1) (areaBase b) m
  let s2 := flashProgram s1 (areaBase b) (m.take (manifestLen m))
  (partEntries m).foldl (fun s e => flashProgram s (areaBase b + pOffset e) (flashRead s (slipBase + pOffset e) (pLength e))) s2

/-- SLIPWAY_COPY (R298, R299): the copy is made, checked and committed; a third failure marks the Slipway BAD. Where the start
found CONFIRMED set and COPIED clear, a bank that matches already needs only COPIED. -/
def copySlipway (s0 : State) (ok : Bool) : State :=
  if s0.update.state ≠ .copying then s0
  else
    let s := recordsFirst { s0 with update := { s0.update with resumed := false } }
    match (if s0.update.resumed then matchingBank s else none) with
    | some _ => setUpdate (programWord s .slipway 92 0x43504944) .burning s.update.lastStatus
    | none =>
      let b := targetBank s
      let top := match activeBank s with
        | some x => recSeq s x
        | none => 0
      let s1 := copyArea s
      if ok ∧ sourceCheck s1 (areaBase b) = 0 ∧ areaGood s1 (areaBase b) then
        let s2 := flashProgram s1 (recordBase b) (sha384 (signedSpan (slipManifest s1)) ++ toLe 8 (top + 1))
        setUpdate (programWord (programWord s2 b 64 0x434D4954) .slipway 92 0x43504944) .burning s.update.lastStatus
      else
        let s2 := flashErase s1 (recordBase b) 1
        if s.update.copyTries ≥ 2 then setUpdate (programWord s2 .slipway 68 0) .idle 0x0A
        else { s2 with update := { s2.update with copyTries := s2.update.copyTries + 1 } }

def execSlipwayCopy (programOk : Bool) (s : State) : Out := whenPilot s (copySlipway · programOk)

/-! ### The state at a start (R292, R299, R301, R302) -/

/-- The update state that the booted source and the Slipway's flags give. -/
def startState (s : State) : UpdateState :=
  match s.pilot.booted with
  | some .recovery => .recovery
  | b =>
    if setBad s .slipway then .idle
    else if setCopied s then
      (if (matchingBank s).isSome && ((countersDue s (slipManifest s)) != [] || (revokesDue s (slipManifest s)) != [] ||
          (oldBank s).isSome) then .burning else .idle)
    else if b = some .slipway then (if setConfirmed s then .copying else .trial)
    else if setStaged s && !setTried s then .staged
    else .idle

end Sys2Proof.Machine
end

