-- ==== Sys2Proof/Machine/Firmware.lean ====
section
/-! DEFINITION. Pilot firmware from entry to the release of the management cores (03): firmware entry, microcode,
and the management mailbox with its messages. -/

namespace Sys2Proof.Machine

/-! ### Firmware entry (R96 step 1.9, R221, R251, R254, R258, R299, R304, R572) -/

/-- Pilot's DERIVE into one of slots 4-7. -/
def deriveInto (s : State) (k : Nat) : State :=
  deriveOp { s with vault := { s.vault with cmd := { field := 0, index := BitVec.ofNat 12 k, typ := 0, space := false },
                                            err := 0 } }

/-- Codes of the failed sources, one byte each. -/
def failedCodes (s : State) : Word := BitVec.ofNat 32 (leNat ((s.pilot.bootRecord.map (·.2)).take 4))

/-- FIRMWARE_ENTRY: per-boot slots derived, the journal scanned, settings and identities judged, the alias certificate
signed, the update state found, and the cold boot journalled. -/
def firmwareEntry (s : State) : State :=
  match s.pilot.phase, s.pilot.booted with
  | .rom, some src =>
    if !s.pilot.udsLocked then s
    else
      let s1 := { s with pilot := { s.pilot with phase := .firmware } }
      let s2 := [4, 5, 6, 7].foldl deriveInto s1
      let s3 := journalScan s2
      let s5 := record s3 0x0005 (BitVec.ofNat 32 (sourceCode src)) (failedCodes s3)
      let s6 := judgeIdentities (chooseSettings s5)
      let s7 := takeMeasure (takeMeasure s6 9 (sha384 (signedSpan (bootedManifest s6)))) 10 (svnDer s6)
      let s8 := issueAlias (issueAlias s7 0) 1
      let s9 := { s8 with pilot := { s8.pilot with aliasReady := (tfind s8.pilot.aliases 0).isSome } }
      { s9 with update := { s9.update with state := startState s9, resumed := startState s9 == .copying } }
  | _, _ => s

/-! ### Microcode (R110-R112) -/

/-- Number of a microcode kind: its part KIND is 2 more, its measurement index 4 more. -/
def ucIx : UcKind → Nat
  | .pier => 0
  | .gangway => 1
  | .press => 2
  | .ferry => 3

/-- The islands of a kind. -/
def ucIslands : UcKind → List Nat
  | .pier => List.range 154
  | .gangway => (List.range 52).map (154 + ·)
  | .press => (List.range 16).map (206 + ·)
  | .ferry => (List.range 8).map (222 + ·)

/-- The kind of an island's microcode. -/
def ucKindOf (ix : Nat) : Nat := if ix < 154 then 0 else if ix < 206 then 1 else if ix < 222 then 2 else 3

/-- The island's store takes an install: it passed its test, is parked, and has not been unparked since power-up. -/
def ucOpen (s : State) (ix : Nat) : Bool :=
  let x := tget islandInit s.isl ix
  s.power.domOn.getLsbD (domainOf (islandAt ix)) && x.test == .passed && x.parked && !x.ucLocked && !x.ucOk &&
    decide (x.ucTries < 2)

/-- The install broadcast reaches every island of the kind that takes it. -/
def ucBroadcast (s : State) (k : UcKind) : State :=
  (ucIslands k).foldl (fun s ix => if ucOpen s ix then
    let x := tget islandInit s.isl ix
    s.setIsland (islandAt ix) { x with ucTries := x.ucTries + 1 } else s) s

/-- MICROCODE_INSTALL (R110, R112, R254, R285): the image is checked against the Manifest and measured once, and a copy
kept; a failure halts with 0xA0. -/
def microcodeInstall (s : State) (k : UcKind) : State :=
  match tfind s.pilot.ucImages (ucIx k) with
  | some _ => ucBroadcast s k
  | none =>
    let e := partOfKind (bootedManifest s) (ucIx k + 2)
    if partGood s (bootedBase s) e then
      let img := partPayload s (bootedBase s) e
      ucBroadcast (takeMeasure { s with pilot := { s.pilot with ucImages := tset s.pilot.ucImages (ucIx k) img } } (ucIx k + 4)
        (sha384 img)) k
    else pilotHalt s 0xA0

def execMicrocodeInstall (k : UcKind) (s : State) : Out :=
  whenPilot s (fun s => if s.pilot.collected then microcodeInstall s k else s)

/-- Every island of the 230 that passed its self-test and is not failed holds its microcode. -/
def ucAll (s : State) : Bool :=
  (List.range 230).all (fun ix =>
    let x := tget islandInit s.isl ix
    x.ucOk || x.test != .passed || x.service == .failed)

/-- MICROCODE_CRC_RETURN (R110): a good CRC ends the install; a second bad one counts as a failed self-test. -/
def microcodeCrc (s : State) (i : Island) (crc : Word) : State :=
  let x := s.island i
  let ix := islandIx i
  if !islandExists i ∨ 230 ≤ ix ∨ x.ucTries = 0 ∨ x.ucOk then s
  else
    match tfind s.pilot.ucImages (ucKindOf ix) with
    | none => s
    | some img =>
      let s1 := if crc = crc32c img then s.setIsland i { x with ucOk := true }
        else if x.ucTries ≥ 2 then failTested s ix else s
      if ucAll s1 then showWait (milestone s1 0x12) else s1

def execMicrocodeCrcReturn (isl : Island) (crc : Word) (s : State) : Out := whenPilot s (microcodeCrc · isl crc)

/-! ### The management cores (R62, R86, R113, R125) -/

/-- BOARD_MGMT_CTL.LOAD_EN: a write of 1 while MGMT_RUN is 1 is ignored; opening the port voids an earlier check. -/
def execLoadEn (v : Bool) (s : State) : Out :=
  whenCommanded s (fun s =>
    if v then
      (if s.board.mgmtRun then s
       else { s with board := { s.board with loadEn := true }, pilot := { s.pilot with mgmtVerified := false } })
    else { s with board := { s.board with loadEn := false } })

/-- MGMT_FIRMWARE_LOAD (R113, R254, R285): streamed through the open load port into the cores' instruction memory, checked
and measured; else 0xA1. -/
def mgmtLoad (s : State) : State :=
  if !s.board.loadEn then s
  else
    let e := partOfKind (bootedManifest s) 6
    let image := partPayload s (bootedBase s) e
    let s1 := emit s (.loadPort image)
    if partGood s (bootedBase s) e then takeMeasure { s1 with pilot := { s1.pilot with mgmtVerified := true } } 8 (sha384 image)
    else pilotHalt s1 0xA1

def execMgmtFirmwareLoad (s : State) : Out := whenPilot s mgmtLoad

/-- The field BOARD_MGMT_CTL.MGMT_RUN (R125): 1 releases the cores and clears LOAD_EN; 0 holds them in reset. -/
def mgmtRelease (s : State) (v : Bool) : State :=
  { s with board := { s.board with mgmtRun := v, loadEn := s.board.loadEn && !v } }

/-- Phase 3 of startup has come: phase 2 has reached its event (R95: results collected and all microcode installed), the management
firmware is verified and measured (R62, R113), and the ordering token does not hold MB3 back (R86). -/
def phaseThree (s : State) : Bool := s.pilot.collected && ucAll s && s.pilot.mgmtVerified && tokenClear s

/-- MGMT_RUN as Pilot writes it. The field acts whatever its time (R125); Pilot's program writes 1 only in phase 3 (R62, R86, R95,
R113), and only then is 0x14 reached (log entry 166). -/
def mgmtRun (s : State) (v : Bool) : State :=
  if v && phaseThree s then milestone (mgmtRelease s true) 0x14 else mgmtRelease s v

def execMgmtRun (v : Bool) (s : State) : Out := whenPilot s (mgmtRun · v)

/-- BOARD_MGMT_CTL.OUT_GO: BOARD_MGMT_OUT goes to the cores. -/
def outGo (s : State) : State :=
  emit { s with board := { s.board with outGo := true } } (.mgmt (mread 0 s.board.mgmtOut 0 64))

def execOutGo (s : State) : Out := whenCommanded s outGo

/-- A core has taken the message. -/
def execMgmtOutTaken (s : State) : Out :=
  whenRunning s (fun s => if s.board.mgmtRun then { s with board := { s.board with outGo := false } } else s)

/-- BOARD_MGMT_CTL.IN_FULL written 1 frees the buffer. -/
def execInFullClear (s : State) : Out := whenCommanded s (fun s => { s with board := { s.board with inFull := false } })

/-- A message from running cores lands in BOARD_MGMT_IN (R125, R126). One that finds the buffer full waits with its sender. -/
def mgmtLand (s : State) (msg : Bytes) : State :=
  if s.board.mgmtRun ∧ !s.board.inFull then
    { s with board := { s.board with mgmtIn := mOf (padTo 64 msg), inFull := true, mgmtDue := true } }
  else s

/-- Lanes of a Tier-1 stack, or the lane of a Tier-2 port, by island number, without spares. -/
def stackLanes (k : Nat) : List Nat := (List.range 16).map (fun c => 17 * k + c)

/-- Memory training is reported (R97, R114): stacks and ports not named leave service; the wait for memory ends. -/
def memTrained (s : State) (stackMap : BitVec 8) (ports : BitVec 16) : State :=
  let s1 := { s with pilot := { s.pilot with memTrained := true, stackMap := stackMap, ports := ports } }
  let bad := ((List.range 8).filter (fun k => !stackMap.getLsbD k)).flatMap stackLanes ++
    (((List.range 16).filter (fun p => !ports.getLsbD p)).map (136 + ·))
  milestone (bad.foldl unserve s1) 0x15

/-- UNKNOWN (R114): a message of a type Pilot does not know is answered with type 0x04. -/
def unknownType (b : Byte) : Bool := b != 0x01 && b != 0x02 && b != 0x03 && b != 0x04

end Sys2Proof.Machine
end

