-- ==== Sys2Proof/Machine/Spdm.lean ====
section
/-! DEFINITION. MB3 as an SPDM responder on the Cable ring and on the PF0 mailbox (07, 02). -/

namespace Sys2Proof.Machine

/-! ### The connection -/

def State.conn (s : State) : Transport → SpdmConn
  | .ring _ => s.pilot.spdmRing
  | .pf0 => s.pilot.spdmPf0
def State.setConn (s : State) (t : Transport) (c : SpdmConn) : State :=
  match t with
  | .ring _ => { s with pilot := { s.pilot with spdmRing := c } }
  | .pf0 => { s with pilot := { s.pilot with spdmPf0 := c } }

/-! ### Responses -/

/-- The general opaque element that carries the ML-DSA-87 half (R257): ID 0x03, the VendorID P little-endian with its length, and
the kind byte 0x01 with the signature behind their length. The two lengths are SPDM's (PRESUMED, log entry 20). -/
def opaqueElement (mldsa : Bytes) : Bytes := [0x03, 4] ++ toLe 4 Config.enterprise ++ toLe 2 (1 + mldsa.length) ++ [0x01] ++ mldsa

/-- The content of a response, field by field, after its code; the bytes are SPDM's (log entry 35). -/
def spdmFields : SpdmReply → List Bytes
  | .version vs => [[0x04], vs.map (fun v => if v = .v12 then 0x12 else 0x13)]
  | .capabilities cert chal meas ct size msg =>
    [[0x61], [if cert then 1 else 0, if chal then 1 else 0, if meas then 1 else 0, BitVec.ofNat 8 ct], toLe 4 size, toLe 4 msg]
  | .algorithms sha ecdsa => [[0x63], [if sha then 1 else 0, if ecdsa then 1 else 0]]
  | .digests d0 d1 => [[0x01], d0, d1.getD []]
  | .certificate slot portion rest => [[0x02], [BitVec.ofNat 8 slot], portion, toLe 4 rest]
  | .challengeAuth slot h m ecdsa mldsa => [[0x03], [BitVec.ofNat 8 slot], h, m, opaqueElement mldsa, ecdsa]
  | .measurements n bs ecdsa mldsa =>
    [[0x60], toLe 4 n] ++ bs.map (fun b => [BitVec.ofNat 8 b.index, b.typ] ++ b.value) ++
      (if ecdsa.isEmpty then [] else [opaqueElement mldsa, ecdsa])

/-- The reason of an ERROR as SPDM numbers it (SPDM 1.2; PRESUMED, log entry 20). -/
def spdmReason : SpdmFail → Byte
  | .invalidRequest => 0x01
  | .busy => 0x03
  | .unexpectedRequest => 0x04
  | .unspecified => 0x05
  | .unsupportedRequest => 0x07
  | .responseNotReady => 0x42

/-- A response leaves over its transport: as a message on the ring, or as the reply to the SPDM command in PF0's mailbox
(R256, R534). -/
def spdmSay (s : State) (t : Transport) (e : Emission) (fields : List Bytes) : State :=
  match t with
  | .ring src => sendSpdm s src e fields
  | .pf0 => reply (emit s e) .pf0 0x10 (Config.spdmResponse fields)

def spdmSend (s : State) (t : Transport) (r : SpdmReply) : State := spdmSay s t (.spdm t r) (spdmFields r)
def spdmRefuse (s : State) (t : Transport) (r : SpdmFail) : State := spdmSay s t (.spdmError t r) [[0x7F], [spdmReason r]]

/-- A request reaches the responder: on the ring through CRING_RX_BUF, not-ready until Pilot runs verified firmware and busy while the
buffer is full (R81, R587). -/
def spdmAsk (s : State) (t : Transport) (req : List Bytes) (f : State → State) : State :=
  match t with
  | .ring src => if inserted s then toPilotServed s src (0x05 :: Config.requestBytes req) f else s
  | .pf0 => if pilotUp s then f s else s

/-- A request that SPDM allows only once algorithms are negotiated, and that needs the alias certificate (R258). -/
def spdmReady (s : State) (t : Transport) (f : State → State) : State :=
  if !(s.conn t).algs then spdmRefuse s t .unexpectedRequest
  else if !s.pilot.aliasReady then spdmRefuse s t .responseNotReady
  else f s

/-! ### Certificates (R242, R253, R258) -/

/-- An SPDM certificate chain: LENGTH, the root's hash, then root, device identity and alias (SPDM 1.2; PRESUMED, log
entry 20). -/
def certChain (s : State) (kind : Nat) : Bytes :=
  let body := sha384 (rootCert s kind) ++ rootCert s kind ++ identityCert s kind ++ aliasCert s kind
  toLe 2 (body.length + 4) ++ [0, 0] ++ body

/-- Slot 1 is empty while device slot 3 is. -/
def slot1Present (s : State) : Bool := (s.slot 3).valid

/-! ### Measurements (R254, R255) -/

/-- Every measurement index present: 1 to 10, and those of boarded sites. -/
def measured (s : State) : List (Nat × Bytes) := s.pilot.measurements

/-- DMTF value type of an index. -/
def dmtfType (i : Nat) : Byte := if i = 1 then 0x00 else if i = 3 then 0x02 else if i = 9 then 0x04 else if i = 10 then 0x07 else 0x01

def blockOf (x : Nat × Bytes) : SpdmMeasurement := { index := x.1, typ := dmtfType x.1, value := x.2 }

/-- SHA-384 over every measurement, for a CHALLENGE that asks for them. -/
def measSummary (s : State) : Bytes := sha384 ((measured s).flatMap (fun x => BitVec.ofNat 8 x.1 :: x.2))

/-- The two halves of a signature by the alias key over a transcript (R257). -/
def aliasSign (s : State) (t : List Bytes) : Bytes := hybridSigOf (s.slot 4).material (padTo 48 (Config.spdmTranscript t)) s.pilot.drawn

/-- A response that the alias key signs: ERROR Unspecified where the vault refuses slot 4 (R207; DESIGN CHOICE, log entry 149). -/
def aliasUse (s : State) (t : Transport) (f : State → State) : State :=
  let s1 := touchSlot s 4
  if slotServes s1 4 6 then f s1 else spdmRefuse s1 t .unspecified

/-! ### Requests -/

/-- GET_VERSION: 1.2 and 1.3; the connection begins again. -/
def execGetVersion (t : Transport) (s : State) : Out :=
  whenRunning s (fun s => spdmAsk s t [[0x84]] (fun s =>
    spdmSend (s.setConn t spdmReset) t (.version [.v12, .v13])))

/-- GET_CAPABILITIES in the version the requester chose. -/
def execGetCapabilities (t : Transport) (version : SpdmVersion) (s : State) : Out :=
  whenRunning s (fun s => spdmAsk s t [[0xE1], [if version = .v12 then 0x12 else 0x13]] (fun s =>
    spdmSend (s.setConn t { version := some version, caps := true, algs := false })
      t (.capabilities true true true 13 8192 8192)))

/-- NEGOTIATE_ALGORITHMS: SHA-384 and ECDSA P-384, if the requester offers them. -/
def execNegotiateAlgorithms (t : Transport) (offersSha384 offersP384 : Bool) (s : State) : Out :=
  whenRunning s (fun s => spdmAsk s t [[0xE3], [if offersSha384 then 1 else 0, if offersP384 then 1 else 0]] (fun s =>
    if !(s.conn t).caps then spdmRefuse s t .unexpectedRequest
    else if offersSha384 && offersP384 then
      spdmSend (s.setConn t { s.conn t with algs := true }) t (.algorithms true true)
    else spdmRefuse s t .invalidRequest))

/-- GET_DIGESTS of slots 0 and 1. -/
def execGetDigests (t : Transport) (s : State) : Out :=
  whenRunning s (fun s => spdmAsk s t [[0x81]] (fun s => spdmReady s t (fun s =>
    spdmSend s t (.digests (sha384 (certChain s 0)) (if slot1Present s then some (sha384 (certChain s 1)) else none)))))

/-- The certificate slot can be used: slot 0 while the Tvedgetex identity is enrolled (R251), slot 1 while present; R256 allows no
other. -/
def slotError (s : State) (slot : Nat) : Option SpdmFail :=
  match slot with
  | 0 => if s.pilot.enrolled.1 then none else some .unspecified
  | 1 => if slot1Present s then none else some .invalidRequest
  | _ => some .unsupportedRequest

/-- The longest portion of a chain that a CERTIFICATE response carries: with its 8 bytes of header the message fits the
8,192 B of DataTransferSize (R83; the header is SPDM 1.2's, PRESUMED, log entry 20). -/
def maxPortion : Nat := 8184

/-- GET_CERTIFICATE: the portion asked for, as far as a response can carry it, and what remains. -/
def execGetCertificate (t : Transport) (slot offset length : Nat) (s : State) : Out :=
  whenRunning s (fun s => spdmAsk s t [[0x82], toLe 1 slot, toLe 4 offset, toLe 4 length] (fun s => spdmReady s t (fun s =>
    match slotError s slot with
    | some e => spdmRefuse s t e
    | none =>
      let c := certChain s slot
      if offset ≥ c.length then spdmRefuse s t .invalidRequest
      else
        let p := slice c offset (min length maxPortion)
        spdmSend s t (.certificate slot p (c.length - offset - p.length)))))

/-- CHALLENGE (R257): signed by the alias key; an error while an invasive right is open (R198). -/
def execChallenge (t : Transport) (slot : Nat) (nonce : Bytes) (s : State) : Out :=
  whenRunning s (fun s => spdmAsk s t [[0x83], toLe 1 slot, nonce] (fun s => spdmReady s t (fun s =>
    if s.lc.grant &&& invasiveMask ≠ 0 ∨ s.pilot.assignClosed then spdmRefuse s t .unspecified
    else
      match slotError s slot with
      | some e => spdmRefuse s t e
      | none => aliasUse s t (fun s =>
        let h := sha384 (certChain s slot)
        let sig := aliasSign s [[BitVec.ofNat 8 slot], nonce, h, measSummary s]
        spdmSend (drew s 1) t (.challengeAuth slot h (measSummary s) (sig.take 96) (sig.drop 96))))))

/-- GET_MEASUREMENTS: index 0 counts them, 0xFF asks for all, 1-10 and 16-27 for one. -/
def execGetMeasurements (t : Transport) (index : Byte) (sign : Bool) (nonce : Bytes) (s : State) : Out :=
  whenRunning s (fun s => spdmAsk s t [[0xE0], [index, if sign then 1 else 0], nonce] (fun s => spdmReady s t (fun s =>
    let i := index.toNat
    let bs := if i = 0 then [] else if i = 0xFF then (measured s).map blockOf else ((measured s).filter (fun x => x.1 == i)).map blockOf
    if s.lc.grant &&& invasiveMask ≠ 0 ∨ s.pilot.assignClosed then spdmRefuse s t .unspecified
    else if i ≠ 0 ∧ i ≠ 0xFF ∧ !((1 ≤ i ∧ i ≤ 10) ∨ (16 ≤ i ∧ i ≤ 27)) then spdmRefuse s t .unsupportedRequest
    else if i ≠ 0 ∧ i ≠ 0xFF ∧ bs.isEmpty then spdmRefuse s t .invalidRequest
    else if sign then aliasUse s t (fun s =>
      let sig := aliasSign s ([[index], nonce] ++ bs.map (fun b => BitVec.ofNat 8 b.index :: b.value))
      spdmSend (drew s 1) t (.measurements (measured s).length bs (sig.take 96) (sig.drop 96)))
    else spdmSend s t (.measurements (measured s).length bs [] []))))

/-- Any other request: ERROR UnsupportedRequest (R256). -/
def execSpdmUnsupportedRequest (t : Transport) (code : Byte) (s : State) : Out :=
  whenRunning s (fun s => spdmAsk s t [[code]] (fun s =>
    if code ∈ [0x84, 0xE1, 0x81, 0x82, 0x83, 0xE0, 0xE3] then s else spdmRefuse s t .unsupportedRequest))

end Sys2Proof.Machine
end

