-- ==== Sys2Proof/Machine/PierTables.lean ====
section
/-! DEFINITION. What a lane is and may do, the Piers' window and binding tables, the key cache and its misses (10), and
the commands and fills that reach a lane at a line boundary (01). -/

namespace Sys2Proof.Machine

def State.pier (s : State) (n : Nat) : PierSt := tget pierInit s.piers n
def State.setPier (s : State) (n : Nat) (x : PierSt) : State := { s with piers := tset s.piers n x }
def State.pgroup (s : State) (g : Nat) : PierGroup := tget pierGroupInit s.pgroups g
def State.setPgroup (s : State) (g : Nat) (x : PierGroup) : State := { s with pgroups := tset s.pgroups g x }
def modPier (s : State) (n : Nat) (f : PierSt → PierSt) : State := s.setPier n (f (s.pier n))

/-- The Piers of a group (R106). -/
def groupPiers (g : Nat) : List Nat :=
  if g < 8 then (List.range 17).map (17 * g + ·) else if g = 8 then (List.range 18).map (136 + ·) else []

/-- The Piers a register write reaches. -/
def targetPiers : PierTarget → List Nat
  | .pier n => if n < 154 then [n] else []
  | .group g => groupPiers g
  | .all => List.range 154

/-! ### Service (R32, R108, R132, R90) -/

/-- The channel, port or link a lane serves: its own, that of the lane it covers, or none for an idle spare. -/
def homeOf (s : State) (ix : Nat) : Option Nat :=
  match tfind s.cover ix with
  | some h => some h
  | none => if isSpare ix then none else some ix

/-- The island runs and passes traffic: powered, tested, loaded, unparked, in service, with Pilot not halted and the
test chain not in control. -/
def laneUp (s : State) (ix : Nat) : Bool :=
  let x := tget islandInit s.isl ix
  accepts s && s.power.domUp.getLsbD (domainOf (islandAt ix)) && x.test == .passed && x.ucOk && !x.parked && x.pll &&
    x.service == .inService && s.pilot.phase != .halted && !s.pins.boundaryControls

/-- A lane that carries a channel, port or link now. -/
def laneServes (s : State) (ix : Nat) : Bool := laneUp s ix && (homeOf s ix).isSome

/-- Every channel of a stack has a lane in service (R34, R117). -/
def stackUp (s : State) (k : Nat) : Bool :=
  s.pilot.stackMap.getLsbD k && (List.range 16).all (fun c => laneServes s (servedBy s (17 * k + c)))

/-! ### Tables (R340, R342, R343, R369) -/

/-- The stack of a Tier-1 Pier, and the ports whose tables a Tier-2 Pier holds. -/
def holdsPort (n p : Nat) : Bool := decide (136 ≤ n) && (decide (n ≥ 152) || decide (n = 136 + p))

/-- Number of a window entry in a Pier's table, if the Pier holds it. -/
def winKey (n port index : Nat) : Option Nat :=
  if n < 136 then (if port = 0 then some index else none)
  else if index < 256 ∧ holdsPort n port then some (256 * port + index) else none

/-- A Boarding entry is accepted only on the Piers of stack 0, in entries 1,020-1,023, within the staging region (R342). -/
def boardEntryOk (n index : Nat) (e : WinEntry) : Bool :=
  decide (n < 17) && decide (1020 ≤ index ∧ index < 1024) && decide (49136 ≤ e.base ∧ e.base + e.size ≤ 49152)

/-- An empty window entry. -/
def winNone : WinEntry := { base := 0, size := 0, board := false, site := 0, readOnly := false, berth := 0 }

/-- An entry written to a staged table; BOARD forces READ_ONLY. -/
def stageWin (x : PierSt) (key : Nat) (e : WinEntry) : PierSt :=
  if e = winNone then { x with winStaged := tdel x.winStaged key }
  else { x with winStaged := tset x.winStaged key { e with readOnly := e.readOnly || e.board } }

/-- What a staged window table gives when it takes effect: a size of 0 empties an entry, and a Boarding entry that R342
does not accept is none. -/
def winApplied (n : Nat) (t : Tbl WinEntry) : Tbl WinEntry :=
  t.filter (fun e => e.2.size != 0 && (!e.2.board || boardEntryOk n e.1 e.2))

/-- The codes that can be bound (R335). -/
def bindable (i : Nat) : Bool := decide (i < 12) || decide (0x18 ≤ i ∧ i ≤ 0x20F)

/-- The initiator codes of a berth's sites and Ferry channels (R312). -/
def berthCodes (b : Berth) : List Nat :=
  ((List.range 12).filter (fun k => b.sites.getLsbD k)) ++ (List.range b.ferryCount).map (fun i => 0x10 + b.ferryBase + i)

/-- The first entry of a table from `lo`, below `lo + n`, that is empty. -/
def freeEntry (t : Tbl WinEntry) (lo n : Nat) : Option Nat :=
  ((List.range n).map (lo + ·)).find? (fun k => (tget winNone t k).size == 0)

/-- A berth's windows of one unit put into a staged table, each in the first empty entry. -/
def addWindows (x : PierSt) (lo n berth : Nat) (ws : List Window) : PierSt :=
  ws.foldl (fun x w => match freeEntry x.winStaged lo n with
    | some k => { x with winStaged := tset x.winStaged k { base := w.base, size := w.size, board := false, site := 0,
                                                           readOnly := w.readOnly, berth := berth } }
    | none => x) x

/-- Pilot's staging of a berth's tables on one Pier: what they held of the berth goes, and the windows and codes given
come in. Stack 0 keeps entries 1,020-1,023 for the Boarding agent (R311, R342). -/
def stageBerth (x : PierSt) (n berth : Nat) (t1 t2 : List Window) (codes : List Nat) : PierSt :=
  let x1 := { x with winStaged := x.winStaged.filter (fun e => e.2.board || e.2.berth != berth)
                     bindStaged := x.bindStaged.filter (fun e => e.2 != berth) }
  let x2 := if n < 136 then addWindows x1 0 (if n / 17 = 0 then 1020 else 1024) berth (t1.filter (fun w => w.unit == n / 17))
    else (List.range 16).foldl (fun x p =>
      if holdsPort n p then addWindows x (256 * p) 256 berth (t2.filter (fun w => w.unit == p)) else x) x1
  { x2 with bindStaged := codes.foldl (fun t c => tset t c berth) x2.bindStaged }

/-- A COMMIT's drain begins: every line in flight was admitted before it (R343). -/
def drainFrom (x : PierSt) (seq : BitVec 16) : PierSt :=
  { x with drain := x.drain ++ [seq], outs := x.outs.map (fun o => { o with old := o.old + 1 })
           held := x.held.map (fun o => { o with old := o.old + 1 }) }

/-- The staged copy becomes the active one at one boundary, and lines in flight are now old (R343). -/
def applyStaged (x : PierSt) (n : Nat) (seq : BitVec 16) : PierSt :=
  drainFrom { x with win := winApplied n x.winStaged, bind := x.bindStaged, lastSeq := seq, seqSeen := true } seq

/-- The oldest COMMIT whose drain runs has no line left that was admitted before it. -/
def drained (x : PierSt) : Bool :=
  x.outs.all (fun o => decide (o.old < x.drain.length)) && x.held.all (fun o => decide (o.old < x.drain.length))

/-! ### The key cache (R345-R348) -/

/-- The entry a Pier holds for a berth: none on a miss, a fill, or a negative entry. -/
def keyEntry (x : PierSt) (b : Nat) : Option (Option KeyFill) := (x.keys.find? (fun e => e.1 == b)).map (·.2)

/-- An entry that its use moves to the front. -/
def keyTouch (x : PierSt) (b : Nat) : PierSt :=
  { x with keys := x.keys.filter (fun e => e.1 == b) ++ x.keys.filter (fun e => e.1 != b) }

/-- A berth named by a sweep, a Pair cursor or a capture entry of the Pier (R348). -/
def keyNamed (x : PierSt) (b : Nat) : Bool :=
  (match x.sweep with
    | some (sb, _) => sb == b
    | none => false) || x.cursors.any (fun c => c.2.berth == b) || x.capture.any (fun c => c.2.berth == b)

/-- An entry that may not be replaced: pinned, or with a line waiting on it. -/
def keyHeld (x : PierSt) (b : Nat) : Bool := keyNamed x b || x.missQ.any (fun q => tfind x.bind q.line.init == some b)

/-- The distinct berths a Pier has pinned; at most 16. -/
def pinned (x : PierSt) : List Nat :=
  (((match x.sweep with
    | some (sb, _) => [sb]
    | none => []) ++ x.cursors.map (fun c => c.2.berth) ++ x.capture.map (fun c => c.2.berth))).eraseDups

/-- A pin for a berth can be taken. -/
def canPin (x : PierSt) (b : Nat) : Bool := (pinned x).contains b || decide ((pinned x).length < 16)

/-- A fill put in front; at 64 entries the least recently used one that may be replaced goes: of the negative entries, which stay
until an invalidation (R347), only where every other one is held (log entry 143). -/
def keyInsert (x : PierSt) (b : Nat) (f : Option KeyFill) : PierSt :=
  let rest := x.keys.filter (fun e => e.1 != b)
  let rest' := if rest.length < 64 then rest
    else
      let free := rest.reverse.filter (fun e => !keyHeld x e.1)
      match free.find? (fun e => e.2.isSome), free.head? with
      | some v, _ => rest.filter (fun e => e.1 != v.1)
      | none, some v => rest.filter (fun e => e.1 != v.1)
      | none, none => rest.dropLast
  { x with keys := (b, f) :: rest' }

/-- A fill is usable if the vault filled it with OPEN set and UNUSABLE clear. -/
def keyUsable (f : KeyFill) : Bool := f.flags.getLsbD 0 && !f.flags.getLsbD 6

/-- The generation that writes use. -/
def curGen (f : KeyFill) : Bool := f.flags.getLsbD 1

/-- The line keys of a generation. -/
def genKeys (f : KeyFill) (g : Bool) : Option Bytes := if g then f.gen1 else f.gen0

/-! ### Counters and errors -/

/-- PIER_CNT_i, saturating. -/
def pierCount (x : PierSt) (i : Nat) : PierSt := { x with counts := tmod 0 x.counts i (fun v => min (v + 1) 0xFFFFFFFF) }

/-- A PIER_ERR bit set. -/
def pierErr (x : PierSt) (i : Nat) : PierSt := { x with err := x.err ||| (1#7 <<< i) }

end Sys2Proof.Machine
end

