-- ==== Sys2Proof/Machine/Sites.lean ====
section
/-! DEFINITION. Where a chiplet site stands in Boarding (R120, R122), its read-only window on the staging region (R117,
R342), and its failure. -/

namespace Sys2Proof.Machine

/-- A step as ARG1 of SITE_FAIL codes it (R566): 1-6 for a-f. -/
def stepCode : SiteStep → Nat
  | .a => 1
  | .b => 2
  | .c => 3
  | .d => 4
  | .e => 5
  | _ => 6

/-- The site is in one of the steps a to e. -/
def siteBusy (x : Site) : Bool :=
  match x.step with
  | .idle => false
  | .boarded => false
  | .failed => false
  | _ => true

/-- A Boarding window given to a site in entry 1,020 + (k mod 4) of the Piers of stack 0, or withdrawn (R342). -/
def setBoardWindow (s : State) (k : Nat) (e : Option WinEntry) : State :=
  (List.range 17).foldl (fun s n => modPier s n (fun x =>
    let put (t : Tbl WinEntry) : Tbl WinEntry :=
      match e with
      | some w => tset t (1020 + k % 4) w
      | none => if (tfind t (1020 + k % 4)).any (fun w => w.site == k) then tdel t (1020 + k % 4) else t
    { x with win := put x.win, winStaged := put x.winStaged })) s

/-! ### The sideband (R91) -/

/-- The code and fields of a Boarding message; its bytes are `Config.siteMessage`'s but for a SEND's, which are the buffer's. -/
def siteFields : SiteMsg → List Bytes
  | .getVersion => [[0x01]]
  | .getCapabilities d m c => [[0x09], toLe 4 d, toLe 4 m, [BitVec.ofNat 8 (b2n c)]]
  | .negotiateAlgorithms h a => [[0x0A], toLe 4 h, toLe 4 a]
  | .getDigests => [[0x0B]]
  | .getCertificate slot => [[0x0C, BitVec.ofNat 8 slot]]
  | .challenge => [[0x02]]
  | .load addr length digest => [[0x03], toLe 8 addr, toLe 4 length, digest]
  | .getMeasurements => [[0x04]]
  | .wipe => [[0x05]]
  | .selfTest id => [[0x06], toLe 4 id.toNat]
  | .raw msg => [[0x07], msg]

def siteBytes (m : SiteMsg) : Bytes :=
  match m with
  | .raw msg => msg
  | _ => Config.siteMessage (siteFields m)

/-- A message to a site: the agent splits it into vendor-defined sideband messages with Tvedgetex's identifier and at most 64 B
of payload each (R91). -/
def sendSide (s : State) (k : Nat) (e : Emission) (b : Bytes) : State :=
  (List.range ((b.length + 63) / 64)).foldl (fun s i => emit s (.sidebandPart k Config.sidebandId (slice b (64 * i) 64))) (emit s e)

def sendSite (s : State) (k : Nat) (m : SiteMsg) : State := sendSide s k (.sideband k m) (siteBytes m)

/-- The SPDM requests of a step of R120, in their order (R256): sizes of 8,192 B and no CHUNK, and of R83's algorithms SHA-384 and ECDSA
P-384 by SPDM's numbers (PRESUMED). The answers of a step come back in one row (DESIGN CHOICE, log entry 183). -/
def stepAsks : SiteStep → List SiteMsg
  | .a => [.getVersion, .getCapabilities 8192 8192 false, .negotiateAlgorithms 0x02 0x80]
  | .b => [.getDigests, .getCertificate 0, .challenge]
  | .e => [.getMeasurements]
  | _ => []

def sendAsks (s : State) (k : Nat) (step : SiteStep) : State := (stepAsks step).foldl (fun s m => sendSite s k m) s

/-- SITE_REBOARD ends (R538): STATUS and the step that failed, or 0. -/
def reboardEnd (s : State) (k : Nat) (status step : Byte) : State :=
  let x := s.site k
  if x.reboard then
    let s1 := s.setSite k { x with reboard := false, answer := false }
    let s2 := { s1 with board := { s1.board with slot := none } }
    if x.answer then reply s2 .pf0 0x14 [status, step, 0, 0] else s2
  else s

/-- A site's claim on its image area ends: it has acknowledged its LOAD, or failed and will not (DESIGN CHOICE, log entry
140). An area that no site waits for is released (R118). -/
def areaAcked (s : State) (k : Nat) : State :=
  let cut := s.board.areas.map (fun a => (a.1, { a.2 with due := a.2.due.filter (· != k) }))
  { s with board := { s.board with areas := cut.filter (fun a => !a.2.due.isEmpty) } }

/-- A site that has acknowledged its WIPE, or has failed, is off every list of sites that a berth's level waits for (R329): a failed
site serves no berth until it has been wiped (DEDUCED, log entry 155). -/
def siteCleared (s : State) (k : Nat) : State :=
  { s with berths := s.berths.map (fun y => (y.1, { y.2 with owed := y.2.owed &&& ~~~(1#12 <<< k) })) }

/-- A site fails (R122, R317, R486): marked, journalled with its code, its window withdrawn and its measurement gone. -/
def failSite (s : State) (k code : Nat) : State :=
  let x := s.site k
  let s1 := areaAcked ((siteCleared s k).setSite k { x with step := .failed, load := none, awaiting := false, wiping := false }) k
  let s2 := setBoardWindow { s1 with pilot := { s1.pilot with measurements := tdel s1.pilot.measurements (16 + k) } } k none
  reboardEnd (note s2 0x0404 (BitVec.ofNat 32 k) (BitVec.ofNat 32 code)) k 0x04 (BitVec.ofNat 8 code)

end Sys2Proof.Machine
end

