-- ==== Sys2Proof/Machine/PierLine.lean ====
section
/-! DEFINITION. A line through a Pier (10): Bind and Check, the taps, the Tier-1 code, Tier-2 encryption, line MAC and
metadata, and what a read return, a fill or an invalidation leads to. -/

namespace Sys2Proof.Machine

/-! ### Responses -/

/-- A response on the fabric (R339): a refused or poisoned read returns all-zero data. -/
def respond (s : State) (n : Nat) (l : FabricLine) (r : LineResp) (data : Bytes) : State := emit s (.fabric n l.init r data)

/-- The site of an initiator code, 0xFF for none. -/
def siteOfCode (i : Nat) : Nat := if i < 12 then i else 0xFF

def isWrite (l : FabricLine) : Bool := match l.op with
  | .read => false
  | _ => true

/-- A write into the staging region that R118 forbids is journalled, and a site that made it fails Boarding. -/
def stagingAlarm (s : State) (n : Nat) (l : FabricLine) : State :=
  if n < 17 ∧ isWrite l ∧ 49136 ≤ l.line / 16384 ∧ l.line / 16384 < 49152 then
    let s1 := alarm s (.pier n) 0x0507 (BitVec.ofNat 32 l.init) (BitVec.ofNat 32 (siteOfCode l.init))
    if l.init < 12 then failSite s1 l.init (stepCode (s1.site l.init).step) else s1
  else s

/-- A refusal (R341): ACCESS_ERR, REFUSED with berth and cause, and an alarm if REFUSED was clear. -/
def refuse (s : State) (n : Nat) (l : FabricLine) (berth : Nat) (cause : Byte) : State :=
  let x := s.pier n
  let s1 := s.setPier n { pierErr (pierCount x 0) 0 with lastBerth := berth, lastCause := cause }
  let s2 := if x.refuseAlarm && !x.err.getLsbD 0 then alarm s1 (.pier n) 0x0206 (BitVec.ofNat 32 berth) (cause.setWidth 32) else s1
  stagingAlarm (respond s2 n l .accessErr (zeros 64)) n l

/-! ### Taps (R358-R360, R478, R479) -/

/-- The rank of a line in a range, if it lies there (R438). -/
def rangeRank (r : CapRange) (line : Nat) : Option Nat :=
  if line < r.first ∨ r.stride = 0 then none
  else
    let q := (line - r.first) / r.stride
    let m := (line - r.first) % r.stride
    if q < r.runs ∧ m < r.run then some (q * r.run + m) else none

/-- The line of a rank. -/
def rankLine (r : CapRange) (k : Nat) : Nat := r.first + (k / r.run) * r.stride + k % r.run

/-- A home lane holds a line: a Tier-2 port all of its own, a channel those the interleave gives it. -/
def homeHolds (home line : Nat) : Bool := decide (136 ≤ home) || Config.lineChannel line == home % 17

/-- How many of the first `k` lines of a range the lane holds: the coverage bit's place after COV (R438). -/
def rankOn (home : Nat) (r : CapRange) (k : Nat) : Nat :=
  if 136 ≤ home then k else ((List.range k).filter (fun i => homeHolds home (rankLine r i))).length

/-- Every coverage bit of a range on the lane is set. -/
def rangeFull (x : PierSt) (home : Nat) (r : CapRange) : Bool :=
  (List.range (rankOn home r (r.run * r.runs))).all (fun i => x.coverage.contains (r.cov + i))

/-- A Basket line, by slice and number, is one of a range's area; a captured line goes to one. -/
def rangeHas (r : CapRange) (p : Nat × Nat) : Bool := p.1 == r.slice && decide (r.area ≤ p.2 ∧ p.2 < r.area + r.run * r.runs)
def rangeHolds (r : CapRange) (c : CapLine) : Bool := c.places.any (rangeHas r)

/-- The captured lines without some of the places they go to; a line with none left leaves. -/
def capDrop (p : Nat × Nat → Bool) (l : List CapLine) : List CapLine :=
  (l.map (fun c => { c with places := c.places.filter (fun q => !p q) })).filter (fun c => !c.places.isEmpty)

/-- A captured line of a range waits in the Pier's buffer for the capture writer (R358). -/
def rangeBuffered (x : PierSt) (r : CapRange) : Bool :=
  x.capBuf.any (rangeHolds r)

def tileOf (r : CapRange) : TileRef := { vf := r.vf, declId := r.declId, tag := r.tag, result := r.result }

/-- The entries that a line of a berth concerns: operands on reads, results on writes, from a site. -/
def tapEntries (x : PierSt) (l : FabricLine) (b : Nat) : List CapEntry :=
  if l.init < 12 then (x.capture.map (·.2)).filter (fun e => e.berth == b && (e.result == isWrite l)) else []

/-- The ranges of an entry, by number. -/
def entryRanges (x : PierSt) (e : CapEntry) : List CapRange :=
  ((List.range e.count).map (e.first + ·)).filterMap (fun i => tfind x.ranges i)

/-- The ranges of an entry that hold the line, with its rank in each and the coverage bit. -/
def entryHits (x : PierSt) (home line : Nat) (e : CapEntry) : List (CapRange × Nat × Nat) :=
  (entryRanges x e).filterMap (fun r => (rangeRank r line).map (fun k => (r, k, r.cov + rankOn home r k)))

/-- Those of all entries that the line concerns. -/
def tapHits (x : PierSt) (home : Nat) (l : FabricLine) (b : Nat) : List (CapRange × Nat × Nat) :=
  (tapEntries x l b).flatMap (entryHits x home l.line)

/-- A captured line enters the buffer of 64; a full buffer moves one line first, in a stalled slot (R53). -/
def capPush (s : State) (n : Nat) (c : CapLine) : State :=
  let x := s.pier n
  match x.capBuf with
  | h :: t =>
    if x.capBuf.length ≥ 64 then
      h.places.foldl (fun s p => emit s (.basket p.1 p.2 h.data)) (s.setPier n (pierCount { x with capBuf := t ++ [c] } 5))
    else s.setPier n { x with capBuf := x.capBuf ++ [c] }
  | [] => s.setPier n { x with capBuf := [c] }

/-- An entry's capture of a line: it is copied for the ranges whose bit is clear, in one capture slot, and the bits set; a write to
a covered result line is a rewrite (R438, R441). -/
def captureEntry (s : State) (n : Nat) (hits : List (CapRange × Nat × Nat)) (plain : Bytes) : State :=
  let x := s.pier n
  let fresh := hits.filter (fun h => !x.coverage.contains h.2.2)
  let again := hits.filter (fun h => x.coverage.contains h.2.2 && h.1.result)
  let s1 := { s with reports := { s.reports with rewritten := s.reports.rewritten ++ again.map (fun h => tileOf h.1) } }
  if fresh.isEmpty then s1
  else
    capPush (s1.setPier n { pierCount x 4 with coverage := x.coverage ++ fresh.map (·.2.2) }) n
      { places := fresh.map (fun h => (h.1.slice, h.1.area + h.2.1)), data := plain }

/-- The capture tap (R358). -/
def captureTap (s : State) (n home : Nat) (l : FabricLine) (b : Nat) (plain : Bytes) : State :=
  (tapEntries (s.pier n) l b).foldl (fun s e => captureEntry s n (entryHits (s.pier n) home l.line e) plain) s

/-- A line of a capture entry that returned POISON is lost (R359). -/
def captureLost (s : State) (n home : Nat) (l : FabricLine) (b : Nat) : State :=
  let hs := (tapHits (s.pier n) home l b).filter (fun h => !(s.pier n).coverage.contains h.2.2)
  if hs.isEmpty then s
  else
    let s1 := s.setPier n (pierErr (s.pier n) 5)
    { s1 with reports := { s1.reports with lost := s1.reports.lost ++ hs.map (fun h => tileOf h.1) } }

/-- Where a region's line j lies: its home lane and line number. -/
def regionLine (c : Cursor) (j : Nat) : Nat × Nat := Config.fabricLine (c.base / 64 + j)

/-- The next line of a region, from `pos` up, that a lane holds; the region's length if there is none. -/
def cursorNext (c : Cursor) (home pos : Nat) : Nat :=
  match ((List.range (c.size / 64 - pos)).map (pos + ·)).find? (fun j => (regionLine c j).1 == home) with
  | some j => j
  | none => c.size / 64

/-- The contribution of line j (R479). -/
def pairTerm (key : Bytes) (c : Cursor) (j : Nat) (plain : Bytes) : BitVec 128 :=
  BitVec.ofNat 128 (beNat (cmac key (toBe 4 c.region.toNat ++ toBe 4 j ++ toBe 8 c.size ++ plain)))

/-- A line at a cursor is added and the cursor advances (R360). -/
def cursorAdd (c : Cursor) (home : Nat) (key plain : Bytes) : Cursor :=
  { c with sum := c.sum + pairTerm key c c.pos plain, pos := cursorNext c home (c.pos + 1) }

/-- The line lies in a cursor's region on this lane. -/
def inRegion (c : Cursor) (home line : Nat) : Bool :=
  (List.range (c.size / 64)).any (fun j => regionLine c j == (home, line))

/-- The Pair tap of a read. -/
def pairTap (s : State) (n home line b : Nat) (key : Option KeyFill) (plain : Bytes) : State :=
  match (key.map (·.pair)).join with
  | none => s
  | some k => modPier s n (fun x => { x with cursors := x.cursors.map (fun c =>
      if c.2.berth == b && !c.2.done && regionLine c.2 c.2.pos == (home, line) && decide (c.2.pos < c.2.size / 64) then
        (c.1, cursorAdd c.2 home k plain) else c) })

/-- A write or a poisoned line of a region under an open point spoils its digest (R478). -/
def pairSpoil (s : State) (n home line b : Nat) (status : Byte) : State :=
  let bad := (s.pier n).cursors.filter (fun c => c.2.berth == b && inRegion c.2 home line)
  { s with reports := { s.reports with pairBad := s.reports.pairBad ++ bad.map (fun c => (b, c.2.point, status)) } }

/-! ### Tier 2: metadata, encryption and MAC (R352-R356) -/

/-- The tweak of a line (R353). -/
def lineTweak (p b : Nat) (g : Bool) (line : Nat) : Bytes :=
  toLe 16 (line % 2 ^ 31 + p * 2 ^ 32 + b * 2 ^ 40 + b2n g * 2 ^ 56)

/-- Ciphertext and plaintext of a line under 96 bytes of line keys. -/
def lineEnc (k : Bytes) (p b : Nat) (g : Bool) (line : Nat) (plain : Bytes) : Bytes :=
  xtsEnc (slice k 0 32) (slice k 32 32) (lineTweak p b g line) plain
def lineDec (k : Bytes) (p b : Nat) (g : Bool) (line : Nat) (ct : Bytes) : Bytes :=
  xtsDec (slice k 0 32) (slice k 32 32) (lineTweak p b g line) ct

/-- The 8-byte tag of a line (R354). -/
def lineTag (k : Bytes) (p b : Nat) (g : Bool) (line : Nat) (ct : Bytes) : Bytes :=
  let mk := slice k 64 32
  let h := BitVec.ofNat 128 (beNat (aesEnc mk (zeros 16)))
  let hd := toBe 2 b ++ [BitVec.ofNat 8 p, if g then 1 else 0] ++ toBe 4 line ++ zeros 8
  (aesEnc mk (toBe 16 (ghash h (hd ++ ct ++ toBe 8 128 ++ toBe 8 512)).toNat)).take 8

/-- A tag as the metadata word stores it, least significant byte first (R352; the tag is read as a big-endian number,
DEDUCED, log entry 22), and the word of a poisoned line. -/
def tagWord (t : Bytes) : Bytes := t.reverse
def poisonWord (t : Bytes) : Bytes := (tagWord t).map (fun b => ~~~b)

/-- The metadata line of a data line, and the word's place in it. -/
def metaLineOf (line : Nat) : Nat := line / 8
def metaWord (m : Bytes) (line : Nat) : Bytes := slice m (8 * (line % 8)) 8
def metaPut (m : Bytes) (line : Nat) (w : Bytes) : Bytes := m.take (8 * (line % 8)) ++ w ++ m.drop (8 * (line % 8) + 8)

/-- The cached metadata line of a data line. -/
def metaFind (x : PierSt) (line : Nat) : Option Bytes := (x.metaCache.find? (fun e => e.1 == metaLineOf line)).map (·.2.1)

/-- The metadata word of a line as Check finds it in the cache (R338). -/
def wordAt (x : PierSt) (line : Nat) : Option Bytes := (metaFind x line).map (metaWord · line)

/-- Reads that bring this metadata line with them bring an older one than the cache has held (R352). -/
def staleReads (x : PierSt) (ml : Nat) : PierSt :=
  { x with outs := x.outs.map (fun o => if metaLineOf o.line.line = ml then { o with stale := true } else o) }

/-- A metadata line put in front of the cache; at 512 the least recently used goes, written back if dirty. -/
def metaInsert (s : State) (n ml : Nat) (m : Bytes) (dirty : Bool) : State :=
  let x := if dirty then staleReads (s.pier n) ml else s.pier n
  let was := (x.metaCache.find? (fun e => e.1 == ml)).any (fun e => e.2.2)
  let rest := x.metaCache.filter (fun e => e.1 != ml)
  match (if rest.length < 512 then none else rest.getLast?) with
  | none => s.setPier n { x with metaCache := (ml, m, dirty || was) :: rest }
  | some v =>
    let s1 := s.setPier n { x with metaCache := (ml, m, dirty || was) :: rest.dropLast }
    if v.2.2 then emit s1 (.metaWrite n v.1 v.2.1) else s1

/-- Every dirty metadata line written back (on PARK and before a sweep reports done). -/
def metaFlush (s : State) (n : Nat) : State :=
  let x := s.pier n
  let d := x.metaCache.filter (fun e => e.2.2)
  let s1 := s.setPier n { x with metaCache := x.metaCache.map (fun e => (e.1, e.2.1, false)) }
  d.foldl (fun s e => emit s (.metaWrite n e.1 e.2.1)) s1

/-- The port a Tier-2 lane's home has. -/
def portNo (home : Nat) : Nat := home - 136

/-- A line written under CUR_GEN: encrypted, its tag into the metadata cache. The metadata line is in hand. -/
def tier2Store (s : State) (n home line b : Nat) (key : KeyFill) (m : Bytes) (plain : Bytes) : State :=
  let g := curGen key
  match genKeys key g with
  | none => s
  | some k =>
    let ct := lineEnc k (portNo home) b g line plain
    let s1 := metaInsert s n (metaLineOf line) (metaPut m line (tagWord (lineTag k (portNo home) b g line ct))) true
    emit s1 (.memWrite n line ct [])

/-- What the metadata word says of a stored line (R355). -/
inductive LineState where
  | clean (g : Bool)
  | poisoned
  | noMatch
  deriving DecidableEq, Repr

def lineState (key : KeyFill) (p b line : Nat) (ct w : Bytes) : LineState :=
  let tag (g : Bool) : Option Bytes := (genKeys key g).map (fun k => lineTag k p b g line ct)
  let eq (g : Bool) : Bool := (tag g).any (fun t => tagWord t == w)
  let eqc (g : Bool) : Bool := (tag g).any (fun t => poisonWord t == w)
  let c := curGen key
  if eq c then .clean c
  else if eq (!c) then .clean (!c)
  else if eqc c || eqc (!c) then .poisoned
  else .noMatch

/-- INTEGRITY of a berth's status (R333). -/
def setIntegrity (s : State) (b : Nat) : State :=
  let y := s.berth b
  let s1 := s.setBerth b { y with integrity := true }
  if y.integrity then s1 else msix s1 (.vf b) 1

/-- A MAC failure (R355) counted, shown and reported: MAC_FAIL, INTEGRITY and an alarm. -/
def macNote (s : State) (n b : Nat) : State :=
  alarm (setIntegrity (s.setPier n (pierErr (pierCount (s.pier n) 3) 3)) b) (.pier n) 0x0205 (BitVec.ofNat 32 n) (BitVec.ofNat 32 b)

/-- The word of a line that fails: the complement of the CUR_GEN tag over the stored ciphertext. -/
def failWord (home line b : Nat) (key : KeyFill) (ct : Bytes) : Option Bytes :=
  (genKeys key (curGen key)).map (fun k => poisonWord (lineTag k (portNo home) b (curGen key) line ct))

/-- A MAC failure of a line whose metadata line is in hand. -/
def macFail (s : State) (n home line b : Nat) (key : KeyFill) (m ct : Bytes) : State :=
  match failWord home line b key ct with
  | some w => metaInsert (macNote s n b) n (metaLineOf line) (metaPut m line w) true
  | none => macNote s n b

/-! ### A line that has passed its checks -/

/-- An access must wait: a read-modify-write or a metadata read is under way for the line, or its MiB is being filled, or
the sweep has locked it. -/
def lineBusy (x : PierSt) (line : Nat) : Bool :=
  x.outs.any (fun o => o.line.line == line && o.use != .toFabric) ||
    (match x.fill with
      | some (m, _) => m == line / 16384
      | none => false)

/-- A line that has passed its checks, with what admitted it. -/
def admitted (l : FabricLine) (b : Option Nat) (key : Option KeyFill) : OutRead :=
  { line := l, berth := b, use := .toFabric, withMeta := false, key := key, old := 0, word := none, stale := false, rewritten := false }

/-- A write to a line has been accepted: its scrub goes, and a read of it that is out returns what stood there before (R350). -/
def lineWritten (x : PierSt) (line : Nat) : PierSt :=
  { x with scrub := x.scrub.filter (fun q => q.1 != line)
           outs := x.outs.map (fun o => if o.line.line = line then { o with rewritten := true } else o) }

/-- A read or write put on the outstanding list. A line whose metadata is in the cache keeps its word from Check. -/
def pushOut (s : State) (n : Nat) (o : OutRead) : State :=
  let s1 := modPier s n (fun x => { x with outs := x.outs ++ [o] })
  let data : Bool := match o.use with
    | .metaOnly => false
    | .metaMark _ => false
    | _ => true
  let s2 := if data then emit s1 (.memRead n o.line.line) else s1
  if o.withMeta then emit s2 (.metaRead n (metaLineOf o.line.line)) else s2

/-- Code and Issue on Tier 1. -/
def tier1Line (s : State) (n home : Nat) (o : OutRead) : State :=
  match o.line.op with
  | .read => pushOut s n o
  | .partialWrite _ => pushOut (modPier s n (lineWritten · o.line.line)) n { o with use := .merge }
  | .write =>
    let plain := padTo 64 o.line.data
    let s1 := match o.berth with
      | some b => pairSpoil (captureTap s n home o.line b plain) n home o.line.line b 0x01
      | none => s
    respond (emit (modPier s1 n (lineWritten · o.line.line)) (.memWrite n o.line.line plain (rsSide plain))) n o.line .ok []

/-- Code and Issue on Tier 2 (R352, R355, R356). -/
def tier2Line (s : State) (n home : Nat) (o : OutRead) (b : Nat) (key : KeyFill) : State :=
  let x := s.pier n
  let l := o.line
  let mib := l.line / 16384
  let out : OutRead := { o with withMeta := (metaFind x l.line).isNone, word := wordAt x l.line }
  if !x.ready.contains mib then
    match l.op with
    | .read => respond (pairTap (captureTap s n home l b (zeros 64)) n home l.line b (some key) (zeros 64)) n l .ok (zeros 64)
    | _ => s.setPier n { x with held := x.held ++ [o], fill := match x.fill with
        | some f => some f
        | none => some (mib, 0) }
  else
    match l.op with
    | .read => pushOut s n out
    | .partialWrite _ => pushOut (modPier s n (lineWritten · l.line)) n { out with use := .merge }
    | .write =>
      match metaFind x l.line with
      | none => pushOut (modPier s n (lineWritten · l.line)) n { out with use := .metaOnly }
      | some m =>
        let s1 := pairSpoil (captureTap s n home l b (padTo 64 l.data)) n home l.line b 0x01
        respond (tier2Store (modPier s1 n (lineWritten · l.line)) n home l.line b key m (padTo 64 l.data)) n l .ok []

/-- A line that has passed its checks waits for its line to be free, or goes on. -/
def lineGo (s : State) (n home : Nat) (o : OutRead) : State :=
  if lineBusy (s.pier n) o.line.line then modPier s n (fun x => { x with held := x.held ++ [o] })
  else if n < 136 then tier1Line s n home o
  else
    match o.berth, o.key with
    | some b, some k => tier2Line s n home o b k
    | _, _ => s

/-! ### Bind and Check (R337, R340-R342, R346, R347) -/

/-- An MB3-class line (R335). -/
def mb3Class (i : Nat) : Bool := decide (0x10 ≤ i ∧ i ≤ 0x17) || i == 0x300 || i == 0x301

/-- The range an MB3-class line may reach: its stack's Basket slice, and the staging region for writes of Ferry channels
0-7 only. -/
def mb3Ok (n : Nat) (l : FabricLine) : Bool :=
  let mib := l.line / 16384
  decide (n < 136) && decide (48896 ≤ mib ∧ mib < 49152) &&
    !(decide (n < 17) && decide (49136 ≤ mib) && isWrite l && !(decide (0x10 ≤ l.init ∧ l.init ≤ 0x17)))

/-- A write of the capture writer: the line it came from leaves its buffer once it has gone to every area (R358). -/
def capTaken (s : State) (n : Nat) (l : FabricLine) : State :=
  if l.init = 0x300 ∧ isWrite l then
    let area := l.line - 48896 * 16384
    { s with piers := s.piers.map (fun x => (x.1, { x.2 with capBuf := capDrop (· == (n / 17, area)) x.2.capBuf })) }
  else s

/-- A window of a berth holds the line, in the tier's range; the answer says whether it is read-only. -/
def findWindow (x : PierSt) (n home line b : Nat) : Option Bool :=
  let mib := line / 16384
  let lo := if n < 136 then 0 else 256 * portNo home
  let inRange := decide (mib < if n < 136 then 48896 else 131072)
  let hit (e : Nat × WinEntry) : Bool :=
    !e.2.board && e.2.berth == b && decide (e.2.base ≤ mib ∧ mib < e.2.base + e.2.size) &&
      (decide (n < 136) || decide (lo ≤ e.1 ∧ e.1 < lo + 256))
  let ws := x.win.filter hit
  if !inRange ∨ ws.isEmpty then none else some (ws.all (fun e => e.2.readOnly))

/-- The Boarding entries whose range holds an unbound site's line (R342). -/
def boardEntries (x : PierSt) (n : Nat) (l : FabricLine) : List WinEntry :=
  if n < 17 ∧ l.init < 12 then
    (x.win.map (·.2)).filter (fun e => e.board && decide (e.base ≤ l.line / 16384 ∧ l.line / 16384 < e.base + e.size))
  else []

/-- A line of an unbound initiator: a read of the site that an entry names passes, a write into any entry's range is refused
with 0x03, and every other line with 0x01 (R341, R342). -/
def unboundLine (s : State) (n home : Nat) (l : FabricLine) : State :=
  let es := boardEntries (s.pier n) n l
  if isWrite l then refuse s n l 0 (if es.isEmpty then 0x01 else 0x03)
  else if es.any (·.site == l.init) then lineGo s n home (admitted l none none)
  else refuse s n l 0 0x01

/-- Checks 4 and 5, then on. -/
def checkWindow (s : State) (n home : Nat) (l : FabricLine) (b : Nat) (k : KeyFill) : State :=
  match findWindow (s.pier n) n home l.line b with
  | none => refuse s n l b 0x02
  | some ro => if ro && isWrite l then refuse s n l b 0x03 else lineGo s n home (admitted l (some b) (some k))

/-- A miss: the line waits, and the group's vault port is asked unless it has been on this line's account (R346). -/
def missLine (s : State) (n : Nat) (l : FabricLine) (b : Nat) (asked : Option Nat) : State :=
  let x := s.pier n
  let x1 := { x with missQ := x.missQ ++ [{ line := l, asked := some b }] }
  if asked = some b then s.setPier n x1 else vaultMiss (s.setPier n (pierCount x1 6)) (.pier n) b

/-- Bind and Check of a line (R341). -/
def checkLine (s : State) (n : Nat) (l : FabricLine) (asked : Option Nat) : State :=
  let x := s.pier n
  match homeOf s n with
  | none => refuse s n l 0 0x05
  | some home =>
    if !laneUp s n then refuse s n l 0 0x05
    else if mb3Class l.init then
      if mb3Ok n l then lineGo (capTaken s n l) n home (admitted l none none) else refuse s n l 0 0x06
    else if !bindable l.init then refuse s n l 0 0x01
    else
      match tfind x.bind l.init with
      | none => unboundLine s n home l
      | some b =>
        match keyEntry x b with
        | some (some k) =>
          if keyUsable k then checkWindow (s.setPier n (keyTouch x b)) n home l b k else refuse s n l b 0x04
        | some none => refuse s n l b 0x04
        | none => missLine s n l b asked

/-- Lines of an initiator wait behind one of its lines that waits (R346). -/
def checkTurn (s : State) (n : Nat) (q : MissLine) : State :=
  if (s.pier n).missQ.any (fun w => w.line.init == q.line.init) then modPier s n (fun x => { x with missQ := x.missQ ++ [q] })
  else checkLine s n q.line q.asked

/-- PIER_LINE: with the miss queue of 32 full the Pier withholds its grant and takes no line (R346); a lane that drains to park
takes none into service (R369). -/
def pierLine (s : State) (n : Nat) (l : FabricLine) : State :=
  if n ≥ 154 ∨ 32 ≤ (s.pier n).missQ.length then s
  else if (s.pier n).park then refuse s n l 0 0x05
  else checkTurn s n { line := l, asked := none }

def execPierLine (pier : Nat) (l : FabricLine) (s : State) : Out := whenRunning s (pierLine · pier l)

/-- Lines that waited run their checks again. -/
def retryMisses (s : State) (n : Nat) : State :=
  (s.pier n).missQ.foldl (fun s q => checkTurn s n q) (modPier s n (fun x => { x with missQ := [] }))

/-- Lines held for a line or a MiB that is now free: they complete under what admitted them (R343). -/
def retryHeld (s : State) (n : Nat) : State :=
  match homeOf s n with
  | some home => (s.pier n).held.foldl (fun s o => lineGo s n home o) (modPier s n (fun x => { x with held := [] }))
  | none => s

/-- PIER_CTL.PARK holds and the lane has drained: dirty metadata is written back and the lane parks (R369). -/
def parkDrained (s : State) (n : Nat) : State :=
  let x := s.pier n
  if x.park && x.outs.isEmpty && x.held.isEmpty && x.missQ.isEmpty then
    let t := metaFlush s n
    t.setIsland (islandAt n) { tget islandInit t.isl n with parked := true }
  else s

/-! ### Returns (R349-R351, R355) -/

/-- The enabled bytes of a partial write over a line. -/
def mergeBytes (old new : Bytes) (en : BitVec 64) : Bytes :=
  (List.range 64).map (fun i => if en.getLsbD i then byteAt new i else byteAt old i)

/-- Plaintext of a read reaches the fabric or its merge. -/
def deliver (s : State) (n home : Nat) (o : OutRead) (plain : Bytes) (m : Bytes) : State :=
  match o.use, o.line.op with
  | .toFabric, _ =>
    let s1 := match o.berth with
      | some b => pairTap (captureTap s n home o.line b plain) n home o.line.line b o.key plain
      | none => s
    respond s1 n o.line .ok plain
  | _, .partialWrite en =>
    let merged := mergeBytes plain (padTo 64 o.line.data) en
    let s1 := match o.berth with
      | some b => pairSpoil (captureTap s n home o.line b merged) n home o.line.line b 0x01
      | none => s
    let s2 := if n < 136 then emit s1 (.memWrite n o.line.line merged (rsSide merged))
      else
        match o.berth, o.key with
        | some b, some k => tier2Store s1 n home o.line.line b k m merged
        | _, _ => s1
    respond s2 n o.line .ok []
  | _, _ => s

/-- POISON: neither tap takes the line, and whoever owns it hears of that (R339, R359, R478). -/
def poisoned (s : State) (n home : Nat) (o : OutRead) : State :=
  let s1 := match o.berth with
    | some b => pairSpoil (captureLost s n home o.line b) n home o.line.line b 0x02
    | none => s
  respond s1 n o.line .poison (zeros 64)

/-- A corrected line (R350): counted, and queued for its write-back where the queue has room and no write to it was accepted. -/
def rsCorrected (s : State) (n line : Nat) (p : Bytes) (scrub : Bool) : State :=
  let x := pierErr (pierCount (s.pier n) 1) 1
  s.setPier n (if scrub ∧ x.scrub.length < 16 then { x with scrub := x.scrub ++ [(line, p)] } else x)

/-- An uncorrectable line (R350): counted, shown and reported. -/
def rsLost (s : State) (n berth : Nat) : State :=
  alarm (s.setPier n (pierErr (pierCount (s.pier n) 2) 2)) (.pier n) 0x0204 (BitVec.ofNat 32 n) (BitVec.ofNat 32 berth)

/-- A Tier-1 return (R350, R351). -/
def tier1Return (s : State) (n home : Nat) (o : OutRead) (stored side : Bytes) : State :=
  match rsDecode stored side with
  | .clean p => deliver s n home o p []
  | .corrected p => deliver (rsCorrected s n o.line.line p (o.use == .toFabric && !o.rewritten)) n home o p []
  | .uncorrectable => poisoned (rsLost s n (o.berth.getD 0)) n home o

/-- The MAC failure of a read: the word is written back unless a write has replaced the line; a metadata line that is no longer
there is read again for it. -/
def macReturn (s : State) (n home b : Nat) (o : OutRead) (key : KeyFill) (m : Option Bytes) (ct : Bytes) : State :=
  let s1 := macNote s n b
  match o.rewritten, failWord home o.line.line b key ct, m with
  | false, some w, some m => metaInsert s1 n (metaLineOf o.line.line) (metaPut m o.line.line w) true
  | false, some w, none => pushOut s1 n { o with use := .metaMark w, withMeta := true, stale := false }
  | _, _, _ => s1

/-- A Tier-2 return (R352, R355). The line is judged by the word that Check found, or by the one that came with it; what changes a
metadata line needs the newest one, and reads it again where the cache has lost it. -/
def tier2Return (s : State) (n home : Nat) (o : OutRead) (stored side : Bytes) : State :=
  match o.berth, o.key with
  | some b, some k =>
    let line := o.line.line
    let p := portNo home
    let ct := padTo 64 stored
    let again := pushOut s n { o with withMeta := true, stale := false, word := none }
    let m : Option Bytes := match metaFind (s.pier n) line with
      | some m => some m
      | none => if o.withMeta && !o.stale then some (padTo 64 side) else none
    let s0 := match m with
      | some m => if (metaFind (s.pier n) line).isSome then s else metaInsert s n (metaLineOf line) m false
      | none => s
    let judged (word : Bytes) : State :=
      match lineState k p b line ct word with
      | .clean g => deliver s0 n home o (lineDec ((genKeys k g).getD []) p b g line ct) (m.getD (zeros 64))
      | .poisoned => poisoned s0 n home o
      | .noMatch => poisoned (macReturn s0 n home b o k m ct) n home o
    match o.use, m with
    | .toFabric, _ => judged (match o.word with
        | some w => w
        | none => metaWord (padTo 64 side) line)
    | _, none => again
    | .merge, some m => judged (metaWord m line)
    | .metaMark w, some m => metaInsert s0 n (metaLineOf line) (metaPut m line w) true
    | .metaOnly, some m =>
      let s1 := pairSpoil (captureTap s0 n home o.line b (padTo 64 o.line.data)) n home line b 0x01
      respond (tier2Store s1 n home line b k m (padTo 64 o.line.data)) n o.line .ok []
  | _, _ => s

/-- PIER_READ_RETURN: the oldest outstanding read takes its data, with the 8 sideband bytes on Tier 1 or the metadata
line on Tier 2; lines that waited for it go on. -/
def readReturn (s : State) (n : Nat) (stored side : Bytes) : State :=
  match (s.pier n).outs, homeOf s n with
  | o :: rest, some home =>
    let s1 := modPier s n (fun x => { x with outs := rest })
    let s2 := if n < 136 then tier1Return s1 n home o stored side else tier2Return s1 n home o stored side
    parkDrained (if o.use = .toFabric then s2 else retryHeld s2 n) n
  | _, _ => s

def execPierReadReturn (pier : Nat) (stored side : Bytes) (s : State) : Out := whenMemory s (readReturn · pier stored side)

end Sys2Proof.Machine
end

