-- ==== Sys2Proof/Machine/PierWork.lean ====
section
/-! DEFINITION. What a Pier does beside its lines (10): fills and invalidations, COMMIT, scrub writes, zeroing,
uninitialised fills, the rotation sweep, completion reads of a Pair cursor, and parking. -/

namespace Sys2Proof.Machine

/-! ### Keys reach a Pier (R346-R348) -/

/-- A fill, or the vault's refusal of one, and the lines that waited for it. -/
def pierFill (s : State) (n entry : Nat) (f : Option KeyFill) : State :=
  let x := keyInsert (s.pier n) entry f
  parkDrained (retryMisses (s.setPier n (if f.isNone then pierErr x 4 else x)) n) n

/-- An invalidation drops its entry; a pinned one is fetched again at once. -/
def pierInvalidate (s : State) (n : Nat) (which : Nat → Bool) : State :=
  let x := s.pier n
  let again := (pinned x).filter which
  again.foldl (fun s b => vaultMiss s (.pier n) b) (s.setPier n { x with keys := x.keys.filter (fun e => !which e.1) })

/-! ### COMMIT (R343, R344, R371) -/

/-- A Pier acknowledges: its group's bit sets if the COMMIT is the block's last, and Pilot will hear of it. A spare acknowledges for
the lane it covers too (R31). -/
def pierAck (s : State) (n : Nat) (seq : BitVec 16) : State :=
  let g := pierGroup n
  let x := s.pgroup g
  let who := (n :: (homeOf s n).toList).eraseDups
  let bit (k : Nat) : BitVec 18 := 1#18 <<< (if g < 8 then k - 17 * g else k - 136)
  let s1 := if seq = x.ackSeq then
      s.setPgroup g { x with ack := (who.filter (x.waiting.contains ·)).foldl (fun v k => v ||| bit k) x.ack
                             waiting := x.waiting.filter (fun k => !who.contains k) }
    else s
  { s1 with lanes := { s1.lanes with acks := s1.lanes.acks ++ who.map (fun k => (k, seq)) } }

/-- A COMMIT at a line boundary: one already applied is acknowledged again; else the staged copy takes effect and the
acknowledgement follows the lines admitted before it. -/
def pierCommit (s : State) (n : Nat) (seq : BitVec 16) : State :=
  let x := s.pier n
  if x.seqSeen && x.lastSeq == seq then (if x.drain.contains seq then s else pierAck s n seq)
  else s.setPier n (applyStaged x n seq)

/-- PIER_COMMIT_DRAIN_DONE (R343): the oldest COMMIT whose lines have all completed is acknowledged; not while lines that a Darn
moved here wait under the same SEQ, which acknowledge it when they complete. -/
def execPierCommitDrainDone (pier : Nat) (s : State) : Out :=
  whenRunning s (fun s =>
    let x := s.pier pier
    match x.drain with
    | seq :: rest =>
      if drained x then
        let s1 := s.setPier pier { x with drain := rest }
        if rest.contains seq then s1 else pierAck s1 pier seq
      else s
    | [] => s)

/-- The Piers of a list that a command can reach: powered and not failed. -/
def reachable (s : State) (l : List Nat) : List Nat := l.filter (holdsKeys s)

/-- A command put on the channels of these islands. -/
def sendCmd (s : State) (l : List Nat) (c : LaneCmd) : State :=
  { s with lanes := { s.lanes with cmds := l.foldl (fun t i => tmod [] t i (· ++ [c])) s.lanes.cmds } }

/-- PIER_COMMIT.GO with SEQ (R343, R369, R371): a write through a group block clears its PGRP_ACK. -/
def pierCommitGo (s : State) (t : PierTarget) (seq : BitVec 16) : State :=
  let ps := reachable s (targetPiers t)
  let s1 := sendCmd s ps (.commit seq)
  match t with
  | .group g => s1.setPgroup g { s1.pgroup g with ack := 0, ackSeq := seq, waiting := ps }
  | _ => s1

def execPierCommitGo (t : PierTarget) (seq : BitVec 16) (s : State) : Out := whenCommanded s (pierCommitGo · t seq)

/-! ### Scrubbing, zeroing and fills (R324, R350, R356) -/

/-- PIER_SCRUB_WRITE: the oldest corrected line is written back, once nothing has its line (R350, R351). -/
def execPierScrubWrite (pier : Nat) (s : State) : Out :=
  whenMemory s (fun s =>
    match (s.pier pier).scrub with
    | (line, p) :: rest => if lineBusy (s.pier pier) line then s else emit (modPier s pier (fun x => { x with scrub := rest })) (.memWrite pier line p (rsSide p))
    | [] => s)

/-- PIER_ZERO_CMD.GO (R324, R356); a size of 0, or a zeroing that runs, leaves it without effect. -/
def pierZeroGo (x : PierSt) : PierSt :=
  if x.zeroSize = 0 ∨ x.zero.isSome then x
  else { x with zero := some { base := x.zeroBase.toNat, size := x.zeroSize.toNat, pos := 0 } }

/-- A lane that serves a channel or port starts its zeroing; an idle spare, or a lane out of service, has none to zero. -/
def pierZeroStart (s : State) (n : Nat) : State := if laneServes s n then modPier s n pierZeroGo else s

def execPierZeroGo (t : PierTarget) (s : State) : Out :=
  whenCommanded s (fun s => (targetPiers t).foldl pierZeroStart s)

/-- PIER_ZERO_WRITE: on Tier 1 one zero line of this channel's share, 1,024 lines of each MiB, once no partial write has it (R351);
on Tier 2 the next uninitialised MiB of the range is handed to the fill. -/
def zeroWrite (s : State) (n : Nat) : State :=
  let x := s.pier n
  match x.zero, homeOf s n with
  | some z, some home =>
    if n < 136 then
      if z.pos ≥ 1024 * z.size then s.setPier n { x with zero := none }
      else
        let line := Config.channelLine (home % 17) (1024 * z.base + z.pos)
        let z' := if z.pos + 1 ≥ 1024 * z.size then none else some { z with pos := z.pos + 1 }
        if lineBusy x line then s
        else emit (s.setPier n { lineWritten x line with zero := z' }) (.memWrite n line (zeros 64) (zeros 8))
    else if x.fill.isSome then s
    else if z.pos ≥ z.size then s.setPier n { x with zero := none }
    else
      s.setPier n { x with
        zero := if z.pos + 1 ≥ z.size then none else some { z with pos := z.pos + 1 }
        fill := if x.ready.contains (z.base + z.pos) then none else some (z.base + z.pos, 0) }
  | _, _ => s

def execPierZeroWrite (pier : Nat) (s : State) : Out := whenMemory s (zeroWrite · pier)

/-- MiB marked uninitialised: their bits set, their metadata dropped from the cache, a fill of them ended (R356). -/
def markUninit (x : PierSt) (base size : Nat) : PierSt :=
  let in_ (m : Nat) : Bool := decide (base ≤ m ∧ m < base + size)
  { x with ready := x.ready.filter (fun m => !in_ m)
           metaCache := x.metaCache.filter (fun e => !in_ (e.1 / 2048))
           fill := match x.fill with
             | some (m, i) => if in_ m then none else some (m, i)
             | none => none }

/-- PIER_ZERO_CMD.UNINIT: ignored on Tier 1. Lines that waited for an ended fill go on. -/
def pierUninit (s : State) (n base size : Nat) : State :=
  if n < 136 then s
  else
    let s1 := modPier s n (markUninit · base size)
    if (s.pier n).fill.isSome ∧ (s1.pier n).fill.isNone then parkDrained (retryHeld s1 n) n else s1

def execPierZeroUninit (t : PierTarget) (s : State) : Out :=
  whenCommanded s (fun s => (targetPiers t).foldl (fun s n => pierUninit s n (s.pier n).zeroBase.toNat (s.pier n).zeroSize.toNat) s)

/-- The berth whose window holds a MiB of the lane's port. -/
def mibBerth (x : PierSt) (home mib : Nat) : Option Nat :=
  (x.win.find? (fun e => decide (256 * portNo home ≤ e.1 ∧ e.1 < 256 * portNo home + 256) &&
    decide (e.2.base ≤ mib ∧ mib < e.2.base + e.2.size))).map (·.2.berth)

/-- The oldest write that waits for the fill of a MiB. -/
def fillTrigger (x : PierSt) (mib : Nat) : Option OutRead :=
  x.held.find? (fun o => isWrite o.line && o.line.line / 16384 == mib)

/-- The berth a MiB is filled for: that of the write that waits, which completes under what admitted it (R343), else that of its
window. -/
def fillBerth (x : PierSt) (home mib : Nat) : Option Nat :=
  match (fillTrigger x mib).bind (·.berth) with
  | some b => some b
  | none => mibBerth x home mib

/-- A key with the line keys that writes use. -/
def lineKeyed (k : KeyFill) : Bool := (genKeys k (curGen k)).isSome

/-- The key of a fill: none where it must be asked for; the cached one, or else the one that admitted the waiting write. -/
def fillKey (x : PierSt) (mib b : Nat) : Option (Option KeyFill) :=
  match keyEntry x b with
  | none => none
  | some f => some ((f.toList ++ ((fillTrigger x mib).bind (·.key)).toList).find? lineKeyed)

/-- The place a fill goes on at: the start of its block of eight where the cache has lost the block's metadata line, so that no tag
is left out. -/
def fillAt (x : PierSt) (mib i : Nat) : Nat := if (metaFind x (16384 * mib + i)).isSome then i else i - i % 8

/-- A fill that has no key ends with its MiB still uninitialised: the writes that waited for it are refused with 0x04 (R347), the
other accesses go on. -/
def fillRefused (s : State) (n mib : Nat) : State :=
  let mine (o : OutRead) : Bool := isWrite o.line && o.line.line / 16384 == mib
  let x := s.pier n
  (x.held.filter mine).foldl (fun s o => refuse s n o.line (o.berth.getD 0) 0x04)
    (s.setPier n { x with fill := none, held := x.held.filter (fun o => !mine o) })

/-- UNINIT_FILL_WRITE: one line of encrypted zeros under CUR_GEN with its tag; after the last the bit clears and the
waiting accesses go on. Without the key the Pier asks for it; an MiB that no window holds and no write waits for needs no fill. -/
def fillWrite (s : State) (n : Nat) : State :=
  let x := s.pier n
  match x.fill, homeOf s n with
  | some (mib, i0), some home =>
    let ended (s : State) : State := parkDrained (retryHeld s n) n
    match fillBerth x home mib with
    | none => ended (s.setPier n { x with fill := none })
    | some b =>
      match fillKey x mib b with
      | none => vaultMiss s (.pier n) b
      | some none => ended (fillRefused s n mib)
      | some (some k) =>
        let i := fillAt x mib i0
        let line := 16384 * mib + i
        let s1 := tier2Store s n home line b k ((metaFind x line).getD (zeros 64)) (zeros 64)
        if i + 1 ≥ 16384 then
          ended (modPier s1 n (fun x => { x with fill := none, ready := x.ready ++ [mib] }))
        else modPier s1 n (fun x => { x with fill := some (mib, i + 1) })
  | _, _ => s

def execUninitFillWrite (pier : Nat) (s : State) : Out := whenMemory s (fillWrite · pier)

/-! ### The rotation sweep (R229-R232, R357) -/

/-- The sweep in which a lane takes part, by the port it serves. -/
def sweepOf (s : State) (home : Nat) : Option Nat := (s.vault.sweeps.find? (fun x => x.2.contains home)).map (·.1)

/-- The line at a place of a berth's windows on the port; none past their end. -/
def sweepLine (ws : List WinEntry) : Nat → Option Nat :=
  match ws with
  | [] => fun _ => none
  | w :: rest => fun k => if k < 16384 * w.size then some (16384 * w.base + k) else sweepLine rest (k - 16384 * w.size)

/-- The berth's windows on the port. -/
def sweepWins (x : PierSt) (home b : Nat) : List WinEntry :=
  (x.win.filter (fun e => e.2.berth == b && decide (256 * portNo home ≤ e.1 ∧ e.1 < 256 * portNo home + 256))).map (·.2)

/-- One line swept: an old-generation line is re-encrypted; a line that fails its MAC, or was poisoned, is poisoned under
the new generation. -/
def sweepOne (s : State) (n home line b : Nat) (k : KeyFill) (stored metaLine : Bytes) : State :=
  let m := (metaFind (s.pier n) line).getD (padTo 64 metaLine)
  let p := portNo home
  let ct := padTo 64 stored
  let cur := curGen k
  match lineState k p b line ct (metaWord m line) with
  | .clean g =>
    if g == cur then s else tier2Store s n home line b k m (lineDec ((genKeys k g).getD []) p b g line ct)
  | .poisoned =>
    (match genKeys k cur with
      | some kk => metaInsert s n (metaLineOf line) (metaPut m line (poisonWord (lineTag kk p b cur line ct))) true
      | none => s)
  | .noMatch => macFail s n home line b k m ct

/-- PIER_SWEEP_LINE: the sweep starts, passes one line, or ends with its dirty metadata written back. An uninitialised
MiB is passed over whole, and a line that a partial write has is waited for (R351). -/
def sweepStep (s : State) (n : Nat) (stored metaLine : Bytes) : State :=
  match homeOf s n with
  | none => s
  | some home =>
    let x := s.pier n
    match sweepOf s home with
    | none => s.setPier n { x with sweep := none, sweepDue := false }
    | some b =>
      if x.sweepDue then s
      else
        let pos := match x.sweep with
          | some (sb, p) => if sb = b then p else 0
          | none => 0
        match sweepLine (sweepWins x home b) pos with
        | none =>
          modPier (metaFlush s n) n (fun x => { x with sweep := none, sweepDue := true, sweepBerth := b })
        | some line =>
          if !x.ready.contains (line / 16384) then
            s.setPier n { x with sweep := some (b, pos + (16384 - line % 16384)), sweepDone := false, sweepBerth := b }
          else if lineBusy x line then s
          else
            match keyEntry x b with
            | some (some k) =>
              modPier (sweepOne s n home line b k stored metaLine) n
                (fun x => { x with sweep := some (b, pos + 1), sweepDone := false, sweepBerth := b })
            | _ => vaultMiss (s.setPier n { x with sweep := some (b, pos), sweepDone := false, sweepBerth := b }) (.pier n) b

def execPierSweepLine (pier : Nat) (stored metaLine : Bytes) (s : State) : Out :=
  whenMemory s (fun s => if 136 ≤ pier ∧ pier < 154 then sweepStep s pier stored metaLine else s)

/-- SWEEP_DONE_REPORT (R231): the Pier's report reaches the vault; the last completes the rotation. -/
def execSweepDoneReport (pier : Nat) (s : State) : Out :=
  whenRunning s (fun s =>
    match homeOf s pier with
    | some home =>
      if (s.pier pier).sweepDue then
        sweepReport (modPier s pier (fun x => { x with sweepDue := false, sweepDone := true })) home (s.pier pier).sweepBerth
      else s
    | none => s)

/-! ### Completion reads (R360) -/

/-- A completion read of a line: what it counts and reports, as any read does (R350, R355), and the plaintext if it is good. -/
def completionLine (s : State) (n home line b : Nat) (key : KeyFill) (stored side : Bytes) : State × Option Bytes :=
  if n < 136 then
    match rsDecode stored side with
    | .clean p => (s, some p)
    | .corrected p => (rsCorrected s n line p true, some p)
    | .uncorrectable => (rsLost s n b, none)
  else if !(s.pier n).ready.contains (line / 16384) then (s, some (zeros 64))
  else
    let m := (metaFind (s.pier n) line).getD (padTo 64 side)
    let ct := padTo 64 stored
    match lineState key (portNo home) b line ct (metaWord m line) with
    | .clean g => (s, some (lineDec ((genKeys key g).getD []) (portNo home) b g line ct))
    | .poisoned => (s, none)
    | .noMatch => (macFail s n home line b key m ct, none)

/-- PAIR_COMPLETION_READ: after its point closed, the cursor's next line is read and added; past the last it is DONE. -/
def completionRead (s : State) (n i : Nat) (stored side : Bytes) : State :=
  match tfind (s.pier n).cursors i, homeOf s n with
  | some c, some home =>
    let put (s : State) (c : Cursor) : State := modPier s n (fun x => { x with cursors := tset x.cursors i c })
    if !c.closing ∨ c.done then s
    else if c.pos ≥ c.size / 64 then put s { c with done := true }
    else if lineBusy (s.pier n) (regionLine c c.pos).2 then s
    else
      match keyEntry (s.pier n) c.berth with
      | some (some k) =>
        match completionLine s n home (regionLine c c.pos).2 c.berth k stored side, k.pair with
        | (s, some p), some pk =>
          let c' := cursorAdd c home pk p
          put s { c' with done := decide (c'.pos ≥ c'.size / 64) }
        | (s, _), _ =>
          let c' := { c with pos := cursorNext c home (c.pos + 1) }
          let s1 := { s with reports := { s.reports with pairBad := s.reports.pairBad ++ [(c.berth, c.point, 0x02)] } }
          put s1 { c' with done := decide (c'.pos ≥ c'.size / 64) }
      | _ => vaultMiss s (.pier n) c.berth
  | _, _ => s

def execPairCompletionRead (pier cursor : Nat) (stored side : Bytes) (s : State) : Out :=
  whenMemory s (completionRead · pier cursor stored side)

/-! ### Parking (R108, R111, R369) -/

/-- An island leaves its park, if it can: its microcode is good and its store is then locked (R111). -/
def unpark (s : State) (ix : Nat) : State :=
  let x := tget islandInit s.isl ix
  if x.ucOk && x.test == .passed && s.power.domUp.getLsbD (domainOf (islandAt ix)) then
    s.setIsland (islandAt ix) { x with parked := false, ucLocked := true } else s

def parkIsland (s : State) (ix : Nat) : State :=
  s.setIsland (islandAt ix) { tget islandInit s.isl ix with parked := true }

/-- PIER_CTL.PARK: 1 drains the lane and then parks it, 0 returns it to service. -/
def pierPark (s : State) (n : Nat) (park : Bool) : State :=
  if n ≥ 154 then s
  else
    let s1 := modPier s n (fun x => { x with park := park })
    if park then parkDrained s1 n else unpark s1 n

def execPierPark (pier : Nat) (park : Bool) (s : State) : Out := whenCommanded s (pierPark · pier park)

end Sys2Proof.Machine
end

