-- ==== Sys2Proof/Machine/Boarding.lean ====
section
/-! DEFINITION. Boarding the chiplets (03): waves, the steps of R120, a site boarded alone (R124), and the Boarding
agent's registers for the sites (R127, R128). -/

namespace Sys2Proof.Machine

/-! ### The site table and the staging region (R116, R117, R279) -/

def bootedSite (s : State) (k : Nat) : Bytes := siteEntry (bootedManifest s) k

/-- The part entry of the image a site expects; none for "no image". -/
def siteImage (s : State) (k : Nat) : Option Bytes :=
  let i := leAt (bootedSite s k) 8 1
  if i = 0xFF then none else some (partEntry (bootedManifest s) i)

/-- The image area of a site, 0-3 in half A and 4-7 in half B: a site of the wave that names the same part entry and has a lower
number shares its area; a site boarded alone uses the start of half A. -/
def areaOf (s : State) (k : Nat) : Nat :=
  if (s.site k).reboard then 0
  else
    let i := leAt (bootedSite s k) 8 1
    let owner := ((List.range 12).find? (fun j => j / 4 == k / 4 && decide (j ≤ k) && leAt (bootedSite s j) 8 1 == i)).getD k
    (if k / 4 = 1 then 4 else 0) + owner % 4

/-- The MiB of stack 0 at which an area lies. -/
def areaMib (a : Nat) : Nat := 49136 + 2 * a
def imageMib (s : State) (k : Nat) : Nat := areaMib (areaOf s k)

/-- What Ferry has staged for a site, as measured while it landed (R118). -/
def stagedDigest (s : State) (k : Nat) : Option Bytes :=
  (tfind s.board.areas (areaOf s k)).bind (fun a => if a.due.contains k then a.digest else none)

/-- The requests of a step leave for the site, and its reply is awaited (R128). -/
def askSite (s : State) (k : Nat) (step : SiteStep) : State :=
  sendAsks (s.setSite k { s.site k with step := step, awaiting := true }) k step

/-- Step a begins. -/
def siteStart (s : State) (k : Nat) : State :=
  let s1 := { s with pilot := { s.pilot with measurements := tdel s.pilot.measurements (16 + k) } }
  askSite (s1.setSite k { s1.site k with version := 0, spdm13 := false, kindId := 0, vendor := [], staged := [], record := [],
                                         load := none, wiping := false }) k .a

/-! ### Waves (R115, R128, R130) -/

/-- What the sites' adapters report (R128). A site whose sideband has not trained when its wave begins is marked absent (R91). -/
def siteReports (s : State) (present trained : BitVec 12) : State :=
  (List.range 12).foldl (fun s k => s.setSite k { s.site k with
    present := present.getLsbD k && (trained.getLsbD k || decide (s.board.wave < k / 4))
    sbUp := trained.getLsbD k }) s

/-- A wave begins: those of its sites whose chiplets are present and whose sidebands have trained start. -/
def waveGo (s : State) : State :=
  let w := s.board.wave
  let go := ((List.range 4).map (4 * w + ·)).filter (fun k => (s.site k).present && (s.site k).sbUp)
  milestone (go.foldl siteStart { s with board := { s.board with slot := some go } }) (BitVec.ofNat 8 (0x15 + w))

/-! ### The steps (R120, R121, R254, R259) -/

/-- The highest Boarding version of R121, 0 if none meets it. -/
def boardVersion (s : State) (versions : Byte) (spdm13 : Bool) : Nat :=
  (([3, 2, 1].find? (fun v => versions.getLsbD (v - 1) && decide (minVersion s.fuse 0 ≤ v) && (spdm13 || decide (v ≤ 2))))).getD 0

/-- Index 16 + k, shown while the site is boarded: of the staged digest and of the record held (R254, R255). -/
def siteMeasure (s : State) (k : Nat) : State := takeMeasure s (16 + k) (sha384 ((s.site k).staged ++ (s.site k).record))

/-- Step f: the site is boarded, its window withdrawn and its measurement shown; one that must acknowledge a WIPE is sent it
first (R124). -/
def siteDone (s : State) (k : Nat) : State :=
  let s1 := setBoardWindow s k none
  if (s1.site k).unwiped then
    sendSite (s1.setSite k { s1.site k with awaiting := false, wiping := true }) k .wipe
  else reboardEnd (siteMeasure (s1.setSite k { s1.site k with step := .boarded, awaiting := false }) k) k 0 0

/-- Step c: the kind is checked; an image that has been staged, and measured as the Manifest lists it, is granted through a
window and a LOAD. One that has not landed by then fails the step (DESIGN CHOICE, log entry 140). -/
def siteKind (s : State) (k : Nat) (kind : DWord) (vendor : Bytes) : State :=
  let x := s.site k
  if kind = 0 ∨ kind.toNat ≠ leAt (bootedSite s k) 0 8 then failSite s k 3
  else
    let y := { x with kindId := kind, vendor := vendor }
    match siteImage s k with
    | none => askSite (s.setSite k { y with staged := zeros 48 }) k .e
    | some e =>
      if !stackUp s 0 ∨ stagedDigest s k ≠ some (pHash e) then failSite s k 3
      else
        let mib := imageMib s k
        let s1 := s.setSite k { y with staged := pHash e, load := some (mib * 1048576), step := .d, awaiting := false }
        let s2 := setBoardWindow s1 k (some { base := mib, size := 2, board := true, site := k, readOnly := true, berth := 0 })
        sendSite s2 k (.load (mib * 1048576) (pLength e - 64) (pHash e))

/-- A site entry that expects no chiplet. It names no kind and so no root of that kind's (R259); one that is there fails at step c
(R279). -/
def noChiplet (e : Bytes) : Bool := allZero (slice e 0 8)

/-- A reply in its step. -/
def siteReply (s : State) (k : Nat) (r : BoardReply) : State :=
  let x := s.site k
  match x.step, r with
  | .a, .negotiate s12 s13 versions =>
    let v := boardVersion s versions s13
    if (s12 || s13) && decide (1 ≤ v) then askSite (s.setSite k { x with spdm13 := s13, version := v }) k .b
    else failSite s k 1
  | .b, .challenge root chainOk ecdsaOk mldsaOk kind vendor =>
    let e := bootedSite s k
    if (root == slice e 16 48 || noChiplet e) && chainOk && ecdsaOk && mldsaOk then siteKind s k kind vendor
    else failSite s k 2
  | .e, .measurements rcd digest ecdsaOk mldsaOk =>
    if ecdsaOk && mldsaOk && ((siteImage s k).isNone || digest == x.staged) then
      siteDone (s.setSite k { x with record := sha384 rcd }) k
    else failSite s k 5
  | st, _ => failSite s k (stepCode st)

/-- The site's slot is open and it is in a step. -/
def inSlot (s : State) (k : Nat) : Bool := (s.board.slot.any (·.contains k)) && siteBusy (s.site k)

def execBoardingReply (site : Nat) (r : BoardReply) (s : State) : Out :=
  whenPilot s (fun s => if inSlot s site && !(s.site site).wiping && (s.site site).awaiting then siteReply s site r else s)

/-- LOAD_ACK (R120 step d, R123): discarded unless a LOAD is outstanding; one that comes after step d's bound finds the site
failed for want of it (R122). -/
def loadAck (s : State) (k : Nat) (late : Bool) : State :=
  let x := s.site k
  if inSlot s k ∧ x.step = .d ∧ x.load.isSome then
    (if late then failSite s k 4 else askSite (areaAcked (s.setSite k { x with load := none }) k) k .e)
  else s

def execLoadAck (site : Nat) (s : State) (late : Bool := false) : Out := whenPilot s (loadAck · site late)

/-- BOARDING_SLOT_END (R122): unfinished sites fail with their step; after wave 2 the measurement log closes (step 5.5 of
R96) and an ordering token goes on (R86). A site alone that waits for its WIPE keeps on. -/
def slotEnd (s : State) : State :=
  match s.board.slot with
  | none => s
  | some ks =>
    if ks.any (fun k => (s.site k).reboard) then
      ks.foldl (fun s k => if siteBusy (s.site k) && !(s.site k).wiping then failSite s k (stepCode (s.site k).step) else s) s
    else
      let s1 := ks.foldl (fun s k => if siteBusy (s.site k) then failSite s k (stepCode (s.site k).step) else s) s
      let s2 := ((List.range 4).map (4 * s1.board.wave + ·)).foldl areaAcked
        { s1 with board := { s1.board with slot := none, wave := s1.board.wave + 1 } }
      if s2.board.wave = 3 then
        endToken (milestone { s2 with board := { s2.board with logClosed := true } } 0x18)
      else s2

def execBoardingSlotEnd (s : State) : Out := whenPilot s slotEnd

/-! ### A site alone (R124, R538) -/

/-- A site serves a berth that is not FREE. -/
def siteServes (s : State) (k : Nat) : Bool := s.berths.any (fun b => b.2.state != .free && b.2.sites.getLsbD k)

/-- A site boarded alone begins step a; one whose sideband is down fails at it. -/
def reboardGo (s : State) (k : Nat) : State :=
  if (s.site k).present && (s.site k).sbUp then siteStart s k
  else failSite (s.setSite k { s.site k with step := .a }) k 1

/-! ### The agent's registers (R127, R128) -/

/-- BOARD_SITE_CTL.SEND: refused with ERR 0x04 on a bad TX_LEN and 0x01 while the sideband is down. A SEND while a send is in
progress has no effect and reports no error, and TX_BUSY stays set until the reply, its timeout, an abort or the loss of the
sideband: R127 and R128 say neither (DESIGN CHOICE, log entry 141). -/
def siteSend (s : State) (k : Nat) : State :=
  let x := s.site k
  if 12 ≤ k ∨ x.txBusy then s
  else if x.txLen = 0 ∨ 8192 < x.txLen.toNat then s.setSite k { x with err := 0x04 }
  else if !x.sbUp then s.setSite k { x with err := 0x01 }
  else sendSite (s.setSite k { x with err := 0, txBusy := true, awaiting := true }) k (.raw (mread 0 x.txBuf 0 x.txLen.toNat))

def execSend (site : Nat) (s : State) : Out := whenCommanded s (siteSend · site)

/-- BOARD_SITE_CTL.ABORT: the send or receive in progress is abandoned. -/
def siteAbort (s : State) (k : Nat) : State :=
  let x := s.site k
  if 12 ≤ k ∨ !(x.txBusy || x.awaiting) then s
  else s.setSite k { x with err := 0x05, txBusy := false, awaiting := false }

def execAbort (site : Nat) (s : State) : Out := whenCommanded s (siteAbort · site)

/-- BOARD_SITE_STAT.RX_READY written 1. -/
def execRxReadyClear (site : Nat) (s : State) : Out :=
  whenCommanded s (fun s => if 12 ≤ site then s else s.setSite site { s.site site with rxReady := false })

/-- What was awaited from a site will not come, for the reason ERR: a site in a step fails with it (R122, R256). -/
def siteGaveUp (s : State) (k : Nat) (err : Byte) : State :=
  let x := s.site k
  let s1 := s.setSite k { x with err := err, txBusy := false, awaiting := false }
  if inSlot s1 k && pilotUp s1 then failSite s1 k (stepCode x.step) else s1

/-- SITE_REPLY_ASSEMBLED: the joined reply; above 8,192 B ERR 0x03, and the step it was for fails (R256). A reply that finds the
buffer full waits. -/
def siteAssembled (s : State) (k : Nat) (msg : Bytes) : State :=
  let x := s.site k
  if 12 ≤ k ∨ !x.awaiting ∨ x.rxReady then s
  else if msg.length = 0 then s
  else if 8192 < msg.length then siteGaveUp s k 0x03
  else s.setSite k { x with rxBuf := mOf msg, rxLen := BitVec.ofNat 14 msg.length, rxReady := true, txBusy := false
                            awaiting := siteBusy x }

def execSiteReplyAssembled (site : Nat) (msg : Bytes) (s : State) : Out := whenRunning s (siteAssembled · site msg)

/-- SITE_REPLY_TIMEOUT: ERR 0x02; a site in a step fails with it (R122). -/
def siteTimeout (s : State) (k : Nat) : State :=
  let x := s.site k
  if 12 ≤ k ∨ !x.awaiting then s else siteGaveUp s k 0x02

def execSiteReplyTimeout (site : Nat) (s : State) : Out := whenRunning s (siteTimeout · site)

/-- SIDEBAND_DOWN: ERR 0x01; a site in a step fails with it (R122). -/
def sidebandDown (s : State) (k : Nat) : State :=
  let x := s.site k
  if 12 ≤ k then s else siteGaveUp (s.setSite k { x with sbUp := false }) k 0x01

def execSidebandDown (site : Nat) (s : State) : Out := whenRunning s (sidebandDown · site)

end Sys2Proof.Machine
end

