-- ==== Sys2Proof/Machine/VaultLink.lean ====
section
/-! DEFINITION. The vault's steps for links (11, R386-R394): LINK_AGREE and its eight steps on a link slot. The layouts of
VAULT_DATA for a step are the model's own (log entry 30): R386 names the inputs and gives no layout. -/

namespace Sys2Proof.Machine

/-! ### The slot's fields (R214) -/

def linkSeed (m : Bytes) : Bytes := slice m 0 120

/-- The slot with fields MAINT_TX to JOB_RX_NEXT, numbered 0 to 5, replaced as given. -/
def linkFields (m : Bytes) (set_ : List (Nat × Bytes)) : Bytes :=
  m.take 120 ++ ((List.range 6).map (fun i => ((set_.find? (fun x => x.1 == i)).map (·.2)).getD (slice m (120 + 32 * i) 32))).flatten

/-- The slot with its ephemeral seed zeroed, or replaced. -/
def withSeed (m seed : Bytes) : Bytes := padTo 120 seed ++ m.drop 120

/-- Two directions of a 64-byte derivation as a side stores them: transmit, receive. -/
def bySide (higher : Bool) (k : Bytes) : Bytes × Bytes :=
  if higher then (slice k 32 32, slice k 0 32) else (slice k 0 32, slice k 32 32)

/-- The lower-to-higher and higher-to-lower keys from what a side stores. -/
def fromSide (higher : Bool) (tx rx : Bytes) : Bytes := if higher then rx ++ tx else tx ++ rx

/-- Generation g + 1 of job keys (R391). -/
def nextGen (lhhl jobId : Bytes) (g : Nat) : Bytes := kdf lhhl (ascii "MB3-LINK-REKEY") (jobId ++ toBe 4 (g + 1)) 64

/-- A link slot changed by a step: EPOCH rises, and the invalidation follows (R228, R386). -/
def putLink (s : State) (k : Nat) (m : Bytes) (ctx : LinkCtx) : State :=
  let s1 := putSlot (notEmpty s) k { s.slot k with material := m }
  vaultChanged { s1 with vault := { s1.vault with links := tset s1.vault.links k ctx } } (linkEntry k)

def linkCtx (s : State) (k : Nat) : LinkCtx := tget { ecdh := [], sid := [], jobId := [], gen := 0, maintGen := 0 } s.vault.links k

/-- An agreement's shared secret Z, SS, and the ciphertext, by encapsulation with 32 drawn bytes. -/
def encapTo (s : State) (seed point kem : Bytes) : Bytes × Bytes :=
  let r := drawBytes s 32
  (padTo 48 (ecdh (eccScalar seed) point) ++ padTo 32 (kemSecret kem r), padTo 1568 (kemCipher kem r))

/-! ### The steps -/

/-- The ECDH scalar's bytes of an agreement: those of the slot's seed or, once a first agreement has zeroed it, those whose public key
this side's LINK_HELLO carried. JOB_ACCEPT and the higher side's REKEY have no place for another key (log entry 31). -/
def agreeScalar (m : Bytes) (c : LinkCtx) : Bytes := if allZero (linkSeed m) then c.ecdh else (linkSeed m).take 56

/-- Refused: VAULT_DATA is zeroed. -/
def linkRefuse (s : State) (e : Byte) : State := vaultEnd (clearData s) e

/-- The SID of a step: of a first agreement from both LINK_HELLO bodies and the LINK_KEX body (R380); of a link-class rekey
from the old SID and both REKEY bodies (R394). Lower side's body first. -/
def stepSid (old lower higher kex : Bytes) : Bytes :=
  if old = [] then sha384 (lower ++ higher ++ kex) else sha384 (old ++ lower ++ higher)

/-- MAINT_ENCAP, by the higher side. First agreement: the peer's LINK_HELLO body (1,689 B), the first 24 B of this side's.
Rekey: the peer's REKEY body (1,673 B), the first 8 B of this side's. -/
def maintEncapStep (s : State) (k : Nat) (higher : Bool) : State :=
  let m := (s.slot k).material
  let seed := linkSeed m
  let c := linkCtx s k
  let first := c.sid = []
  let n := if first then 1689 else 1673
  let d := mread 0 s.vault.data 0 2048
  let peer := slice d 0 n
  let own := slice d n (if first then 24 else 8)
  if agreeScalar m c = [] ∨ (first ∧ allZero seed) then linkRefuse s 0x06
  else if !s.vault.drbgOk then linkRefuse s 0x0E
  else
    let zc := encapTo s (agreeScalar m c) (slice peer (n - 1665) 97) (slice peer (n - 1568) 1568)
    let body := if first then own ++ kemPair seed else own ++ zc.2
    let kex := if first then [byteAt own 20, 0, 0, 0] ++ zc.2 else []
    let sid := if higher then stepSid c.sid peer body kex else stepSid c.sid body peer kex
    let t := bySide higher (kdf zc.1 (ascii "MB3-LINK-MAINT") sid 64)
    putLink (putData (drew s 32) zc.2) k (withSeed (linkFields m [(0, t.1), (1, t.2)]) (zeros 120))
      { c with ecdh := if first then seed.take 56 else c.ecdh, sid := sid, maintGen := if first then 0 else c.maintGen + 1 }

/-- MAINT_DECAP, by the lower side: the peer's ECDH key (97 B), the ciphertext (1,568 B), the peer's LINK_HELLO body up to its
keys (24 B) and KEM key (1,568 B), this side's first 24 B; in a rekey the first 8 B of the peer's REKEY body and of this
side's. -/
def maintDecapStep (s : State) (k : Nat) (higher : Bool) : State :=
  let m := (s.slot k).material
  let seed := linkSeed m
  let c := linkCtx s k
  let first := c.sid = []
  let d := mread 0 s.vault.data 0 4096
  let point := slice d 0 97
  let ct := slice d 97 1568
  if allZero seed then linkRefuse s 0x06
  else
    let z := padTo 48 (ecdh (eccScalar seed) point) ++ padTo 32 (kemDecap (slice seed 56 64) ct)
    let peer := if first then slice d 1665 24 ++ point ++ slice d 1689 1568 else slice d 1665 8 ++ ct
    let own := (if first then slice d 3257 24 else slice d 1673 8) ++ kemPair seed
    let kex := if first then [byteAt peer 20, 0, 0, 0] ++ ct else []
    let sid := if higher then stepSid c.sid peer own kex else stepSid c.sid own peer kex
    let t := bySide higher (kdf z (ascii "MB3-LINK-MAINT") sid 64)
    putLink (clearData s) k (withSeed (linkFields m [(0, t.1), (1, t.2)]) (zeros 120))
      { c with ecdh := if first then seed.take 56 else c.ecdh, sid := sid, maintGen := if first then 0 else c.maintGen + 1 }

/-- JOB_DRAW and MAINT_DRAW: a new ephemeral seed; its public keys are returned. -/
def linkDrawStep (s : State) (k : Nat) : State :=
  if !s.vault.drbgOk then linkRefuse s 0x0E
  else
    let seed := drawBytes s 120
    putLink (putData (drew s 120) (kemPair seed)) k (withSeed (s.slot k).material seed) (linkCtx s k)

/-- Job keys of an agreement: generation 0 and the next (R390, R391). The context is SID, JOB_ID, lower and higher berth. -/
def jobKeys (m z context : Bytes) (higher : Bool) : Bytes :=
  let k0 := kdf z (ascii "MB3-LINK-JOB") context 64
  let k1 := nextGen k0 (slice context 48 16) 0
  let a := bySide higher k0
  let b := bySide higher k1
  withSeed (linkFields m [(2, a.1), (3, a.2), (4, b.1), (5, b.2)]) (zeros 120)

/-- JOB_ENCAP: the peer's ECDH and ML-KEM keys, then the 68-byte context. -/
def jobEncapStep (s : State) (k : Nat) (higher : Bool) : State :=
  let m := (s.slot k).material
  let d := mread 0 s.vault.data 0 1733
  let scalar := agreeScalar m (linkCtx s k)
  if scalar = [] then linkRefuse s 0x06
  else if !s.vault.drbgOk then linkRefuse s 0x0E
  else
    let zc := encapTo s scalar (slice d 0 97) (slice d 97 1568)
    putLink (putData (drew s 32) zc.2) k (jobKeys m zc.1 (slice d 1665 68) higher)
      { linkCtx s k with jobId := slice d 1713 16, gen := 0 }

/-- JOB_DECAP: the peer's ECDH key, the ciphertext, then the context. -/
def jobDecapStep (s : State) (k : Nat) (higher : Bool) : State :=
  let m := (s.slot k).material
  let seed := linkSeed m
  let d := mread 0 s.vault.data 0 1733
  if allZero seed then linkRefuse s 0x06
  else
    let z := padTo 48 (ecdh (eccScalar seed) (slice d 0 97)) ++ padTo 32 (kemDecap (slice seed 56 64) (slice d 97 1568))
    putLink (clearData s) k (jobKeys m z (slice d 1665 68) higher) { linkCtx s k with jobId := slice d 1713 16, gen := 0 }

/-- PROMOTE: NEXT becomes current, and the following generation is derived. -/
def promoteStep (s : State) (k : Nat) (higher : Bool) : State :=
  let m := (s.slot k).material
  let c := linkCtx s k
  let tx := slice m 248 32
  let rx := slice m 280 32
  let b := bySide higher (nextGen (fromSide higher tx rx) c.jobId (c.gen + 1))
  putLink s k (linkFields m [(2, tx), (3, rx), (4, b.1), (5, b.2)]) { c with gen := c.gen + 1 }

/-- JOB_DROP. -/
def jobDropStep (s : State) (k : Nat) : State :=
  putLink s k (linkFields (s.slot k).material ([2, 3, 4, 5].map (fun i => (i, zeros 32)))) { linkCtx s k with jobId := [], gen := 0 }

/-- A step of LINK_AGREE on the slot of VAULT_CMD.INDEX: AUX[3:0] is the step, AUX[4] the side, AUX[11:5] must be 0. -/
def linkAgree (s : State) (f : State → Nat → Bool → State) : State :=
  let k := s.vault.cmd.index.toNat
  let aux := s.vault.aux
  if s.vault.cmd.space then linkRefuse s 0x04
  else if 64 ≤ k ∨ aux >>> 5 ≠ 0 then linkRefuse s 0x03
  else if k < 16 then linkRefuse s 0x04
  else if (s.slot k).unusable then linkRefuse s 0x08
  else if !(s.slot k).valid then linkRefuse s 0x06
  else
    match useSlot s k with
    | (s1, true) => f s1 k (aux.getLsbD 4)
    | (s1, false) => linkRefuse s1 0x08

/-- A VAULT_CMD write of LINK_AGREE with its step in AUX. -/
def linkCommand (c : VaultCmd) (step : BitVec 12) (f : State → Nat → Bool → State) (s : State) : Out :=
  whenVault s (fun s =>
    let s1 := if s.vault.busy then s else { s with vault := { s.vault with aux := (s.vault.aux &&& 0xFF0) ||| step } }
    vaultCommand s1 c false (linkAgree · f))

def execMaintEncap (c : VaultCmd) (s : State) : Out := linkCommand c 1 maintEncapStep s
def execMaintDecap (c : VaultCmd) (s : State) : Out := linkCommand c 2 maintDecapStep s
def execJobDraw (c : VaultCmd) (s : State) : Out := linkCommand c 3 (fun s k _ => linkDrawStep s k) s
def execJobEncap (c : VaultCmd) (s : State) : Out := linkCommand c 4 jobEncapStep s
def execJobDecap (c : VaultCmd) (s : State) : Out := linkCommand c 5 jobDecapStep s
def execPromote (c : VaultCmd) (s : State) : Out := linkCommand c 6 promoteStep s
def execJobDrop (c : VaultCmd) (s : State) : Out := linkCommand c 7 (fun s k _ => jobDropStep s k) s
def execMaintDraw (c : VaultCmd) (s : State) : Out := linkCommand c 8 (fun s k _ => linkDrawStep s k) s

/-- Pilot's own use of a step on link n: VAULT_DATA written, the slot's tag checked (R207), the step run. -/
def pilotLink (s : State) (n : Nat) (higher : Bool) (data : Bytes) (f : State → Nat → Bool → State) : State :=
  if (s.slot (16 + n)).valid ∧ !(s.slot (16 + n)).unusable then
    match useSlot s (16 + n) with
    | (s1, true) => f (putData s1 data) (16 + n) higher
    | (s1, false) => linkRefuse s1 0x08
  else s

end Sys2Proof.Machine
end

