-- ==== Sys2Proof/Machine/GwBase.lean ====
section
/-! DEFINITION. What every Gangway operation shares (11): the lane of a link, its keys and counters, sealing and sending
frames and messages, opening received frames, and carrying a message through the Crossing's tree. -/

namespace Sys2Proof.Machine

def State.link (s : State) (n : Nat) : GwLink := tget gwInit s.links n
def State.setLink (s : State) (n : Nat) (x : GwLink) : State := { s with links := tset s.links n x }
def modLink (s : State) (n : Nat) (f : GwLink → GwLink) : State := s.setLink n (f (s.link n))
def State.ggroup (s : State) (g : Nat) : GwGroup := tget gwGroupInit s.ggroups g
def State.setGgroup (s : State) (g : Nat) (x : GwGroup) : State := { s with ggroups := tset s.ggroups g x }

/-- The island that serves a link. -/
def linkLane (s : State) (n : Nat) : Nat := servedBy s (154 + n)

/-- The link a lane serves, if its island is up. -/
def laneLink (s : State) (lane : Nat) : Option Nat :=
  if lane < 52 ∧ laneUp s (154 + lane) then (homeOf s (154 + lane)).map (· - 154) else none

/-- The place of a lane's own registers (R405). The lane that serves a link has the link's, which move with it; an idle spare has its
own, at its number; a lane whose link a spare serves has its own from 52 up. -/
def laneRegs (s : State) (lane : Nat) : Nat :=
  match homeOf s (154 + lane) with
  | some h => if servedBy s h = 154 + lane then h - 154 else 52 + lane
  | none => lane

def gwCount (x : GwLink) (i : Nat) : GwLink := { x with counts := tmod 0 x.counts i (fun v => min (v + 1) 0xFFFFFFFF) }
def gwErr (x : GwLink) (i : Nat) (cause : Byte) : GwLink := { x with err := x.err ||| (1#7 <<< i), lastCause := cause }

/-! ### Classes, keys and counters (R374, R375, R393) -/

/-- Class of a KIND: 0 open, 1 link, 2 job; none if reserved. -/
def kindClass (k : Byte) : Option Nat :=
  match k.toNat with
  | 0x01 => some 2
  | 0x10 => some 1
  | 0x11 => some 1
  | 0x12 => some 1
  | 0x13 => some 1
  | 0x18 => some 1
  | 0x19 => some 1
  | 0x1A => some 1
  | 0x1B => some 1
  | 0x23 => some 1
  | 0x20 => some 0
  | 0x21 => some 0
  | 0x22 => some 0
  | 0x24 => some 0
  | _ => none

/-- Number of a class's counter: 0 job TX, 1 job RX, 2 link TX, 3 link RX; 4 more is its value at the start of the present
generation. -/
def ctrIx (cls : Nat) (rx : Bool) : Nat := (if cls = 2 then 0 else 2) + b2n rx
def ctr (x : GwLink) (i : Nat) : Nat := tget 0 x.ctrs i

/-- Generation of a class and direction. -/
def gwGen (x : GwLink) (cls : Nat) (rx : Bool) : Nat :=
  if cls = 2 then (if rx then x.genRx else x.genTx) else (if rx then x.genLinkRx else x.genLinkTx)

/-- The key of a class and direction: job generation g + 1 uses NEXT, and a direction that a link-class rekey has not moved
yet uses the maintenance keys before it. A zeroed field is no key. -/
def gwKey (x : GwLink) (cls : Nat) (rx : Bool) : Option Bytes :=
  let g := gwGen x cls rx
  let at_ (m : Bytes) (i : Nat) : Bytes := slice m (i + 32 * b2n rx) 32
  (if cls = 2 then x.key.map (fun m => at_ m (if g = x.genKey then 64 else 128))
   else if g = x.genLink then x.key.map (fun m => at_ m 0)
   else x.maintOld.map (fun m => at_ m 0)).filter (fun k => !allZero k)

/-- A direction of a class moves to a generation; its counter's value is the start of that generation. -/
def moveGen (x : GwLink) (cls : Nat) (rx : Bool) (g : Nat) : GwLink :=
  let i := ctrIx cls rx
  let y := { x with ctrs := tset x.ctrs (4 + i) (ctr x i) }
  let z : GwLink := match cls, rx with
    | 2, false => { y with genTx := g }
    | 2, true => { y with genRx := g }
    | _, false => { y with genLinkTx := g, moveDue := false }
    | _, true => { y with genLinkRx := g }
  if z.genLinkTx = z.genLink ∧ z.genLinkRx = z.genLink then { z with maintOld := none } else z

/-- IV of a frame (R375). -/
def gwIv (c : Nat) : Bytes := zeros 4 ++ toBe 8 c

/-- The header of a frame (R373). -/
def gwHeader (kind : Byte) (flags : Byte) (len : Nat) (ctrLo : Nat) : Bytes := [kind, flags] ++ toLe 2 len ++ toLe 4 (ctrLo % 2 ^ 32)

/-- FLAGS: STREAM, GEN and MORE. -/
def gwFlags (stream gen : Nat) (more : Bool) : Byte := BitVec.ofNat 8 (stream % 8 + 8 * (gen % 2) + 16 * b2n more)

/-- One frame of the present generation may still be sent. -/
def gwRoom (x : GwLink) (cls : Nat) : Bool := decide (ctr x (ctrIx cls false) - ctr x (4 + ctrIx cls false) < 2 ^ 32 - 1)

/-! ### Sending -/

/-- A frame sealed and sent, or held while the lane's entry is refilled, the key is not there, the generation is used up,
or the lane is not serving. The first link-class frame after a rekey may move its direction (R394). -/
def sendFrame (s : State) (n : Nat) (o : OutFrame) : State :=
  let x := s.link n
  let hold : State := s.setLink n { x with heldTx := x.heldTx ++ [o] }
  match kindClass o.kind with
  | none => s
  | some cls =>
    if x.refill ∨ !laneServes s (linkLane s n) then hold
    else if cls = 0 then
      let h := gwHeader o.kind (gwFlags o.stream 0 o.more) o.body.length 0
      emit (s.setLink n (gwCount x 0)) (.gangway n { kind := o.kind, flags := gwFlags o.stream 0 o.more, ctrLo := 0, body := o.body,
                                                     trailer := (sha384 (h ++ o.body)).take 16 })
    else
      match gwKey x cls false with
      | none => hold
      | some k =>
        if !gwRoom x cls then hold
        else
          let i := ctrIx cls false
          let c := ctr x i
          let fl := gwFlags o.stream (gwGen x cls false) o.more
          let e := gcmEnc k (gwIv c) (gwHeader o.kind fl o.body.length c) o.body
          let y : GwLink := { gwCount x 0 with ctrs := tset x.ctrs i (c + 1) }
          emit (s.setLink n (if cls = 1 ∧ y.moveDue then moveGen y 1 false y.genLink else y))
            (.gangway n { kind := o.kind, flags := fl, ctrLo := BitVec.ofNat 32 c, body := e.1, trailer := e.2 })

/-- A message of a KIND: frames of at most 1,024 B, MORE on all but the last (R373). -/
def sendMessage (s : State) (n : Nat) (kind : Byte) (body : Bytes) : State :=
  match (inChunks 1024 body).reverse with
  | [] => sendFrame s n { kind := kind, stream := 0, more := false, body := [] }
  | last :: before =>
    sendFrame (before.reverse.foldl (fun s b => sendFrame s n { kind := kind, stream := 0, more := true, body := b }) s) n
      { kind := kind, stream := 0, more := false, body := last }

/-- Frames held are sent once they can be, control frames before PAYLOAD (R377). -/
def flushTx (s : State) (n : Nat) : State :=
  let x := s.link n
  (x.heldTx.filter (·.kind != 0x01) ++ x.heldTx.filter (·.kind == 0x01)).foldl (fun s o => sendFrame s n o)
    (s.setLink n { x with heldTx := [] })

/-- A control frame waits to be sent: GW_CF_CTL.TX_BUSY (R405). -/
def cfBusy (x : GwLink) : Bool := x.heldTx.any (·.kind != 0x01)

/-! ### Receiving (R374-R376) -/

/-- What a received frame turns out to be. -/
inductive Opened where
  | good (body : Bytes)
  /-- An open-class frame whose trailer fails. -/
  | discard
  | tagFail
  | ctrFail
  deriving DecidableEq, Repr

/-- The receive direction of a link-class rekey moves with the first frame that carries the new GEN (log entry 31). -/
def moveRx (x : GwLink) (f : GwFrame) (cls : Nat) : GwLink :=
  if cls = 1 ∧ x.genLinkRx < x.genLink ∧ f.flags.getLsbD 3 = decide (x.genLink % 2 = 1) then moveGen x 1 true x.genLink else x

/-- A frame of a class opened: the counter, GEN and the trailer are checked before any byte is released. -/
def openFrame (x : GwLink) (kind : Byte) (f : GwFrame) (cls : Nat) : Opened :=
  if cls = 0 then
    (if f.trailer == (sha384 (gwHeader kind f.flags f.body.length f.ctrLo.toNat ++ f.body)).take 16 then .good f.body else .discard)
  else
    let c := ctr x (ctrIx cls true)
    if f.ctrLo ≠ BitVec.ofNat 32 c ∨ f.flags.getLsbD 3 ≠ decide (gwGen x cls true % 2 = 1) then .ctrFail
    else
      match gwKey x cls true with
      | none => .tagFail
      | some k =>
        match gcmDec k (gwIv c) (gwHeader kind f.flags f.body.length c) f.body f.trailer with
        | some p => .good p
        | none => .tagFail

/-! ### Identities and the Crossing's tree (R398, R399, R402) -/

/-- This package's identity: UNIT_SERIAL, 16 bytes. -/
def selfId (s : State) : Bytes := slice (unitBytes s.fuse) 4 16

def idLess (a b : Bytes) : Bool := decide (beNat a < beNat b)

/-- Identities in ascending order without repeats. -/
def idInsert (a : Bytes) : List Bytes → List Bytes
  | [] => [a]
  | b :: l => if a = b then b :: l else if idLess a b then a :: b :: l else b :: idInsert a l
def idSort (l : List Bytes) : List Bytes := l.foldr idInsert []

/-- The package's attested links. -/
def attested (s : State) : List Nat := (List.range 48).filter (fun n => (s.link n).link == .attested)

/-- Body of ROUTE (R402). -/
def routeBody (dst src : Bytes) (hops : Nat) (kind : Byte) (body : Bytes) : Bytes :=
  padTo 16 dst ++ padTo 16 src ++ toLe 2 hops ++ [kind, 0] ++ toLe 2 body.length ++ body

/-- DST of a message to every member. -/
def allMembers : Bytes := List.replicate 16 0xFF

/-- The link on which a member lies: the child whose subtree holds it, or the parent. -/
def routeLink (c : Crossing) (dst : Bytes) : Option Nat :=
  match c.children.find? (fun x => x.2.contains dst) with
  | some (l, _) => some l
  | none => c.parent

/-- A message carried one hop on with the HOPS given: held while a formation runs, discarded if its DST is no member, at HOPS 0,
or where the tree leads nowhere. It does not go back on the link it arrived on. -/
def routeOn (s : State) (m : HeldRoute) : State :=
  let c := s.crossing
  if c.forming then { s with crossing := { c with held := c.held ++ [m] } }
  else if m.hops = 0 then s
  else
    let body := routeBody m.dst m.src m.hops m.kind m.body
    if m.dst = allMembers then
      let target := (c.children.map (·.1) ++ (match c.parent with
        | some p => [p]
        | none => [])).filter (fun l => m.arrived != some l)
      target.foldl (fun s l => sendMessage s l 0x1B body) s
    else if !c.members.contains m.dst ∨ m.dst = selfId s then s
    else
      match routeLink c m.dst with
      | some l => sendMessage s l 0x1B body
      | none => s

/-- A message of this package's own into the Crossing; its frame leaves with HOPS 1,024. -/
def routeFrom (s : State) (dst : Bytes) (kind : Byte) (body : Bytes) : State :=
  routeOn s { arrived := none, dst := dst, src := selfId s, hops := 1024, kind := kind, body := body }

/-! ### Formation (R399) -/

/-- A pair beats another: a higher epoch, or the same and a lower candidate. -/
def beats (e : Nat) (c : Bytes) (x : Crossing) : Bool :=
  decide (x.epoch < e) || (decide (e = x.epoch) && (match x.candidate with
    | some d => idLess c d
    | none => true))

/-- MB_STAT 0x1B or 0x1C, as the package is now: one that was coordinator and is a plain member shows 0x1B again, though R130 speaks of
the highest milestone reached (DESIGN CHOICE, log entry 156). -/
def showMember (s : State) (coord : Bool) : State :=
  let code : Byte := if coord then 0x1C else 0x1B
  if s.pilot.phase = .firmware then showStat { s with pilot := { s.pilot with milestone := code } } code else s

/-- A child's subtree and this package. -/
def subtree (s : State) : List Bytes := idSort (selfId s :: (s.crossing.children.map (·.2)).flatten)

/-- COUNT and identities. -/
def idList (l : List Bytes) : Bytes := toLe 2 l.length ++ l.flatten

/-- FORMED's body. -/
def formedBody (epoch : Nat) (coord : Bytes) (members : List Bytes) : Bytes := toLe 4 epoch ++ padTo 16 coord ++ idList members

/-- A formation ends here: the members and the coordinator are taken, FORMED goes down the tree, and held messages go on. -/
def takeFormed (s : State) (epoch : Nat) (coord : Bytes) (members : List Bytes) : State :=
  let c := s.crossing
  let inside := members.contains (selfId s)
  let held := c.held
  let s1 := { s with crossing := { c with epoch := epoch, forming := false, held := [], awaiting := []
                                          members := if inside then members else []
                                          coordinator := if inside then some coord else none } }
  let s2 := (c.children.map (·.1)).foldl (fun s l => sendMessage s l 0x1A (formedBody epoch coord members)) s1
  let s3 := if inside then showMember s2 (coord == selfId s2) else s2
  held.foldl routeOn s3

/-- Every link has answered: the candidate completes the formation, any other package echoes to its parent. -/
def echoDone (s : State) : State :=
  let c := s.crossing
  if !c.forming ∨ c.awaiting ≠ [] then s
  else
    match c.parent, c.candidate with
    | none, some cand => takeFormed s c.epoch cand ((subtree s).take 1024)
    | some p, some cand => sendMessage s p 0x19 (toLe 4 c.epoch ++ padTo 16 cand ++ idList (subtree s))
    | _, none => s

/-- A pair adopted, or this package's own: DISCOVER goes out on every attested link but the parent's. -/
def adopt (s : State) (epoch : Nat) (cand : Bytes) (parent : Option Nat) : State :=
  let target := (attested s).filter (fun l => parent != some l)
  let s1 := { s with crossing := { s.crossing with epoch := epoch, candidate := some cand, parent := parent, awaiting := target
                                                   children := [], forming := true } }
  echoDone (target.foldl (fun s l => sendMessage s l 0x18 (toLe 4 epoch ++ padTo 16 cand)) s1)

/-- CROSSING_FORMATION_START (R399): one more than the highest epoch known, with this package as candidate. -/
def startFormation (s : State) : State := adopt s (s.crossing.epoch + 1) (selfId s) none

/-! ### PAYLOAD out (R377, R507) -/

/-- The link may carry a berth's payload: ATTESTED, KEYED, and assigned to the berth. -/
def linkUsable (s : State) (n b : Nat) : Bool :=
  let x := s.link n
  decide (n < 48) && x.link == .attested && x.job == .keyed && x.jobBerth == some b

end Sys2Proof.Machine
end

