-- ==== Sys2Proof/Machine/HostReq.lean ====
section
/-! DEFINITION. Requests of MB3 to the host (15): page requests, and the issue of a read or a write. Tags, the translation cache and
translation requests stand beside MSI-X in Ops. -/

namespace Sys2Proof.Machine

/-! ### Page requests (R552-R554) -/

/-- The lowest index of a function not in use. -/
def freeIndex (h : HostGuard) (fn : Nat) : Nat :=
  ((List.range 512).find? (fun i => !h.pages.any (fun p => p.fn == fn && p.index == i))).getD 0

/-- Page requests may be made: PRI on, and no Response Failure since it was. -/
def priOpen (s : State) (fn : Nat) : Bool := (s.fn (fnAt fn)).pri && !(s.fn (fnAt fn)).prgFailed

/-- A page request for an address's range, unless one is outstanding or the allocation is used up; then the access waits. -/
def askPage (s : State) (fn a : Nat) (write : Bool) : State :=
  let range := rangeOf a
  let x := s.fn (fnAt fn)
  if s.host.pages.any (fun p => p.fn == fn && p.range == range && !p.dead) then s
  else if min 64 x.prAlloc ≤ (s.host.pages.filter (fun p => p.fn == fn)).length then s
  else
    let i := freeIndex s.host fn
    emit (hgCount (modHost s (fun h => { h with pages := h.pages ++ [{ fn := fn, index := i, range := range, write := write, dead := false }] })) fn 2)
      (.pageRequest fn i (a / 4096 * 4096) write)

/-! ### Issue (R498, R543, R544) -/

/-- The Relaxed Ordering attribute of a data request: the descriptor's FLAGS.RO and the function's enable. -/
def roOf (s : State) (fn : Nat) (hint : Bool) : Bool := hint && (s.fn (fnAt fn)).ro

/-- A host read issued with a fresh tag (`tagReady`). -/
def issueRead (s : State) (fn ch : Nat) (use : HostUse) (addr len : Nat) (at_ : Nat) (translated : Bool)
    (used : Option (Nat × Nat)) (tries : Nat) (ro : Bool) : State :=
  let tag := nextTag s fn
  let r : HostReq := { fn := fn, tag := tag, use := use, ch := ch, addr := addr, len := len, got := [], tries := tries,
                       used := used, stale := false, abandoned := false, timedOut := false }
  emit (atcTouch (modHost s (fun h => { takeTag s fn with reqs := h.reqs ++ [r] })) fn used)
    (.hostRead fn tag at_ len translated ro)

end Sys2Proof.Machine
end

