-- ==== Sys2Proof/Machine/Ferry.lean ====
section
/-! DEFINITION. The Ferry engine (14): descriptors and their check, chains and doorbells, engines that move one
descriptor at a time, sealed blocks, errors and retries, privileged channels. An engine has one request outstanding at a
time and works in pattern order (log entry 42). -/

namespace Sys2Proof.Machine

/-! ### Parts of the state -/

def State.ch (s : State) (c : Nat) : FerryCh := tget chInit s.ferry.chs c
def modFerry (s : State) (f : Ferry → Ferry) : State := { s with ferry := f s.ferry }
def State.setCh (s : State) (c : Nat) (x : FerryCh) : State := modFerry s (fun f => { f with chs := tset f.chs c x })
def modCh (s : State) (c : Nat) (f : FerryCh → FerryCh) : State := s.setCh c (f (s.ch c))
def State.chMap (s : State) (c : Nat) : ChMap := tget chMapInit s.ferry.maps c
def State.pch (s : State) (p : Nat) : FerryPch := tget pchInit s.ferry.pchs p
def modPch (s : State) (p : Nat) (f : FerryPch → FerryPch) : State :=
  modFerry s (fun x => { x with pchs := tset x.pchs p (f (s.pch p)) })
def setEng (s : State) (e : Nat) (r : EngRun) : State := modFerry s (fun f => { f with engs := tset f.engs e r })
def freeEng (s : State) (e : Nat) : State := modFerry s (fun f => { f with engs := tdel f.engs e })

/-- The berth a chained channel belongs to (R492), by the map in effect. -/
def chBerth (s : State) (c : Nat) : Nat := (s.chMap c).berth.toNat
/-- The number of that berth's VF. -/
def chFn (s : State) (c : Nat) : Nat := chBerth s c + 2
/-- The channels of a berth. -/
def berthChs (s : State) (b : Nat) : List Nat := (s.ferry.maps.filter (fun m => m.2.valid && m.2.berth.toNat == b)).map (·.1)
/-- Channel k of a VF's run (R492, R517); none where the page shows no such channel. -/
def runCh (s : State) (b k : Nat) : Option Nat :=
  let x := s.berth b
  let c := x.ferryBase + k
  if k < x.ferryCount ∧ (s.chMap c).valid ∧ chBerth s c = b then some c else none

/-! ### The descriptor (R493) -/

def dOp (d : Bytes) : Nat := leAt d 0 1
def dFlag (d : Bytes) (i : Nat) : Bool := (byteAt d 1).getLsbD i
def dSegment (d : Bytes) : Nat := leAt d 4 4
def dSrc (d : Bytes) : Nat := leAt d 8 8
def dDst (d : Bytes) : Nat := leAt d 16 8
def dAux (d : Bytes) : Nat := leAt d 24 8
def dSrcLine (d : Bytes) : Nat := leAt d 32 4
def dSrcStride (d : Bytes) : Nat := leAt d 36 4
def dDstLine (d : Bytes) : Nat := leAt d 40 4
def dDstStride (d : Bytes) : Nat := leAt d 44 4
def dSrcCount (d : Bytes) : Nat := leAt d 48 2
def dDstCount (d : Bytes) : Nat := leAt d 50 2
/-- NEXT, down to a multiple of 64 bytes (log entry 162). -/
def dNext (d : Bytes) : DWord := BitVec.ofNat 64 (leAt d 56 8 / 64 * 64)
def dTotal (d : Bytes) : Nat := dSrcLine d * dSrcCount d
def dLink (d : Bytes) : Nat := leAt d 24 1
def dStream (d : Bytes) : Nat := leAt d 25 1

/-- The ops that take the hold check, and those of the sealed format (R494). -/
def isExport (op : Nat) : Bool := op ∈ [3, 6, 7]
def isSealed (op : Nat) : Bool := op ∈ [4, 5, 6]
def opKnown (op : Nat) : Bool := decide (1 ≤ op ∧ op ≤ 9)
/-- The class of a channel that may run an op. -/
def opAllowed (op : Nat) (privileged : Bool) : Bool := if privileged then op ∈ [1, 9] else decide (op ≤ 8)

/-- One side's line, stride and count lie in their ranges; a stride of a line or more keeps lines apart. -/
def sideOk (line stride count : Nat) : Bool :=
  decide (1 ≤ line ∧ line ≤ 16777216) && decide (1 ≤ count) && (decide (count ≤ 1) || decide (line ≤ stride))

/-- Reserved parts are 0 (order 1 of R495). -/
def reservedOk (d : Bytes) : Bool :=
  let op := dOp d
  opKnown op && decide (leAt d 2 2 = 0) && decide (leAt d 1 1 < 8) && decide (leAt d 52 4 = 0) &&
    (isExport op || decide (dSegment d = 0xFFFFFFFF)) &&
    (if isSealed op then true
     else if op = 7 then decide (leAt d 26 6 = 0)
     else decide (dAux d = 0))

/-- Orders 1 to 6 of R495: the cause, or 0x00. -/
def descShape (d : Bytes) (privileged : Bool) : Byte :=
  let op := dOp d
  if !reservedOk d then 0x01
  else if !opAllowed op privileged then 0x02
  else if dTotal d ≠ dDstLine d * dDstCount d ∨ 16777216 < dTotal d then 0x01
  else if !sideOk (dSrcLine d) (dSrcStride d) (dSrcCount d) || !sideOk (dDstLine d) (dDstStride d) (dDstCount d) then 0x01
  else if op = 7 ∧ (48 ≤ dLink d ∨ 8 ≤ dStream d) then 0x01
  else if isSealed op ∧ (dAux d % 64 ≠ 0 ∨ (if op = 6 then dDstCount d ≠ 1 ∨ dDst d % 64 ≠ 0
      else dSrcCount d ≠ 1 ∨ dSrc d % 64 ≠ 0)) then 0x01
  else if op = 8 ∧ (dSrcLine d ≠ dDstLine d ∨ dSrcCount d ≠ dDstCount d ∨ (1 < dSrcCount d ∧ dSrcStride d ≠ dDstStride d)) then 0x01
  else 0x00

/-- Orders 7 and 8 of R495 (R502), from Ferry's fill of the berth; a refused fill carries no flag and no key. -/
def descKeys (d : Bytes) (f : Option KeyFill) : Byte :=
  let op := dOp d
  let flag (i : Nat) : Bool := match f with
    | some k => k.flags.getLsbD i
    | none => false
  if (op = 2 ∨ op = 3) ∧ (flag 3 || flag 4) then 0x03
  else if op = 4 ∧ (f.bind (·.weight)).isNone then 0x04
  else if (op = 5 ∨ op = 6) ∧ (f.bind (·.bounce)).isNone then 0x04
  else 0x00

/-- The op needs Ferry's fill of the berth record. -/
def needsFill (op : Nat) : Bool := decide (2 ≤ op ∧ op ≤ 6)

/-- Byte k of a pattern (R496). -/
def patAddr (addr line stride k : Nat) : Nat := addr + (k / line) * stride + k % line
/-- Bytes from byte k to the end of its pattern line or of its 64-byte line, whichever is nearer. -/
def patRun (addr line stride k : Nat) : Nat := min (line - k % line) (64 - patAddr addr line stride k % 64)
def srcAddr (d : Bytes) (k : Nat) : Nat := patAddr (dSrc d) (dSrcLine d) (dSrcStride d) k
def srcRun (d : Bytes) (k : Nat) : Nat := min (patRun (dSrc d) (dSrcLine d) (dSrcStride d) k) (dTotal d - k)
def dstAddr (d : Bytes) (k : Nat) : Nat := patAddr (dDst d) (dDstLine d) (dDstStride d) k
def dstRun (d : Bytes) (k : Nat) : Nat := min (patRun (dDst d) (dDstLine d) (dDstStride d) k) (dTotal d - k)

/-- The lowest and one past the highest byte of the source pattern (R506). -/
def srcSpan (d : Bytes) : Nat × Nat := (dSrc d, dSrc d + (dSrcCount d - 1) * dSrcStride d + dSrcLine d)

/-- LEN of block i of a sealed descriptor (R503). -/
def blockLen (d : Bytes) (i : Nat) : Nat := min 4096 (dTotal d - 4096 * i)

/-! ### Interrupts and halts (R499, R513, R517, R526) -/

/-- IRQ_PEND sets; vector 2 + REL is raised as it rises. -/
def chIrq (s : State) (c : Nat) : State :=
  let x := s.ch c
  let s1 := s.setCh c { x with irqPend := true }
  if x.irqPend then s1 else msix s1 (.vf (chBerth s c)) (2 + (s.chMap c).rel.toNat)

/-- An export that had received GO is over: declarations may wait for it no longer (R468). -/
def exportOver (s : State) (c : Nat) : State :=
  { s with press := { s.press with
      berths := tmod berthPressInit s.press.berths (chBerth s c)
        (fun x => { x with exports := x.exports.filter (fun e => e.1 != c) }) } }

/-- A chained channel halts with a cause; it keeps CUR and DONE. -/
def haltCh (s : State) (c : Nat) (cause : Byte) : State :=
  chIrq (modCh (exportOver s c) c (fun x => { x with
    state := .halted, cause := cause, needKey := false, stop := false, stuck := none, hold := none, redo := false })) c

/-- The staging of an image area ends (R118): its measurement is kept, and a site that was to board alone begins (R124). -/
def areaLanded (s : State) (a : Nat) (digest : Bytes) : State :=
  match tfind s.board.areas a with
  | none => s
  | some x =>
    if x.digest.isSome then s
    else
      let s1 := { s with board := { s.board with areas := tset s.board.areas a { x with digest := some digest } } }
      match s1.board.slot with
      | some [k] => if (s1.site k).reboard && (s1.site k).step == .idle then reboardGo s1 k else s1
      | _ => s1

/-- A privileged descriptor ends (R510, R518); DIGEST holds the digest of the bytes written at DONE. Channel p stages image area
p (DESIGN CHOICE, log entry 140). -/
def pchEnd (s : State) (p : Nat) (cause : Byte) : State :=
  let d := sha384 (s.pch p).written
  areaLanded (modPch s p (fun x => { x with busy := false, restart := false, done := true, cause := cause, halted := cause != 0, written := []
                                            digest := if x.digestEn then mOf d else x.digest })) p (if cause = 0 then d else [])

/-- The place in the order of arrival of the bundle at the head of a link's lane. -/
def headOrder (s : State) (n : Nat) : Option Nat := (s.link n).bundles.head?.map (·.order)

/-- The link whose lane holds the oldest bundle for a channel, in order of arrival over all links (R507). -/
def bundleLink (s : State) (c : Nat) : Option Nat :=
  ((List.range 48).filter (fun n => match (s.link n).bundles with
    | b :: _ => b.ch == c
    | [] => false)).foldl
    (fun best n => match best with
      | none => some n
      | some k => if (headOrder s n).getD 0 < (headOrder s k).getD 0 then some n else some k) none

/-- The peripheral that a link's lane is to Ferry. -/
def lanePeripheral (s : State) (n : Nat) : Peripheral := .gangway (linkLane s n - 154)

def assertRequest (s : State) (p : Peripheral) : State :=
  modFerry s (fun f => { f with requests := if f.requests.contains p then f.requests else f.requests ++ [p] })

/-- A lane that still holds a channel's bundle asks for service again. -/
def reassert (s : State) (c : Nat) : State :=
  match bundleLink s c with
  | some n => assertRequest s (lanePeripheral s n)
  | none => s

/-- `k` bytes of the bundle with a place in the order of arrival have been written; an emptied bundle goes. -/
def bundleUsed (s : State) (order k : Nat) : State :=
  match (List.range 48).find? (fun n => headOrder s n == some order) with
  | none => s
  | some n =>
    modLink s n (fun x => { x with bundles := match x.bundles with
      | b :: rest => if b.data.length ≤ k then rest else { b with data := b.data.drop k } :: rest
      | [] => [] })

/-- The engine's descriptor halts and the engine is free. -/
def haltEng (s : State) (e c : Nat) (cause : Byte) : State :=
  if c < 8 then pchEnd (freeEng s e) c cause else reassert (haltCh (freeEng s e) c cause) c

/-! ### Reading a descriptor (R508, R509) -/

/-- A descriptor's read waits for a translation of its range, or for a tag (R545, R548). -/
def fetchStuck (s : State) (c : Nat) : State := modCh s c (fun x => { x with stuck := some (rangeOf x.cur.toNat) })

/-- A channel reads the descriptor at CUR, and captures DBCOUNT and the RETRY it will run under (R8, R508). -/
def fetch (s : State) (c : Nat) (why : FetchWhy) (raw : Option (Nat × Nat)) : State :=
  let fn := chFn s c
  let x := s.ch c
  let s1 := s.setCh c { x with state := .fetching, cap := x.dbcount, why := why, needKey := false, stuck := none, retryNow := x.retry }
  if !(s.fn (fnAt fn)).bme then haltCh s1 c 0x0C
  else
    match translate s1 raw fn x.cur.toNat false with
    | .go at_ tr used => if tagReady s1 fn then issueRead s1 fn c (.fetch c) x.cur.toNat 64 at_ tr used 0 false else fetchStuck s1 c
    | .miss => transMiss (fetchStuck s1 c) fn c (rangeOf x.cur.toNat) false
    | .denied => haltCh s1 c 0x0E

/-- CUR moves to an address and its descriptor is read to be run. -/
def fetchAt (s : State) (c : Nat) (a : DWord) : State :=
  fetch (modCh s c (fun x => { x with cur := a, done := 0, seq0 := none, desc := [], tail := [], again := false, redo := false })) c .run none

/-- An IDLE channel's chain ends; a doorbell since the last capture leaves IDLE at once, for one more read of the tail. -/
def toIdle (s : State) (c : Nat) : State :=
  let x := s.ch c
  let s1 := s.setCh c { x with state := .idle }
  if x.dbcount ≠ x.cap then fetch s1 c .reread none else s1

/-- A checked descriptor waits for the hold check, credit and an engine, in order of arrival; a changed share now holds. -/
def toWaiting (s : State) (c : Nat) : State :=
  modFerry (modCh s c (fun x => { x with state := .waiting, needKey := false, hold := none, rate := x.share, place := s.ferry.place }))
    (fun f => { f with place := f.place + 1 })

/-- A LINK_IN between two bundles waits again, as the youngest of those that wait (R500). -/
def waitAgain (s : State) (c : Nat) : State :=
  modFerry (modCh s c (fun x => { x with state := .waiting, place := s.ferry.place })) (fun f => { f with place := f.place + 1 })

/-- Ferry's fill of a berth: none while it has not arrived. -/
def ferryFill (s : State) (b : Nat) : Option (Option KeyFill) := (s.ferry.keys.find? (fun e => e.1 == b)).map (·.2)

/-- The check of R495; an op that needs the record waits for Ferry's fill. -/
def checkDesc (s : State) (c : Nat) : State :=
  let d := (s.ch c).desc
  let cause := descShape d false
  if cause ≠ 0 then haltCh s c cause
  else if needsFill (dOp d) then
    match ferryFill s (chBerth s c) with
    | none => vaultMiss (modCh s c (fun x => { x with needKey := true })) (.ferry 0) (chBerth s c)
    | some f =>
      let k := descKeys d f
      if k ≠ 0 then haltCh s c k else toWaiting s c
  else toWaiting s c

/-- A descriptor has been read. -/
def takeDesc (s : State) (c : Nat) (d0 : Bytes) : State :=
  let d := padTo 64 d0
  match (s.ch c).why with
  | .run => checkDesc (modCh s c (fun x => { x with desc := d })) c
  | .reread => if dFlag d 0 then toIdle s c else fetchAt s c (dNext d)

def ferryInvalidate (s : State) (which : Nat → Bool) : State :=
  modFerry s (fun x => { x with keys := x.keys.filter (fun e => !which e.1) })

/-! ### Doorbell, STOP, SKIP, RESUME (R508, R513) -/

/-- A VF's write to its doorbell page reaches the channel: the VF has the channel, its berth is not RINSING (R331), and the channel is
not SILENCED. -/
def chCommand (s : State) (vf k : Nat) (f : State → Nat → State) : State :=
  match runCh s vf k with
  | some c => if (s.berth vf).state ≠ .rinsing ∧ (s.ch c).state ≠ .silenced then f s c else s
  | none => s

def doorbell (s : State) (c : Nat) : State :=
  let x := s.ch c
  let s1 := s.setCh c { x with dbcount := x.dbcount + 1 }
  if x.state ≠ .idle then s1
  else if !x.chain then fetchAt (modCh s1 c (fun x => { x with chain := true })) c x.head
  else fetch s1 c .reread none

def execFerryChDoorbell (vf k : Nat) (s : State) : Out := whenBar s (.vf vf) (fun s => chCommand s vf k doorbell)

def execStop (vf k : Nat) (s : State) : Out :=
  whenBar s (.vf vf) (fun s => chCommand s vf k (fun s c => modCh s c (fun x => { x with stop := x.stop || x.state == .running })))

def skip (s : State) (c : Nat) : State :=
  let x := s.ch c
  if x.state ≠ .halted then s
  else if x.desc = [] ∨ dFlag x.desc 0 then toIdle s c
  else fetchAt s c (dNext x.desc)

def execSkip (vf k : Nat) (s : State) : Out := whenBar s (.vf vf) (fun s => chCommand s vf k skip)

def execResume (vf k : Nat) (s : State) : Out :=
  whenBar s (.vf vf) (fun s => chCommand s vf k (fun s c =>
    if (s.ch c).state = .halted then fetch (modCh s c (fun x => { x with again := true })) c .run none else s))

/-! ### An engine at work (R496-R505) -/

/-- The descriptor an engine runs. -/
def engDesc (s : State) (c : Nat) : Bytes := if c < 8 then padTo 64 (mread 0 (s.pch c).desc 0 56) else (s.ch c).desc

/-- DONE of a channel: bytes written in pattern order; whole verified blocks for sealed ops (R513). A LINK_IN that writes bytes
again keeps it. -/
def setDone (s : State) (c : Nat) (d : Bytes) (w : Nat) : State :=
  let n := if isSealed (dOp d) ∧ w < dTotal d then w / 4096 * 4096 else w
  if c < 8 then modPch s c (fun x => { x with bytes := n })
  else modCh s c (fun x => { x with done := if dOp d = 8 then max x.done n else n })

/-- The bytes since the last multiple of 64 after `data` has been written at byte w. -/
def tailAfter (tail data : Bytes) (w : Nat) : Bytes := (tail ++ data).drop ((w + data.length) / 64 * 64 - w / 64 * 64)

/-- Bytes of the destination written; a digest takes them in pattern order, and a lane lets go of a bundle's. -/
def engWrote (s : State) (e : Nat) (r : EngRun) (data : Bytes) : State × EngRun :=
  let r1 := { r with w := r.w + data.length, buf := r.buf.drop data.length, redo := r.redo - data.length }
  let s1 := if r.ch < 8 then modPch s r.ch (fun x => { x with written := if x.digestEn then x.written ++ data else x.written })
    else if dOp (engDesc s r.ch) = 8 ∧ r.redo = 0 then
      bundleUsed (modCh s r.ch (fun x => { x with tail := tailAfter x.tail data r.w })) r.bundle data.length
    else s
  (setEng (setDone s1 r.ch (engDesc s r.ch) r1.w) e r1, r1)

/-- What a host access of an engine comes to: an address, or a state in which it waits or has halted. -/
inductive EngHost where
  | go (addr : Nat) (translated : Bool) (used : Option (Nat × Nat))
  | stop (s : State)

/-- Whether a host access may be issued (R512, R547, R552): `pageable` for a data area. -/
def engHost (s : State) (e : Nat) (r : EngRun) (a : Nat) (write pageable : Bool) (raw : Option (Nat × Nat)) : EngHost :=
  let fn := chFn s r.ch
  let wait := { r with wait := .page (rangeOf a) }
  if !(s.fn (fnAt fn)).bme then .stop (haltEng s e r.ch 0x0C)
  else
    match translate s raw fn a write with
    | .go at_ tr used => .go at_ tr used
    | .miss => .stop (transMiss (setEng s e wait) fn r.ch (rangeOf a) write)
    | .denied =>
      if pageable && priOpen s fn then .stop (askPage (setEng s e wait) fn a write) else .stop (haltEng s e r.ch 0x0E)

/-- A host read of an engine; it waits for a tag where none is free (R545). -/
def engRead (s : State) (e : Nat) (r : EngRun) (use : HostUse) (a len : Nat) (pageable : Bool) (ro : Bool)
    (raw : Option (Nat × Nat)) : State :=
  match engHost s e r a false pageable raw with
  | .stop t => t
  | .go at_ tr used =>
    let fn := chFn s r.ch
    if !tagReady s fn then setEng s e { r with wait := .page (rangeOf a) }
    else issueRead (setEng s e { r with wait := .host (nextTag s fn) }) fn r.ch use a len at_ tr used r.tries ro

/-- A posted host write; none if it must wait or has halted. -/
def engPost (s : State) (e : Nat) (r : EngRun) (a : Nat) (data : Bytes) (pageable : Bool) (raw : Option (Nat × Nat)) :
    State × Bool :=
  match engHost s e r a true pageable raw with
  | .stop t => (t, false)
  | .go at_ tr used =>
    let fn := chFn s r.ch
    (emit (atcTouch s fn used) (.hostWrite fn at_ data tr (roOf s fn (dFlag (engDesc s r.ch) 2))), true)

/-- KIND of a sealed op (R503), and its IV and associated data. -/
def sealKind (op : Nat) : Byte := if op = 4 then 0x01 else if op = 5 then 0x02 else 0x03
def sealRel (s : State) (c op : Nat) : Byte := if op = 4 then 0 else (s.chMap c).rel.setWidth 8
def sealIv (kind rel : Byte) (seq : Nat) : Bytes := [kind, rel, 0, 0] ++ toBe 8 seq
def sealAad (kind rel : Byte) (len : Nat) : Bytes := [0x4D, 0x42, 0x33, 0x46, kind, rel] ++ toLe 2 len

/-- The berth's key for a sealed op, from Ferry's fill. -/
def sealKey (s : State) (c op : Nat) : Option Bytes :=
  ((ferryFill s (chBerth s c)).bind id).bind (fun f => if op = 4 then f.weight else f.bounce)

/-- Ferry's copy of the record has been invalidated: it asks the vault again, and the engine waits for the answer (R227, R503). -/
def keyWait (s : State) (e : Nat) (r : EngRun) : State := vaultMiss (setEng s e { r with wait := .key }) (.ferry 0) (chBerth s r.ch)

/-- A whole sealed block has been read: its record, SEQ and tag are checked before any byte is released (R503-R505). After an
engine's fault the block verified last may verify once more (R562). -/
def openBlock (s : State) (e : Nat) (r : EngRun) (rcd : Bytes) : State × Bool :=
  let d := (s.ch r.ch).desc
  let op := dOp d
  let i := r.w / 4096
  let len := blockLen d i
  let seq := leAt rcd 0 8
  let x := s.ch r.ch
  let first := (op == 4 || decide (x.inMark < seq) || (x.redo && x.inMark == seq)) && (match x.seq0 with
    | some q => seq == q + i
    | none => i == 0)
  let kind := sealKind op
  let rel := sealRel s r.ch op
  if leAt rcd 8 2 ≠ len ∨ leAt rcd 10 6 ≠ 0 ∨ !first then (haltEng s e r.ch 0x06, false)
  else if (ferryFill s (chBerth s r.ch)).isNone then (keyWait s e r, false)
  else
    match sealKey s r.ch op with
    | none => (haltEng s e r.ch 0x04, false)
    | some k =>
      match gcmDec k (sealIv kind rel seq) (sealAad kind rel len) r.ct (slice rcd 16 16) with
      | none => (haltEng s e r.ch 0x05, false)
      | some p =>
        let s1 := modCh s r.ch (fun x => { x with seq0 := some (x.seq0.getD seq), inMark := if op = 5 then seq else x.inMark, redo := false })
        (setEng s1 e { r with buf := p, ct := [], rcd := none }, true)

/-- A block of BOUNCE_OUT sealed with OUT_NEXT (R504); at 2^64 - 1 the channel halts. -/
def sealBlock (s : State) (e : Nat) (r : EngRun) : State × Bool :=
  let x := s.ch r.ch
  let len := blockLen x.desc (r.w / 4096)
  if x.outNext ≥ 2 ^ 64 - 1 then (haltEng s e r.ch 0x0F, false)
  else if (ferryFill s (chBerth s r.ch)).isNone then (keyWait s e r, false)
  else
    match sealKey s r.ch 6 with
    | none => (haltEng s e r.ch 0x04, false)
    | some k =>
      let rel := sealRel s r.ch 6
      let g := gcmEnc k (sealIv 0x03 rel x.outNext) (sealAad 0x03 rel len) (r.buf.take len)
      (setEng (modCh s r.ch (fun x => { x with outNext := x.outNext + 1 })) e
        { r with ct := g.1, rcd := some (toLe 8 x.outNext ++ toLe 2 len ++ zeros 6 ++ g.2) }, true)

/-- A peripheral's burst starts if its request is asserted (R516). -/
def startBurst (s : State) (p : Peripheral) : State :=
  if s.ferry.requests.contains p ∧ !s.ferry.bursts.contains p then
    modFerry s (fun f => { f with bursts := f.bursts ++ [p] }) else s

/-- More source bytes for an engine whose buffer is short (R497, R498, R510). -/
def engNeed (s : State) (e : Nat) (r : EngRun) (raw : Option (Nat × Nat)) : State :=
  let d := engDesc s r.ch
  let p := r.w + r.buf.length
  match dOp d with
  | 2 => engRead s e r (.data e) (srcAddr d p) (srcRun d p) true (roOf s (chFn s r.ch) (dFlag d 2)) raw
  | 8 =>
    (match bundleLink s r.ch with
      | some n => startBurst (setEng s e { r with wait := .bundle }) (lanePeripheral s n)
      | none => waitAgain (freeEng s e) r.ch)
  | 9 => startBurst (setEng s e { r with wait := .flash }) .flash
  | _ =>
    let a := srcAddr d p
    emit (setEng s e { r with wait := .fabricRead (a % 64) (srcRun d p) }) (.ferryFabric e (0x10 + r.ch) (a / 64 * 64) .read [])

/-- The next read of a sealed block: its record, then its ciphertext. -/
def sealedNeed (s : State) (e : Nat) (r : EngRun) (raw : Option (Nat × Nat)) : State :=
  let d := (s.ch r.ch).desc
  let i := r.w / 4096
  match r.rcd with
  | none => engRead s e r (.rcd e) (dAux d + 32 * i) 32 false false raw
  | some _ =>
    engRead s e r (.data e) (dSrc d + 4096 * i + r.ct.length) (min 64 (blockLen d i - r.ct.length)) true
      (roOf s (chFn s r.ch) (dFlag d 2)) raw

/-- A write of the fabric side: a full line, or a partial one with its byte enables (R497). -/
def fabricPut (s : State) (e : Nat) (r : EngRun) (a n : Nat) : State :=
  let data := r.buf.take n
  let o := a % 64
  let op : LineOp := if n = 64 then .write else .partialWrite (BitVec.ofNat 64 ((2 ^ n - 1) * 2 ^ o))
  emit (setEng s e { r with wait := .fabricWrite n }) (.ferryFabric e (0x10 + r.ch) (a / 64 * 64) op (padTo 64 (zeros o ++ data)))

/-- A lane refuses PAYLOAD that its link no longer takes: REFUSED, with cause 0x01 (R377, R406). -/
def refusePayload (s : State) (n : Nat) : State := if n < 48 then modLink s n (fun x => gwErr (gwCount x 4) 0 0x01) else s

/-- One move of an engine, and whether it may go on: a write of what the buffer holds, or a read of what it lacks. -/
def engMove (s : State) (e : Nat) (raw : Option (Nat × Nat)) : State × Bool :=
  match tfind s.ferry.engs e with
  | none => (s, false)
  | some r =>
    let d := engDesc s r.ch
    let op := dOp d
    if r.w ≥ dTotal d then (setEng s e { r with wait := .finished }, false)
    else
      match op with
      | 3 =>
        let n := dstRun d r.w
        if r.buf.length < n then (engNeed s e r raw, false)
        else
          (match engPost s e r (dstAddr d r.w) (r.buf.take n) true raw with
            | (t, true) => ((engWrote t e r (r.buf.take n)).1, true)
            | (t, false) => (t, false))
      | 6 =>
        let len := blockLen d (r.w / 4096)
        (match r.rcd with
          | none => if r.buf.length < len then (engNeed s e r raw, false) else sealBlock s e r
          | some rcd =>
            if r.ct = [] then
              (match engPost s e r (dAux d + 32 * (r.w / 4096)) rcd false raw with
                | (t, true) => ((engWrote t e { r with rcd := none } (r.buf.take len)).1, true)
                | (t, false) => (t, false))
            else
              (match engPost s e r (dDst d + r.w + (len - r.ct.length)) (r.ct.take 64) true raw with
                | (t, true) => (setEng t e { r with ct := r.ct.drop 64 }, true)
                | (t, false) => (t, false)))
      | 7 =>
        let n := min 1024 (dTotal d - r.w)
        if r.buf.length < n then (engNeed s e r raw, false)
        else if !linkUsable s (dLink d) (chBerth s r.ch) then (haltEng (refusePayload s (dLink d)) e r.ch 0x0D, false)
        else
          let t := sendFrame s (dLink d) { kind := 0x01, stream := dStream d, more := false, body := r.buf.take n }
          ((engWrote t e r (r.buf.take n)).1, true)
      | _ =>
        let want := dstRun d r.w
        if isSealed op then
          (if r.buf ≠ [] then (fabricPut s e r (dstAddr d r.w) (min want r.buf.length), false)
           else
             match r.rcd with
             | some rcd => if r.ct.length < blockLen d (r.w / 4096) then (sealedNeed s e r raw, false) else openBlock s e r rcd
             | none => (sealedNeed s e r raw, false))
        else if op = 8 ∧ r.buf ≠ [] then (fabricPut s e r (dstAddr d r.w) (min want r.buf.length), false)
        else if r.buf.length < want then (engNeed s e r raw, false)
        else (fabricPut s e r (dstAddr d r.w) want, false)

/-- Moves until the engine waits; `fuel` bounds them. -/
def engPump : Nat → State → Nat → Option (Nat × Nat) → State
  | 0, s, _, _ => s
  | fuel + 1, s, e, raw =>
    match engMove s e raw with
    | (t, true) => engPump fuel t e raw
    | (t, false) => t

/-- A bound on the moves between two waits: a buffered block written byte by byte. -/
def engGo (s : State) (e : Nat) : State := engPump 8400 s e none

/-- The fill of a berth reaches Ferry: descriptors that waited are checked, and engines that waited for a
key go on. -/
def ferryFillArrive (s : State) (b : Nat) (f : Option KeyFill) : State :=
  let s1 := modFerry s (fun x => { x with keys := (b, f) :: x.keys.filter (fun e => e.1 != b) })
  let s2 := (berthChs s1 b).foldl (fun s c => if (s.ch c).state = .fetching ∧ (s.ch c).needKey then checkDesc s c else s) s1
  s2.ferry.engs.foldl (fun s x => if x.2.wait = .key ∧ 8 ≤ x.2.ch ∧ chBerth s x.2.ch = b then engGo s x.1 else s) s2

/-! ### Starting and ending (R500, R509, R510) -/

/-- Where a descriptor begins again: DONE rounded down to 64 bytes, or to a block for sealed ops (R513). -/
def startAt (d : Bytes) (done : Nat) : Nat := if isSealed (dOp d) then done / 4096 * 4096 else done / 64 * 64

def engNew (c w : Nat) : EngRun :=
  { ch := c, w := w, buf := [], ct := [], rcd := none, tries := 0, wait := .finished, bundle := 0, redo := 0 }

/-- What an engine begins with for a LINK_IN: at DONE between two bundles; after RESUME or an engine's fault at DONE rounded down,
with the bytes since then to be written again (R513). -/
def linkInNew (x : FerryCh) (c : Nat) : EngRun :=
  if x.again then { engNew c (x.done / 64 * 64) with buf := x.tail, redo := x.tail.length } else engNew c x.done

/-- The engine is in service and free (R562). -/
def engReady (s : State) (e : Nat) : Bool := decide (e < 8) && laneServes s (222 + e) && (tfind s.ferry.engs e).isNone

/-- Credit lets a descriptor start: it is not negative, or the share is 256/256, which limits nothing (R501). -/
def creditOk (x : FerryCh) : Bool := x.rate == 0xFF || decide (0 ≤ x.credit)

/-- Credit gained over `clocks`: SHARE/256 of 64 bytes a clock, up to 1 MiB (R501). -/
def creditGain (x : FerryCh) (clocks : Nat) : Int := min 4194304 (x.credit + (x.rate.toNat + 1) * clocks)

/-- The channel waits and only its credit holds it back. -/
def creditHeld (x : FerryCh) : Bool := x.state == .waiting && !creditOk x

/-- Time has passed for the channels that their credit holds back. -/
def creditLook (s : State) : State :=
  if s.ferry.chs.any (fun e => creditHeld e.2) then
    modFerry s (fun f => { f with looks := f.looks + 1, chs := f.chs.map (fun e =>
      (e.1, if creditHeld e.2 then { e.2 with credit := creditGain e.2 (Config.creditClocks f.looks) } else e.2)) })
  else s

/-- A descriptor's payload leaves the credit at its completion, down to -16 MiB (R501). -/
def creditTake (s : State) (c : Nat) : State :=
  modFerry (modCh s c (fun x => { x with
      credit := max (-67108864) (creditGain x (Config.creditClocks s.ferry.looks) - 4 * (dTotal x.desc : Int)) }))
    (fun f => { f with looks := f.looks + 1 })

/-- The channel waits and may take an engine: its credit lets it, an export has GO, a LINK_IN has a bundle. -/
def eligible (s : State) (c : Nat) : Bool :=
  let x := s.ch c
  x.state == .waiting && creditOk x && (!isExport (dOp x.desc) || x.hold == some .go) && (dOp x.desc != 8 || (match bundleLink s c with
    | some n => s.ferry.requests.contains (lanePeripheral s n)
    | none => false))

/-- The eligible channel that has waited longest. -/
def nextWaiting (s : State) : Option Nat :=
  ((s.ferry.chs.map (·.1)).filter (eligible s)).foldl
    (fun b c => match b with
      | none => some c
      | some k => if (s.ch c).place < (s.ch k).place then some c else some k) none

/-- The ready privileged channel with the lowest number. -/
def nextPrivileged (s : State) : Option Nat :=
  (List.range 8).find? (fun p => (s.pch p).busy && !s.ferry.engs.any (fun e => e.2.ch == p))

/-- A descriptor that an engine's fault cut off goes ahead of every waiting channel, a privileged one first and then the one with
the lowest number (R562; DESIGN CHOICE among several, log entry 42). -/
def nextRestart (s : State) : Option Nat :=
  match (List.range 8).find? (fun p => (s.pch p).busy && (s.pch p).restart && !s.ferry.engs.any (fun e => e.2.ch == p)) with
  | some p => some p
  | none => (s.ferry.chs.find? (fun x => x.2.state == .waiting && x.2.redo && x.2.place == 0)).map (·.1)

/-- A privileged descriptor begins, or begins again. -/
def startPch (s : State) (e p : Nat) : State :=
  let w := startAt (engDesc s p) (s.pch p).bytes
  engGo (setEng (modPch s p (fun x => { x with written := x.written.take w, restart := false })) e (engNew p w)) e

/-- A chained descriptor begins, or begins again. -/
def startCh (s : State) (e c : Nat) : State :=
  let d := (s.ch c).desc
  let s1 := modCh s c (fun x => { x with state := .running, again := false })
  if dOp d = 7 ∧ !linkUsable s (dLink d) (chBerth s c) then haltCh s1 c 0x0D
  else engGo (setEng s1 e (if dOp d = 8 then linkInNew (s.ch c) c else engNew c (startAt d (s.ch c).done))) e

/-- A free engine takes what an engine's fault cut off (R562), else the ready privileged channel with the lowest number, else the
eligible chained channel that has waited longest (R500). -/
def engineStart (s : State) (e : Nat) : State :=
  if !engReady s e then s
  else
    match nextRestart s with
    | some c => if c < 8 then startPch s e c else startCh s e c
    | none =>
      match nextPrivileged s with
      | some p => startPch s e p
      | none =>
        let s0 := creditLook s
        match nextWaiting s0 with
        | none => s0
        | some c => startCh s0 e c

def execEngineStart (eng : Nat) (s : State) : Out := whenRunning s (engineStart · eng)

/-- A chained descriptor is over: STOP halts, a clear LAST leads to NEXT, a set one to the end of the chain or, after a
new doorbell, to one more read of the tail. -/
def chainNext (s : State) (c : Nat) : State :=
  let x := s.ch c
  if x.stop then haltCh s c 0x10
  else if !dFlag x.desc 0 then fetchAt s c (dNext x.desc)
  else if x.dbcount = x.cap then s.setCh c { x with state := .idle }
  else fetch s c .reread none

def descriptorDone (s : State) (e : Nat) : State :=
  match tfind s.ferry.engs e with
  | none => s
  | some r =>
    if r.wait ≠ .finished then s
    else if r.ch < 8 then pchEnd (freeEng s e) r.ch 0x00
    else
      let d := (s.ch r.ch).desc
      let s1 := exportOver (modCh (creditTake (freeEng s e) r.ch) r.ch (fun x => { x with descCnt := x.descCnt + 1, hold := none })) r.ch
      chainNext (if dFlag d 1 then chIrq s1 r.ch else s1) r.ch

def execDescriptorDone (eng : Nat) (s : State) : Out := whenRunning s (descriptorDone · eng)

/-! ### Cutting a descriptor short (R500, R512) -/

/-- The engine that runs a channel lets go of it: a host read is abandoned and its tag quarantined, a fabric request
runs out under `noCh`. -/
def cutEng (s : State) (c : Nat) : State :=
  match s.ferry.engs.find? (fun e => e.2.ch == c) with
  | none => s
  | some (e, r) =>
    match r.wait with
    | .fabricRead _ _ => reassert (setEng s e { r with ch := noCh }) c
    | .fabricWrite _ => reassert (setEng s e { r with ch := noCh }) c
    | _ => reassert (freeEng s e) c

/-- Every outstanding read of a channel abandoned, and nothing of it issued again. -/
def abandonReads (s : State) (c : Nat) : State :=
  let mine (r : HostReq) : Bool := r.ch == c && (match r.use with
    | .trans _ _ => false
    | _ => true)
  let s1 := (s.host.reqs.filter mine).foldl (fun s r => reqQuarantine s { r with abandoned := true }) s
  modHost s1 (fun h => { h with failed := h.failed.filter (fun r => !mine r) })

/-- A channel cut short with a cause: Bus Master Enable cleared, or its link closed. -/
def cutCh (s : State) (c : Nat) (cause : Byte) : State := haltCh (abandonReads (cutEng s c) c) c cause

/-- A berth's channels SILENCED (R323, R540). -/
def silenceBerth (s : State) (b : Nat) : State :=
  (berthChs s b).foldl (fun s c =>
    modCh (exportOver (abandonReads (cutEng s c) c) c) c
      (fun x => { x with state := .silenced, needKey := false, stop := false, stuck := none, hold := none })) s

/-- A channel reset (step 4 of R323). -/
def resetBerthChs (s : State) (b : Nat) : State :=
  (berthChs s b).foldl (fun s c => modFerry s (fun f => { f with chs := tdel f.chs c })) s

/-- Bus Master Enable of a VF cleared (R512): every channel not IDLE halts; one that is HALTED keeps its cause (log entry 162). -/
def masterCleared (s : State) (b : Nat) : State :=
  (berthChs s b).foldl (fun s c =>
    match (s.ch c).state with
    | .idle => s
    | .halted => s
    | .silenced => s
    | _ => cutCh s c 0x0C) s

/-- A link has closed (R378, R507): its LINK_OUT descriptors end. -/
def linkFails (s : State) (n : Nat) : State :=
  (s.ferry.engs.map (·.2.ch)).foldl (fun s c =>
    if 8 ≤ c ∧ c < noCh ∧ dOp (s.ch c).desc = 7 ∧ dLink (s.ch c).desc = n then cutCh s c 0x0D else s) s

/-! ### Responses (R511) -/

/-- A host read's bytes reach what asked for them. -/
def deliverRead (s : State) (r : HostReq) (data : Bytes) : State :=
  match r.use with
  | .fetch c => if (s.ch c).state = .fetching ∧ !(s.ch c).needKey then takeDesc s c data else s
  | .data e =>
    (match tfind s.ferry.engs e with
      | some x =>
        if x.wait = .host r.tag ∧ x.ch = r.ch then
          engGo (setEng s e (if isSealed (dOp (engDesc s x.ch)) then { x with ct := x.ct ++ data, tries := 0 }
            else { x with buf := x.buf ++ data, tries := 0 })) e
        else s
      | none => s)
  | .rcd e =>
    (match tfind s.ferry.engs e with
      | some x => if x.wait = .host r.tag ∧ x.ch = r.ch then engGo (setEng s e { x with rcd := some data, tries := 0 }) e else s
      | none => s)
  | .trans _ _ => s

/-- The engine or channel that waits for a request fails with a cause. -/
def failUse (s : State) (r : HostReq) (cause : Byte) : State :=
  match r.use with
  | .fetch c => if (s.ch c).state = .fetching then haltCh s c cause else s
  | .data e => haltEng s e r.ch cause
  | .rcd e => haltEng s e r.ch cause
  | .trans _ _ => s

/-- An MSI-X message of a function waits for a translation. -/
def waitsAt (s : State) (fn v : Nat) : Bool := (s.fn (fnAt fn)).msixWait.getLsbD v

/-- Everything of a function that waits for a range fails with a cause. -/
def failRange (s : State) (fn range : Nat) (cause : Byte) : State :=
  let s1 := s.ferry.engs.foldl (fun s e =>
    if e.2.wait = .page range ∧ 8 ≤ e.2.ch ∧ e.2.ch < noCh ∧ chFn s e.2.ch = fn then haltEng s e.1 e.2.ch cause else s) s
  let s2 := (berthChs s1 (fn - 2)).foldl (fun s c =>
    if (s.ch c).state = .fetching ∧ (s.ch c).stuck = some range then haltCh s c cause else s) s1
  (List.range 10).foldl (fun s v =>
    if waitsAt s fn v ∧ rangeOf (msixAddr (s.fn (fnAt fn)) v) = range then
      modFn s (fnAt fn) (fun x => { x with msixWait := x.msixWait &&& ~~~(1#10 <<< v), msixCause := cause })
    else s) s2

/-- A translation or page request for a range is outstanding. -/
def rangeBusy (s : State) (fn range : Nat) : Bool :=
  s.host.reqs.any (asksRange fn range) || s.host.failed.any (asksRange fn range) ||
    s.host.pages.any (fun p => p.fn == fn && p.range == range && !p.dead)

/-- Everything of a function that waits for a range with nothing outstanding tries again. -/
def wakeFn (s : State) (fn : Nat) (raw : Option (Nat × Nat)) : State :=
  let s1 := s.ferry.engs.foldl (fun s e =>
    match e.2.wait with
    | .page g => if 8 ≤ e.2.ch ∧ e.2.ch < noCh ∧ chFn s e.2.ch = fn ∧ !rangeBusy s fn g then engPump 8400 s e.1 raw else s
    | _ => s) s
  let s2 := (berthChs s1 (fn - 2)).foldl (fun s c =>
    match (s.ch c).state, (s.ch c).stuck with
    | .fetching, some g => if rangeBusy s fn g then s else fetch s c (s.ch c).why raw
    | _, _ => s) s1
  (List.range 10).foldl (fun s v =>
    if waitsAt s fn v ∧ !rangeBusy s fn (rangeOf (msixAddr (s.fn (fnAt fn)) v)) then
      msixSend (modFn s (fnAt fn) (fun x => { x with msixWait := x.msixWait &&& ~~~(1#10 <<< v) })) raw (fnAt fn) v
    else s) s2

/-- An effect that may free a tag: what waited for one goes on (R545). -/
def withTags (fn : Nat) (f : State → State) (s : State) : State :=
  if !tagReady s fn && tagReady (f s) fn then wakeFn (f s) fn none else f s

/-- The RETRY that a channel's descriptor runs under: a write meanwhile holds from the next one (R8). -/
def retryOf (s : State) (c : Nat) : Nat := if c < 8 then (s.pch c).retryNow.toNat else (s.ch c).retryNow.toNat

/-- A request ended in a host error: it is issued again later, or its channel halts with 0x0A. -/
def hostError (s : State) (r : HostReq) : State :=
  if r.tries < retryOf s r.ch then
    let s1 := modHost s (fun h => { h with failed := h.failed ++ [{ r with got := [] }] })
    match r.use with
    | .data e => modFerry s1 (fun f => { f with engs := f.engs.map (fun x => if x.1 = e then (x.1, { x.2 with wait := .again }) else x) })
    | .rcd e => modFerry s1 (fun f => { f with engs := f.engs.map (fun x => if x.1 = e then (x.1, { x.2 with wait := .again }) else x) })
    | _ => s1
  else
    match r.use with
    | .trans g _ => failRange s r.fn g 0x0A
    | _ => failUse s r 0x0A

/-- HOST_REQUEST_RETRY (R511): the failed request alone, with a new tag. -/
def requestRetry (s : State) (fn tag : Nat) : State :=
  match s.host.failed.find? (fun r => r.fn == fn && r.tag == tag) with
  | none => s
  | some r =>
    let s1 := modHost s (fun h => { h with failed := h.failed.erase r })
    if !(s.fn (fnAt fn)).bme then
      (match r.use with
        | .trans g _ => failRange s1 fn g 0x0C
        | _ => failUse s1 r 0x0C)
    else
      match r.use with
      | .trans g w => askTrans s1 fn r.ch g w (r.tries + 1)
      | .fetch c =>
        (match translate s1 none fn r.addr false with
          | .go at_ tr used =>
            if tagReady s1 fn then issueRead s1 fn c r.use r.addr r.len at_ tr used (r.tries + 1) false else fetchStuck s1 c
          | .miss => transMiss (fetchStuck s1 c) fn c (rangeOf r.addr) false
          | .denied => haltCh s1 c 0x0E)
      | .data e =>
        (match tfind s1.ferry.engs e with
          | some x => engRead s1 e { x with tries := r.tries + 1 } r.use r.addr r.len true (roOf s1 fn (dFlag (engDesc s1 r.ch) 2)) none
          | none => s1)
      | .rcd e =>
        (match tfind s1.ferry.engs e with
          | some x => engRead s1 e { x with tries := r.tries + 1 } r.use r.addr r.len false false none
          | none => s1)

def execHostRequestRetry (fn : Func) (tag : Nat) (s : State) : Out := whenRunning s (requestRetry · (fnIx fn) tag)

/-- An unexpected completion (R546): discarded and counted; reported unless its request was abandoned. -/
def unexpected (s : State) (fn : Nat) (abandoned : Bool) : State :=
  let s1 := hgCount s fn 3
  if abandoned then s1 else aer s1 (fnAt fn) 2

/-- A completion for a tag in quarantine: discarded; the last one releases the tag. One that comes before its request's
timeout, for an abandoned request, is no error (R541). -/
def lateCompletion (s : State) (r : HostReq) (c : HostCpl) : State :=
  let last := c.status != .ok || decide (c.byteCount ≤ c.data.length)
  let s1 := if r.timedOut then unexpected s r.fn r.abandoned else s
  if last then
    modHost s1 (fun h => releaseTag (invalsLess { h with quarantine := h.quarantine.erase r } r.fn r.tag) r.fn r.tag)
  else s1

/-- HOST_COMPLETION (R511, R546). -/
def hostCompletion (s : State) (fn tag : Nat) (c : HostCpl) : State :=
  match s.host.quarantine.find? (fun r => r.fn == fn && r.tag == tag) with
  | some r => lateCompletion s r c
  | none =>
    match findReq s fn tag with
    | none => unexpected s fn false
    | some r =>
      match r.use with
      | .trans _ _ => unexpected s fn false
      | _ =>
        if c.byteCount ≠ r.len - r.got.length ∨ c.lowerAddr ≠ (r.addr + r.got.length) % 128 then unexpected s fn false
        else
          match c.status with
          | .ur => failUse (reqDone s fn tag) r 0x0B
          | .ca => hostError (reqDone s fn tag) r
          | .poisoned => hostError (reqDone s fn tag) r
          | .ok =>
            let got := r.got ++ c.data.take (r.len - r.got.length)
            if got.length ≥ r.len then deliverRead (reqDone s fn tag) r got
            else modHost s (fun h => { h with reqs := h.reqs.map (fun q => if q = r then { r with got := got } else q) })

def execHostCompletion (fn : Func) (tag : Nat) (c : HostCpl) (s : State) : Out := whenHost s (withTags (fnIx fn) (hostCompletion · (fnIx fn) tag c))

/-- DESCRIPTOR_FETCH_DONE (R495): the 64 bytes a fetching channel asked for. -/
def execDescriptorFetchDone (ch : Nat) (desc : Bytes) (s : State) : Out :=
  whenHost s (fun s =>
    match s.host.reqs.find? (fun r => r.use == .fetch ch) with
    | some r => deliverRead (reqDone s r.fn r.tag) r desc
    | none => s)

/-- COMPLETION_TIMEOUT (R544): the request's tag goes into quarantine, and Ferry hears of it unless it was abandoned. -/
def completionTimeout (s : State) (fn tag : Nat) : State :=
  match findReq s fn tag with
  | some r =>
    let s1 := reqQuarantine s { r with timedOut := true }
    hostError (aer (hgCount s1 fn 4) (fnAt fn) 1) r
  | none =>
    if s.host.quarantine.any (fun q => q.fn == fn && q.tag == tag) then
      modHost s (fun h => invalsLess { h with
        quarantine := h.quarantine.map (fun q => if q.fn = fn ∧ q.tag = tag then { q with timedOut := true } else q) } fn tag)
    else s

def execCompletionTimeout (fn : Func) (tag : Nat) (s : State) : Out := whenRunning s (completionTimeout · (fnIx fn) tag)

/-- TAG_QUARANTINE_EXPIRY (R545). -/
def execTagQuarantineExpiry (fn : Func) (tag : Nat) (s : State) : Out :=
  whenRunning s (withTags (fnIx fn) (fun s =>
    match s.host.quarantine.find? (fun r => r.fn == fnIx fn && r.tag == tag) with
    | some r => modHost s (fun h => releaseTag (invalsLess { h with quarantine := h.quarantine.erase r } r.fn r.tag) r.fn r.tag)
    | none => s))

/-- FABRIC_RESPONSE (R511): a Pier answers the engine's line. An ABORT of a privileged descriptor takes effect here. -/
def fabricResponse (s : State) (e : Nat) (resp : LineResp) (data : Bytes) : State :=
  match tfind s.ferry.engs e with
  | none => s
  | some r =>
    let s1 := match r.wait with
      | .fabricRead _ _ => some s
      | .fabricWrite _ => some s
      | _ => none
    match s1 with
    | none => s
    | some s =>
      if r.ch = noCh then freeEng s e
      else
        match resp with
        | .accessErr => haltEng s e r.ch 0x08
        | .poison => haltEng s e r.ch 0x09
        | .ok =>
          let s2 := match r.wait with
            | .fabricRead o n => setEng s e { r with buf := r.buf ++ slice (padTo 64 data) o n }
            | .fabricWrite n => (engWrote s e r (r.buf.take n)).1
            | _ => s
          if r.ch < 8 ∧ (s.pch r.ch).cause = 0x10 then pchEnd (freeEng s2 e) r.ch 0x10 else engGo s2 e

def execFabricResponse (eng : Nat) (r : LineResp) (data : Bytes) (s : State) : Out := whenRunning s (fabricResponse · eng r data)

/-! ### Privileged channels (R510) -/

def pchGo (s : State) (p : Nat) : State :=
  if 8 ≤ p ∨ (s.pch p).busy then s
  else
    let s1 := modPch s p (fun x => { x with
      busy := true, restart := false, halted := false, cause := 0, bytes := 0, written := [], retryNow := x.retry })
    let cause := descShape (engDesc s p) true
    if cause ≠ 0 then pchEnd s1 p cause else s1

/-- A privileged descriptor that would write an image area between its measurement and the chiplets' acknowledgements (R118). -/
def areaHit (s : State) (p : Nat) : Bool :=
  let d := engDesc s p
  let top := dDst d + (dDstCount d - 1) * dDstStride d + dDstLine d
  s.board.areas.any (fun a => a.2.digest.isSome && decide (dDst d < (areaMib a.1 + 2) * 1048576) && decide (areaMib a.1 * 1048576 < top))

/-- FERRY_PCH_GO: Pilot issues no descriptor that R118 holds back. -/
def execFerryPchGo (p : Nat) (s : State) : Out := whenPilot s (fun s => if areaHit s p then s else pchGo s p)

/-- ABORT: at the next line boundary, which is the response of a line in flight. -/
def pchAbort (s : State) (p : Nat) : State :=
  if !(s.pch p).busy then s
  else
    match s.ferry.engs.find? (fun e => e.2.ch == p) with
    | none => pchEnd s p 0x10
    | some (e, r) =>
      match r.wait with
      | .fabricRead _ _ => modPch s p (fun x => { x with cause := 0x10 })
      | .fabricWrite _ => modPch s p (fun x => { x with cause := 0x10 })
      | _ => pchEnd (freeEng s e) p 0x10

def execFerryPchAbort (p : Nat) (s : State) : Out := whenPilot s (pchAbort · p)

/-! ### The map (R344, R518) -/

/-- FERRY_COMMIT.GO: every staged entry takes effect at once. A sequence number already applied is applied no second time. R518 has a
staged REL of 8-15 refused at COMMIT; a COMMIT that the block refuses changes nothing in effect (R9), so one such entry refuses the
whole COMMIT, which then takes no sequence number (DEDUCED, log entry 170). -/
def ferryCommit (s : State) (seq : BitVec 16) : State :=
  if s.ferry.lastSeq = some seq ∨ s.ferry.mapsStaged.any (fun m => decide (8 ≤ m.2.rel.toNat)) = true then s
  else
    modFerry s (fun f => { f with
      maps := f.mapsStaged.foldl (fun t m => tset t m.1 m.2) f.maps
      lastSeq := some seq })

def execFerryCommit (seq : BitVec 16) (s : State) : Out := whenPilot s (ferryCommit · seq)

end Sys2Proof.Machine
end

