-- ==== Sys2Proof/Machine/Staging.lean ====
section
/-! DEFINITION. The staging of the chiplets' images by Ferry (03, 14), and the commands that begin it: the cores' messages, the
waves, and a site boarded alone. -/

namespace Sys2Proof.Machine

/-! ### Staging (R117-R119, R510) -/

/-- The FLASH_IN descriptor that brings a part's payload from the booted source into an image area (R493, R494). -/
def stageDesc (s : State) (e : Bytes) (a : Nat) : Bytes :=
  let n := pLength e - 64
  [0x09, 0, 0, 0] ++ toLe 4 0xFFFFFFFF ++ toLe 8 (bootedBase s + pOffset e + 64) ++ toLe 8 (areaMib a * 1048576) ++ zeros 8 ++
    toLe 4 n ++ toLe 4 n ++ toLe 4 n ++ toLe 4 n ++ toLe 2 1 ++ toLe 2 1 ++ zeros 4

/-- A site's image: staged once in its area, by the privileged channel of the area's number, with the digest of what lands; a
site that shares a staged area joins those that must acknowledge. -/
def stageSite (s : State) (k : Nat) : State :=
  match siteImage s k with
  | none => s
  | some e =>
    let a := areaOf s k
    let part := leAt (bootedSite s k) 8 1
    match tfind s.board.areas a with
    | some x => if x.part = part then
        { s with board := { s.board with areas := tset s.board.areas a { x with due := x.due ++ [k] } } } else s
    | none =>
      if !stackUp s 0 then s
      else
        let s1 := { s with board := { s.board with areas := tset s.board.areas a { part := part, digest := none, due := [k] } } }
        pchGo (modPch s1 a (fun x => { x with desc := mOf (stageDesc s1 e a), digestEn := true })) a

/-- The images of a wave. -/
def stageWave (s : State) (w : Nat) : State := ((List.range 4).map (4 * w + ·)).foldl stageSite s

/-! ### Messages of the management cores (R97, R114) -/

/-- Pilot acts on the message in BOARD_MGMT_IN. Memory training ends its wait, and wave 0 is staged (R119). -/
def mgmtAct (s : State) : State :=
  if !s.board.mgmtDue ∨ !pilotUp s then s
  else
    let s1 := { s with board := { s.board with mgmtDue := false } }
    let m := mread 0 s.board.mgmtIn 0 64
    match (byteAt m 0).toNat with
    | 1 => if s1.pilot.memTrained then s1
      else stageWave (memTrained s1 (BitVec.ofNat 8 (leAt m 1 1)) (BitVec.ofNat 16 (leAt m 2 2))) 0
    | 2 => { s1 with pilot := { s1.pilot with links := s1.pilot.links ||| BitVec.ofNat 48 (leAt m 1 6) } }
    | _ => if unknownType (byteAt m 0) then outGo { s1 with board := { s1.board with mgmtOut := mOf (padTo 64 [0x04]) } } else s1

/-- A message of the cores lands, and Pilot, if it runs, acts on it. -/
def mgmtIn (s : State) (msg : Bytes) : State := mgmtAct (mgmtLand s msg)

/-- MEM_TRAINED. -/
def execMemTrained (stackMap : BitVec 8) (ports : BitVec 16) (s : State) : Out :=
  whenRunning s (mgmtIn · ([0x01] ++ toLe 1 stackMap.toNat ++ toLe 2 ports.toNat))

/-- LINK_TRAINED. -/
def execLinkTrained (links : BitVec 48) (s : State) : Out := whenRunning s (mgmtIn · ([0x02] ++ toLe 6 links.toNat))

/-- ACK: it lands and asks for nothing. -/
def execAck (msg : Bytes) (s : State) : Out := whenRunning s (mgmtIn · (0x03 :: msg.drop 1))

/-- UNKNOWN: any other message. -/
def execUnknown (msg : Bytes) (s : State) : Out := whenRunning s (mgmtIn · msg)

/-! ### Waves and a site alone (R115, R119, R124) -/

/-- A wave begins once memory has trained and the wave before it has ended; the next wave's images are staged while it boards. -/
def waveStart (s : State) : State :=
  if !s.pilot.memTrained ∨ 3 ≤ s.board.wave ∨ s.board.slot.isSome then s
  else
    let s1 := waveGo s
    if s.board.wave < 2 then stageWave s1 (s.board.wave + 1) else s1

/-- BOARDING_WAVE_START, with what every site's adapter reports; after the last wave it tells that alone (DESIGN CHOICE, log
entry 142). -/
def execBoardingWaveStart (present trained : BitVec 12) (s : State) : Out :=
  whenRunning s (fun s => let s1 := siteReports s present trained; if pilotUp s then waveStart s1 else s1)

/-- SITE_REBOARD (R124, R538): the image is staged at the start of half A, and then the site boards; one without an image boards
at once. -/
def siteReboard (s : State) (body : Bytes) : State :=
  let k := leAt body 0 1
  let answer (s : State) (st : Byte) : State := reply s .pf0 0x14 [st, 0, 0, 0]
  if body.length ≠ 4 then replyMs s .pf0 0x14 0x05 []
  else if 12 ≤ k then answer s 0x03
  else if siteServes s k then answer s 0x01
  else if s.board.slot.isSome ∨ !s.board.logClosed then answer s 0x02
  else
    let s1 := s.setSite k { s.site k with reboard := true, answer := true, step := .idle }
    let s2 := stageSite { s1 with board := { s1.board with slot := some [k] } } k
    if (s2.site k).reboard && (s2.site k).step == .idle && !(tfind s2.board.areas 0).any (fun a => a.digest.isNone) then reboardGo s2 k else s2

def execSiteReboard (body : Bytes) (s : State) : Out := whenPilot s (siteReboard · body)

end Sys2Proof.Machine
end

