-- ==== Sys2Proof/Machine/PressArith.lean ====
section
/-! DEFINITION. Press arithmetic (12): the number formats, exact products and sums, rounding, the references of profiles
P0 to P3 and the comparison with what the chiplet wrote. A finite number is a sign and a magnitude in a fixed unit:
2^-160 for an element and a result, 2^-320 for products and sums, so that everything is exact. -/

namespace Sys2Proof.Machine

/-- A value: NaN, an infinity, or a signed magnitude in the unit at hand. -/
inductive Num where
  | nan
  | inf (neg : Bool)
  | fin (neg : Bool) (mag : Nat)
  deriving DecidableEq, Repr

/-! ### Formats (R429-R431) -/

/-- Special values of a floating format. -/
inductive FpSpecial where
  | ieee | e4m3 | none
  deriving DecidableEq, Repr

/-- Exponent bits, mantissa bits, bias and special values of a floating format code. -/
def fpFormat (f : Nat) : Option (Nat × Nat × Nat × FpSpecial) :=
  match f with
  | 0x01 => some (8, 7, 127, .ieee)
  | 0x02 => some (5, 10, 15, .ieee)
  | 0x03 => some (4, 3, 7, .e4m3)
  | 0x04 => some (5, 2, 15, .ieee)
  | 0x07 => some (4, 3, 7, .e4m3)
  | 0x08 => some (5, 2, 15, .ieee)
  | 0x09 => some (3, 2, 3, .none)
  | 0x0A => some (2, 3, 1, .none)
  | 0x0B => some (2, 1, 1, .none)
  | 0x0C => some (8, 23, 127, .ieee)
  | _ => none

/-- Bits of an element. -/
def fmtBits (f : Nat) : Nat :=
  match f with
  | 0x01 => 16
  | 0x02 => 16
  | 0x06 => 4
  | 0x09 => 6
  | 0x0A => 6
  | 0x0B => 4
  | 0x0C => 32
  | 0x0D => 32
  | _ => 8

def isMx (f : Nat) : Bool := decide (7 ≤ f ∧ f ≤ 0x0B)
def isIntFmt (f : Nat) : Bool := f ∈ [5, 6, 0x0D]
def isFpFmt (f : Nat) : Bool := (fpFormat f).isSome
/-- Formats an input may have, and a floating product's result. -/
def isInput (f : Nat) : Bool := decide (1 ≤ f ∧ f ≤ 0x0C)
def isFpOutput (f : Nat) : Bool := f ∈ [1, 2, 3, 4, 0x0C]

/-- MAC per clock times 6, which is whole for FP32 too. -/
def macRate6 (f : Nat) : Nat :=
  match f with
  | 0x01 => 12288
  | 0x02 => 12288
  | 0x06 => 49152
  | 0x09 => 49152
  | 0x0A => 49152
  | 0x0B => 49152
  | 0x0C => 2048
  | _ => 24576

/-- TILE_CLOCKS (R430, R443). -/
def tileClocks (fa fb k : Nat) : Nat := ceilDiv (16384 * k * 6) (min (macRate6 fa) (macRate6 fb))

/-- A magnitude of 2^e times m, for a whole e given as `e - off`, in units of 2^-160. -/
def mag160 (m e off : Nat) : Nat := m * 2 ^ (160 + e - off)

/-- A floating element's value (R429): subnormals honoured. -/
def fpDecode (f c : Nat) : Num :=
  match fpFormat f with
  | none => .fin false 0
  | some (eb, m, bias, sp) =>
    let neg := nbit c (eb + m)
    let ex := c / 2 ^ m % 2 ^ eb
    let man := c % 2 ^ m
    let top := 2 ^ eb - 1
    if sp = .ieee ∧ ex = top then (if man = 0 then .inf neg else .nan)
    else if sp = .e4m3 ∧ ex = top ∧ man = 2 ^ m - 1 then .nan
    else if ex = 0 then .fin neg (mag160 man 1 (bias + m))
    else .fin neg (mag160 (man + 2 ^ m) ex (bias + m))

/-- Two's complement of an element. -/
def intDecode (f c : Nat) : Int :=
  let w := fmtBits f
  let v := c % 2 ^ w
  if nbit v (w - 1) then (v : Int) - 2 ^ w else v

/-- An element with its MX scale byte (R431). -/
def scaled (f : Nat) (scale : Nat) (x : Num) : Num :=
  if !isMx f then x
  else if scale = 0xFF then .nan
  else
    match x with
    | .fin n m => .fin n (m * 2 ^ scale / 2 ^ 127)
    | y => y

/-! ### Rounding (R433) -/

/-- A magnitude rounded to a multiple of 2^sh, ties to even. -/
def roundTo (mag sh : Nat) : Nat :=
  let q := mag / 2 ^ sh
  let r := mag % 2 ^ sh
  if 2 * r > 2 ^ sh ∨ (2 * r = 2 ^ sh ∧ q % 2 = 1) then (q + 1) * 2 ^ sh else q * 2 ^ sh

/-- The largest finite magnitude of a format, in units of 2^-u. -/
def maxFinite (f u : Nat) : Nat :=
  match fpFormat f with
  | none => 0
  | some (eb, m, bias, sp) =>
    let ex := if sp = .ieee then 2 ^ eb - 2 else 2 ^ eb - 1
    let man := if sp = .e4m3 then 2 ^ (m + 1) - 2 else 2 ^ (m + 1) - 1
    man * 2 ^ (u + ex - bias - m)

/-- The exponent, in units of 2^-u, that governs the spacing of a format at a magnitude. -/
def spacingExp (f u mag : Nat) : Nat :=
  match fpFormat f with
  | none => 0
  | some (_, _, bias, _) => max (Nat.log2 mag) (u + 1 - bias)

/-- Mantissa bits of a format. -/
def mantissa (f : Nat) : Nat := ((fpFormat f).map (fun x => x.2.1)).getD 0

/-- An infinite result in a format: ±448 in E4M3, which has no infinity. -/
def infIn (f u : Nat) (neg : Bool) : Num := if f = 3 ∨ f = 7 then .fin neg (maxFinite f u) else .inf neg

/-- RNE(x, format), with overflow to infinity or to ±448; a zero keeps its sign, and a value rounded to zero its own. -/
def rne (f u : Nat) (x : Num) : Num :=
  match x with
  | .nan => .nan
  | .inf n => infIn f u n
  | .fin n mag =>
    if mag = 0 then .fin n 0
    else
      let r := roundTo mag (spacingExp f u mag - mantissa f)
      if maxFinite f u < r then infIn f u n else .fin n r

/-! ### Products and sums (R432) -/

def numNeg : Num → Bool
  | .nan => false
  | .inf n => n
  | .fin n _ => n
def isNan (x : Num) : Bool := x == .nan
def isInf : Num → Bool
  | .inf _ => true
  | _ => false
def isNegZero (x : Num) : Bool := x == .fin true 0

/-- The signed value of a finite number. -/
def signed : Num → Int
  | .fin true m => -(m : Int)
  | .fin false m => m
  | _ => 0

/-- A signed value as a number; a zero takes the sign given. -/
def ofInt (v : Int) (zeroNeg : Bool) : Num := if v = 0 then .fin zeroNeg 0 else .fin (decide (v < 0)) v.natAbs

/-- The exact product of two elements, in units of 2^-320. -/
def prod (a b : Num) : Num :=
  match a, b with
  | .nan, _ => .nan
  | _, .nan => .nan
  | .inf n, .inf k => .inf (n != k)
  | .inf n, .fin k m => if m = 0 then .nan else .inf (n != k)
  | .fin n m, .inf k => if m = 0 then .nan else .inf (n != k)
  | .fin n m, .fin k l => .fin (n != k) (m * l)

/-- An element carried to units of 2^-320. -/
def widen : Num → Num
  | .fin n m => .fin n (m * 2 ^ 160)
  | x => x

/-- NaN or the infinity that a sum of terms comes to; none if every term is finite. -/
def special (ts : List Num) : Option Num :=
  let pos := ts.any (fun t => t == .inf false)
  let neg := ts.any (fun t => t == .inf true)
  if ts.any isNan || (pos && neg) then some .nan
  else if pos then some (.inf false)
  else if neg then some (.inf true)
  else none

/-- The exact sum; an exact zero is +0 unless every term is -0. -/
def exactSum (ts : List Num) : Num :=
  match special ts with
  | some x => x
  | none => ofInt (ts.foldl (fun v t => v + signed t) 0) (!ts.isEmpty && ts.all isNegZero)

/-- A value has the eight significant bits of BF16. -/
def bf16Bits (v : Int) : Bool := v.natAbs % 2 ^ (Nat.log2 v.natAbs - 7) == 0

/-- A value rounded to eight significant bits, ties to even. -/
def bf16Near (v : Int) : Int :=
  let r := roundTo v.natAbs (Nat.log2 v.natAbs - 7)
  if v < 0 then -(r : Int) else r

/-- The first two parts of an FP32 value split by rounding: they meet R435 for every pair of operands. -/
def splitNear (a : Int) : Int × Int := (bf16Near a, bf16Near (a - bf16Near a))

/-- The first two parts of an FP32 value: the array's own split, which is open (log entry 43), where its three parts are BF16 and come
to the value exactly. -/
def fp32Split (neg : Bool) (m : Nat) : Int × Int :=
  let a := signed (.fin neg m)
  let p := Config.fp32Parts neg m
  if bf16Bits p.1 && bf16Bits p.2 && bf16Bits (a - p.1 - p.2) then p else splitNear a

/-- Six of the nine cross products of the parts of `a` and `b`, without the three smallest. -/
def sixProducts (a b : Int) (p q : Int × Int) : Int :=
  p.1 * q.1 + p.1 * q.2 + p.2 * q.1 + p.2 * q.2 + p.1 * (b - q.1 - q.2) + (a - p.1 - p.2) * q.1

/-- Press's product of FP32 operands: six cross products of their parts, in error by at most 2^-22 of the product (R435). -/
def fp32Prod (a b : Num) : Num :=
  match a, b with
  | .fin n m, .fin k l =>
    let x := signed a
    let y := signed b
    let v := sixProducts x y (fp32Split n m) (fp32Split k l)
    ofInt (if (v - x * y).natAbs * 2 ^ 22 ≤ (x * y).natAbs then v else sixProducts x y (splitNear x) (splitNear y)) (n != k)
  | _, _ => prod a b

/-! ### References (R433, R434) -/

/-- P0: the exact sum wrapped or saturated to 32 bits. -/
def refP0 (acc : Nat) (v : Int) : Int :=
  if acc = 0x10 then (v + 2 ^ 31) % 2 ^ 32 - 2 ^ 31
  else max (-(2 ^ 31)) (min (2 ^ 31 - 1) v)

/-- The accumulator format of an ACC code of P2. -/
def accFormat (acc : Nat) : Nat := if acc = 1 then 0x0C else if acc = 2 then 2 else 1

/-- One chunk added to the accumulator and rounded once. -/
def accAdd (f : Nat) (first : Bool) (acc part : Num) : Num :=
  if first then rne f 320 part
  else
    match special [acc, part] with
    | some x => rne f 320 x
    | none => rne f 320 (ofInt (signed acc + signed part) (isNegZero acc && isNegZero part))

/-- The chunks of R434 in ascending order of k; `fuel` bounds their number. -/
def chunkSums (f s : Nat) : Nat → Bool → Num → List Num → Num
  | 0, _, acc, _ => acc
  | _ + 1, _, acc, [] => acc
  | fuel + 1, first, acc, p :: ps => chunkSums f s fuel false (accAdd f first acc (exactSum ((p :: ps).take s))) ((p :: ps).drop s)

/-- P2: special values over the whole sum first (R432); else the ordered model. -/
def refP2 (acc param fc : Nat) (ps : List Num) (d : Option Num) : Num :=
  match special (ps ++ d.toList) with
  | some x => rne fc 320 x
  | none =>
    let f := accFormat acc
    let a0 := match d with
      | some x => rne f 320 x
      | none => .fin false 0
    rne fc 320 (chunkSums f (2 ^ (param % 16)) (ps.length + 1) d.isNone a0 ps)

/-! ### Comparison (R433, R435) -/

/-- A finite or special C against a reference bit for bit; a NaN matches any NaN. -/
def sameNum (c r : Num) : Bool := c == r

/-- |C - R| within the tolerance of P3, everything times 2^30 so that it is whole: u / 256 of K spacings at P_max, and
for FP32 inputs K × 2^-22 × P_max more. -/
def withinP3 (fc u k : Nat) (pmax : Nat) (fp32 : Bool) (c r : Int) : Bool :=
  let ulp := if pmax = 0 then 0 else 2 ^ (spacingExp fc 320 pmax - mantissa fc)
  decide ((c - r).natAbs * 2 ^ 30 ≤ u * k * ulp * 2 ^ 22 + (if fp32 then k * pmax * 2 ^ 8 else 0))

/-- P3: a finite C passes if it equals RNE(R) or lies within the tolerance; a NaN or infinity only as R433 says. -/
def passP3 (fc u k : Nat) (fp32 : Bool) (ps : List Num) (pmax : Nat) (d : Option Num) (c : Num) : Bool :=
  let r := exactSum (ps ++ d.toList)
  if sameNum c (rne fc 320 r) then true
  else
    match c, r with
    | .fin _ _, .fin _ _ => withinP3 fc u k pmax fp32 (signed c) (signed r)
    | _, _ => false

/-! ### The declaration (R422-R424) -/

def declVersion (d : Bytes) : Nat := leAt d 0 1
def declKind (d : Bytes) : Nat := leAt d 1 1
def declProfile (d : Bytes) : Nat := leAt d 2 1 % 4
def declLast (d : Bytes) : Bool := nbit (leAt d 2 1) 2
def declAddend (d : Bytes) : Bool := nbit (leAt d 2 1) 3
def declAcc (d : Bytes) : Nat := leAt d 3 1
def declId (d : Bytes) : DWord := BitVec.ofNat 64 (leAt d 4 8)
def declSegment (d : Bytes) : Nat := leAt d 12 4
def declFmtA (d : Bytes) : Nat := leAt d 16 1
def declFmtB (d : Bytes) : Nat := leAt d 17 1
def declFmtC (d : Bytes) : Nat := leAt d 18 1
def declLayA (d : Bytes) : Nat := leAt d 20 2
def declLayB (d : Bytes) : Nat := leAt d 22 2
def declLayC (d : Bytes) : Nat := leAt d 24 2
def declRegA (d : Bytes) : Nat := leAt d 26 1
def declRegB (d : Bytes) : Nat := leAt d 27 1
def declRegC (d : Bytes) : Nat := leAt d 28 1
def declRegD (d : Bytes) : Nat := leAt d 29 1
def declParam (d : Bytes) : Nat := leAt d 30 2
def isConv (d : Bytes) : Bool := declKind d == 2

/-- Geometry of a convolution. -/
def cvNB (d : Bytes) : Nat := leAt d 32 2
def cvH (d : Bytes) : Nat := leAt d 34 2
def cvW (d : Bytes) : Nat := leAt d 36 2
def cvCin (d : Bytes) : Nat := leAt d 38 2
def cvCout (d : Bytes) : Nat := leAt d 40 2
def cvKH (d : Bytes) : Nat := leAt d 42 1
def cvKW (d : Bytes) : Nat := leAt d 43 1
def cvSH (d : Bytes) : Nat := leAt d 44 1
def cvSW (d : Bytes) : Nat := leAt d 45 1
def cvDH (d : Bytes) : Nat := leAt d 46 1
def cvDW (d : Bytes) : Nat := leAt d 47 1
def cvPT (d : Bytes) : Nat := leAt d 48 1
def cvPB (d : Bytes) : Nat := leAt d 49 1
def cvPL (d : Bytes) : Nat := leAt d 50 1
def cvPR (d : Bytes) : Nat := leAt d 51 1

/-- An output dimension: 0 where the kernel does not fit. -/
def convOut (n p q dil k str : Nat) : Nat := if n + p + q < dil * (k - 1) + 1 then 0 else (n + p + q - dil * (k - 1) - 1) / str + 1
def cvOH (d : Bytes) : Nat := convOut (cvH d) (cvPT d) (cvPB d) (cvDH d) (cvKH d) (cvSH d)
def cvOW (d : Bytes) : Nat := convOut (cvW d) (cvPL d) (cvPR d) (cvDW d) (cvKW d) (cvSW d)

def declM (d : Bytes) : Nat := if isConv d then cvNB d * cvOH d * cvOW d else leAt d 32 4
def declN (d : Bytes) : Nat := if isConv d then cvCout d else leAt d 36 4
def declK (d : Bytes) : Nat := if isConv d then cvKH d * cvKW d * cvCin d else leAt d 40 4
def declTm (d : Bytes) : Nat := ceilDiv (declM d) 128
def declTn (d : Bytes) : Nat := ceilDiv (declN d) 128
def declT (d : Bytes) : Nat := declTm d * declTn d

/-- Rows and columns of tile (i, j) (R427). -/
def tileRows (d : Bytes) (i : Nat) : Nat := min 128 (declM d - 128 * i)
def tileCols (d : Bytes) (j : Nat) : Nat := min 128 (declN d - 128 * j)

/-- A tap of a convolution that lies in the padding: output row m of the GEMM, place k of its K (R424). -/
def padTap (d : Bytes) (m k : Nat) : Bool :=
  if !isConv d then false
  else
    let oy := m / cvOW d % cvOH d
    let ox := m % cvOW d
    let ky := k / (cvKW d * cvCin d)
    let kx := k / cvCin d % cvKW d
    let y := oy * cvSH d + ky * cvDH d
    let x := ox * cvSW d + kx * cvDW d
    !(decide (cvPT d ≤ y ∧ y < cvPT d + cvH d) && decide (cvPL d ≤ x ∧ x < cvPL d + cvW d))

/-! ### Elements in memory (R424, R428, R431) -/

def layKind (lay : Nat) : Nat := lay % 4
def layBR (lay : Nat) : Nat := 2 ^ (lay / 4 % 16)
def layBC (lay : Nat) : Nat := 2 ^ (lay / 64 % 16)

/-- Rows and columns of operand A as it lies in memory: M×K, or NHWC input as pixels by channels. -/
def memA (d : Bytes) : Nat × Nat := if isConv d then (cvNB d * cvH d * cvW d, cvCin d) else (declM d, declK d)

def matBytes (rows cols f : Nat) : Nat := ceilDiv (rows * cols * fmtBits f) 8
def round64 (n : Nat) : Nat := (n + 63) / 64 * 64

/-- The place of element (r, c) of a rows × cols matrix in its layout (R428). -/
def matIndex (lay rows cols r c : Nat) : Nat :=
  match layKind lay with
  | 0 => r * cols + c
  | 1 => c * rows + r
  | _ =>
    let br := layBR lay
    let bc := layBC lay
    (r / br * (cols / bc) + c / bc) * (br * bc) + r % br * bc + c % bc

/-- A byte of a region's captured lines. -/
def lineByte (t : Tbl Bytes) (i : Nat) : Byte := byteAt (tget [] t (i / 64)) (i % 64)

/-- Element e of a little-endian stream of w-bit elements (R428). -/
def elemCode (w : Nat) (t : Tbl Bytes) (e : Nat) : Nat :=
  leNat ((List.range ((w + 14) / 8)).map (fun i => lineByte t (w * e / 8 + i))) / 2 ^ (w * e % 8) % 2 ^ w

/-- The pixel that tap k of output row m reads, counted over all images; the tap is not in the padding (R424). -/
def convPixel (d : Bytes) (m k : Nat) : Nat :=
  let y := m / cvOW d % cvOH d * cvSH d + k / (cvKW d * cvCin d) * cvDH d - cvPT d
  let x := m % cvOW d * cvSW d + k / cvCin d % cvKW d * cvDW d - cvPL d
  (m / (cvOH d * cvOW d) * cvH d + y) * cvW d + x

/-- The row and column of A in memory that element (m, k) of the GEMM has: itself, or a pixel and a channel (R424). -/
def placeA (d : Bytes) (m k : Nat) : Nat × Nat := if isConv d then (convPixel d m k, k % cvCin d) else (m, k)

/-- Codes of the elements A(m, k), B(k, n), and (m, n) of C or D. -/
def codeA (d : Bytes) (t : TileData) (m k : Nat) : Nat :=
  elemCode (fmtBits (declFmtA d)) t.a (matIndex (declLayA d) (memA d).1 (memA d).2 (placeA d m k).1 (placeA d m k).2)
def codeB (d : Bytes) (t : TileData) (k n : Nat) : Nat :=
  elemCode (fmtBits (declFmtB d)) t.b (matIndex (declLayB d) (declK d) (declN d) k n)
def codeC (d : Bytes) (t : Tbl Bytes) (m n : Nat) : Nat :=
  elemCode (fmtBits (declFmtC d)) t (matIndex (declLayC d) (declM d) (declN d) m n)

/-- The scale bytes of A(m, k) and of B(k, n): a scale array follows its elements at the next line (R426, R431). -/
def scaleA (d : Bytes) (t : TileData) (m k : Nat) : Nat :=
  (lineByte t.a (round64 (matBytes (memA d).1 (memA d).2 (declFmtA d)) + (placeA d m k).1 * ((memA d).2 / 32) + (placeA d m k).2 / 32)).toNat
def scaleB (d : Bytes) (t : TileData) (k n : Nat) : Nat :=
  (lineByte t.b (round64 (matBytes (declK d) (declN d) (declFmtB d)) + n * (declK d / 32) + k / 32)).toNat

/-! ### A tile's verdict (R433, R447) -/

/-- A(m, k) and B(k, n) with their scales. -/
def elemA (d : Bytes) (t : TileData) (m k : Nat) : Num := scaled (declFmtA d) (scaleA d t m k) (fpDecode (declFmtA d) (codeA d t m k))
def elemB (d : Bytes) (t : TileData) (k n : Nat) : Num := scaled (declFmtB d) (scaleB d t k n) (fpDecode (declFmtB d) (codeB d t k n))

/-- The products of output element (m, n); a padding tap is zero. -/
def tileProds (d : Bytes) (t : TileData) (m n : Nat) (mul : Num → Num → Num) : List Num :=
  (List.range (declK d)).map (fun k => if padTap d m k then .fin false 0 else mul (elemA d t m k) (elemB d t k n))

/-- Element (r, q) of the tile passes. -/
def elemPass (d : Bytes) (t : TileData) (i j r q : Nat) : Bool :=
  let k := declK d
  let m := 128 * i + r
  let n := 128 * j + q
  let cc := codeC d t.c m n
  let dd := codeC d t.d m n
  if declProfile d = 0 then
    let term (p : Nat) : Int := if padTap d m p then 0 else intDecode (declFmtA d) (codeA d t m p) * intDecode (declFmtB d) (codeB d t p n)
    let v := (List.range k).foldl (fun v p => v + term p) (if declAddend d then intDecode 0x0D dd else 0)
    decide (intDecode 0x0D cc = refP0 (declAcc d) v)
  else
    let fc := declFmtC d
    let c := widen (fpDecode fc cc)
    let add := if declAddend d then some (widen (fpDecode fc dd)) else none
    let ps := tileProds d t m n prod
    if declProfile d = 1 then sameNum c (rne fc 320 (exactSum (ps ++ add.toList)))
    else if declProfile d = 2 then sameNum c (refP2 (declAcc d) (declParam d) fc ps add)
    else
      let fp32 := declFmtA d == 0x0C || declFmtB d == 0x0C
      let qs := if fp32 then tileProds d t m n fp32Prod else ps
      passP3 fc (declParam d) k fp32 qs (ps.foldl (fun m p => max m (signed p).natAbs) 0) add c

/-- The mismatching elements of a tile, in order of row and then column. -/
def tileMismatches (d : Bytes) (t : TileData) (i j : Nat) : List (Nat × Nat) :=
  ((List.range (tileRows d i)).map (fun r =>
    ((List.range (tileCols d j)).filter (fun q => !elemPass d t i j r q)).map (fun q => (r, q)))).flatten

/-! ### Verdict records (R447, R448) -/

/-- A 32-byte record; a REJECTED one has indices 0xFFFF. -/
def verdictRecord (d : Bytes) (code : Nat) (ti tj mism row col reject : Nat) : Bytes :=
  [BitVec.ofNat 8 code, BitVec.ofNat 8 (declProfile d), 0, 0] ++ toLe 8 (declId d).toNat ++ toLe 4 (declSegment d) ++
    toLe 2 ti ++ toLe 2 tj ++ toLe 2 (min mism 65535) ++ [BitVec.ofNat 8 row, BitVec.ofNat 8 col, BitVec.ofNat 8 reject] ++ zeros 7

/-- The record of a tile that ran. -/
def judgeTile (d : Bytes) (t : TileData) (i j : Nat) : Bytes :=
  match tileMismatches d t i j with
  | [] => verdictRecord d 0 i j 0 0xFF 0xFF 0
  | (r, q) :: more => verdictRecord d 1 i j (more.length + 1) r q 0

end Sys2Proof.Machine
end

