-- ==== Sys2Proof/Machine/PressDecl.lean ====
section
/-! DEFINITION. A Press declaration (12): where its operands lie and which lines its tiles need, its check, and the choice
of the sampled tiles. -/

namespace Sys2Proof.Machine

/-! ### Regions (R425, R426) -/

/-- The unit a lane belongs to: stacks 0-7, then port p as 8 + p. -/
def unitOf (lane : Nat) : Nat := if lane < 136 then lane / 17 else 8 + (lane - 136)

/-- The home lanes of a unit. -/
def unitLanes (u : Nat) : List Nat := if u < 8 then (List.range 16).map (17 * u + ·) else [136 + (u - 8)]

/-- The unit of a fabric byte range and the number of its first line there, if it lies in one unit, line after line. -/
def placeOf (base size : Nat) : Option (Nat × Nat) :=
  let a := Config.fabricLine (base / 64)
  let z := Config.fabricLine ((base + size - 1) / 64)
  if size ≠ 0 ∧ unitOf a.1 = unitOf z.1 ∧ z.2 = a.2 + ((base + size - 1) / 64 - base / 64) then some (unitOf a.1, a.2) else none

/-- The windows of a berth on a unit. -/
def unitWindows (x : Berth) (u : Nat) : List Window :=
  ((if u < 8 then x.t1.map (·.2) else x.t2.map (·.2))).filter (fun w => w.unit == (if u < 8 then u else u - 8))

/-- A fabric byte range lies wholly inside one window of the berth, with the right asked for. -/
def inWindow (s : State) (b base size : Nat) (write : Bool) : Option (Nat × Nat) :=
  match placeOf base size with
  | some (u, l) =>
    let lo := 64 * l + base % 64
    if (unitWindows (s.berth b) u).any (fun w => decide (w.base * 1048576 ≤ lo ∧ lo + size ≤ (w.base + w.size) * 1048576) &&
        !(write && w.readOnly)) then some (u, l) else none
  | none => none

/-- Bytes of A, B and C with their scale arrays (R426, R431). -/
def bytesA (d : Bytes) : Nat :=
  let e := matBytes (memA d).1 (memA d).2 (declFmtA d)
  if isMx (declFmtA d) then round64 e + (memA d).1 * ((memA d).2 / 32) else e
def bytesB (d : Bytes) : Nat :=
  let e := matBytes (declK d) (declN d) (declFmtB d)
  if isMx (declFmtB d) then round64 e + declN d * (declK d / 32) else e
def bytesC (d : Bytes) : Nat := matBytes (declM d) (declN d) (declFmtC d)

/-- Slot k of a region table as committed: an empty or misaligned slot is none (R453). -/
def slotOf (slots : Tbl (Nat × Nat)) (k : Nat) : Option (Nat × Nat) :=
  match tfind slots k with
  | some (base, size) => if k < 64 ∧ size ≠ 0 ∧ base % 64 = 0 then some (base, size) else none
  | none => none

/-- A region of a declaration: its slot fits it and lies in one window of the berth (R426). -/
def regionPlace (s : State) (b : Nat) (slots : Tbl (Nat × Nat)) (k size : Nat) (write : Bool) : Option (Nat × Nat) :=
  match slotOf slots k with
  | some (base, n) => if size ≤ n then inWindow s b base n write else none
  | none => none

/-- The fabric byte range of a region: base and bytes. -/
def regionRange (slots : Tbl (Nat × Nat)) (k size : Nat) : Nat × Nat := ((slotOf slots k).map (·.1) |>.getD 0, size)

/-- The operand ranges of a declaration, and its result range. -/
def declReads (slots : Tbl (Nat × Nat)) (d : Bytes) : List (Nat × Nat) :=
  [regionRange slots (declRegA d) (bytesA d), regionRange slots (declRegB d) (bytesB d)] ++
    (if declAddend d then [regionRange slots (declRegD d) (bytesC d)] else [])
def declResult (slots : Tbl (Nat × Nat)) (d : Bytes) : Nat × Nat := regionRange slots (declRegC d) (bytesC d)

/-- Two byte ranges overlap; the first covers the second. -/
def overlaps (a b : Nat × Nat) : Bool := decide (a.1 < b.1 + b.2 ∧ b.1 < a.1 + a.2)
def rangeCovers (a b : Nat × Nat) : Bool := decide (a.1 ≤ b.1 ∧ b.1 + b.2 ≤ a.1 + a.2)

/-! ### Layouts and line ranges (R428, R437, R438) -/

/-- FIRST, RUN, STRIDE and RUNS of a range. -/
structure LineRange where
  first : Nat
  run : Nat
  stride : Nat
  runs : Nat
  deriving DecidableEq, Repr

def rangeLines (rs : List LineRange) : Nat := rs.foldl (fun n r => n + r.run * r.runs) 0

/-- Lines one after another, in at most two ranges. -/
def contiguous (first n : Nat) : List LineRange :=
  if n = 0 then []
  else if n ≤ 65535 then [{ first := first, run := n, stride := n, runs := 1 }]
  else
    { first := first, run := 32768, stride := 32768, runs := n / 32768 } ::
      (if n % 32768 = 0 then [] else [{ first := first + n / 32768 * 32768, run := n % 32768, stride := n % 32768, runs := 1 }])

/-- Equal runs at a stride, in at most two ranges. -/
def strided (first run stride runs : Nat) : List LineRange :=
  if run = stride then contiguous first (run * runs)
  else if runs ≤ 65535 then [{ first := first, run := run, stride := stride, runs := runs }]
  else [{ first := first, run := run, stride := stride, runs := 32768 },
        { first := first + 32768 * stride, run := run, stride := stride, runs := runs - 32768 }]

/-- The lines that hold bits `lo` up to `hi` of a region whose first line is `l`. -/
def bitLines (l lo hi : Nat) : List LineRange := if hi ≤ lo then [] else contiguous (l + lo / 512) ((hi - 1) / 512 - lo / 512 + 1)

/-- Rows r0 to r1 and columns c0 to c1 (exclusive) of a matrix stored row by row. A row length that is no whole number of
lines gives no strided range: the lines between are captured too (log entry 44). -/
def majorLines (l cols w r0 r1 c0 c1 : Nat) : List LineRange :=
  let lo := (r0 * cols + c0) * w
  let hi := ((r1 - 1) * cols + c1) * w
  if c1 - c0 < cols ∧ cols * w % 512 = 0 then
    strided (l + lo / 512) (((r0 * cols + c1) * w - 1) / 512 - lo / 512 + 1) (cols * w / 512) (r1 - r0)
  else bitLines l lo hi

/-- Rows r0 to r1 within one row of blocks, of columns that are part of one block: a run in each row of the block. -/
def blockRows (l w bc r0 r1 c0 c1 : Nat) : List LineRange :=
  let a := c0 * w / 512
  let z := (c1 * w - 1) / 512
  strided (l + r0 * (bc * w / 512) + a) (z - a + 1) (bc * w / 512) (r1 - r0)

/-- Rows r0 to r1 and columns c0 to c1 of a blocked matrix. Part of the columns of a block wider than a tile is a run in each of its rows;
over three rows of blocks or more, which no two ranges hold, whole blocks are captured (log entry 44). -/
def blockedLines (l cols w lay r0 r1 c0 c1 : Nat) : List LineRange :=
  let br := layBR lay
  let bc := layBC lay
  let bl := br * bc * w / 512
  let rb0 := r0 / br
  let rb1 := (r1 - 1) / br
  let cb0 := c0 / bc
  let cb1 := (c1 - 1) / bc
  let row := cols / bc * bl
  let part : Bool := cb1 == cb0 && decide (c1 - c0 < bc) && bc * w % 512 == 0
  let base (rb : Nat) : Nat := l + rb * row + cb0 * bl
  if part ∧ (rb0 = rb1 ∨ cols = bc) then blockRows (base rb0) w bc (r0 - rb0 * br) (r1 - rb0 * br) (c0 % bc) (c1 - cb0 * bc)
  else if part ∧ rb1 = rb0 + 1 then
    blockRows (base rb0) w bc (r0 - rb0 * br) br (c0 % bc) (c1 - cb0 * bc) ++
      blockRows (base rb1) w bc 0 (r1 - rb1 * br) (c0 % bc) (c1 - cb0 * bc)
  else if rb0 = rb1 ∧ cb1 = cb0 then bitLines (l + rb0 * row + cb0 * bl) ((r0 % br * bc + c0 % bc) * w) (((r1 - 1) % br * bc + (c1 - 1) % bc + 1) * w)
  else if rb0 = rb1 then
    let lo := r0 % br * bc * w / 512
    let hi := (((r1 - 1) % br + 1) * bc * w - 1) / 512
    strided (l + rb0 * row + cb0 * bl + lo) (hi - lo + 1) bl (cb1 - cb0 + 1)
  else strided (l + rb0 * row + cb0 * bl) ((cb1 - cb0 + 1) * bl) row (rb1 - rb0 + 1)

/-- Rows r0 to r1 and columns c0 to c1 of a matrix in its layout. -/
def matLines (l rows cols w lay r0 r1 c0 c1 : Nat) : List LineRange :=
  match layKind lay with
  | 0 => majorLines l cols w r0 r1 c0 c1
  | 1 => majorLines l rows w c0 c1 r0 r1
  | _ => blockedLines l cols w lay r0 r1 c0 c1

/-- A LAYOUT field is legal for a matrix (R428). -/
def layoutOk (lay rows cols w : Nat) : Bool :=
  decide (lay < 1024) && (match layKind lay with
    | 2 => decide (lay / 4 % 16 ≤ 8 ∧ lay / 64 % 16 ≤ 8) && decide (rows % layBR lay = 0 ∧ cols % layBC lay = 0) &&
        decide (layBR lay * layBC lay * w % 512 = 0)
    | 3 => false
    | _ => decide (lay / 4 = 0))

/-- First and last input row, counted over all images, that the outputs of tile row i reach (R437). -/
def convBand (d : Bytes) (i : Nat) : Nat × Nat :=
  let m0 := 128 * i
  let m1 := m0 + tileRows d i - 1
  let per := cvOH d * cvOW d
  let oy (m : Nat) : Nat := m / cvOW d % cvOH d
  let y0 := min (cvH d - 1) (oy m0 * cvSH d - cvPT d)
  let y1 := min (cvH d - 1) (oy m1 * cvSH d + (cvKH d - 1) * cvDH d - cvPT d)
  (m0 / per * cvH d + y0, m1 / per * cvH d + y1)

/-- The lines of A panel i: its rows, or a convolution's band across the whole width and every channel. -/
def panelA (d : Bytes) (l i : Nat) : List LineRange :=
  let w := fmtBits (declFmtA d)
  if isConv d then
    let px := cvW d * cvCin d * w
    bitLines l ((convBand d i).1 * px) (((convBand d i).2 + 1) * px)
  else matLines l (declM d) (declK d) w (declLayA d) (128 * i) (128 * i + tileRows d i) 0 (declK d)

/-- The MX scale rows of A panel i. -/
def panelAS (d : Bytes) (l i : Nat) : List LineRange :=
  let l' := l + ceilDiv (matBytes (memA d).1 (memA d).2 (declFmtA d)) 64
  if !isMx (declFmtA d) then []
  else if isConv d then
    let px := cvW d * (cvCin d / 32) * 8
    bitLines l' ((convBand d i).1 * px) (((convBand d i).2 + 1) * px)
  else bitLines l' (128 * i * (declK d / 32) * 8) ((128 * i + tileRows d i) * (declK d / 32) * 8)

def panelB (d : Bytes) (l j : Nat) : List LineRange :=
  matLines l (declK d) (declN d) (fmtBits (declFmtB d)) (declLayB d) 0 (declK d) (128 * j) (128 * j + tileCols d j)

def panelBS (d : Bytes) (l j : Nat) : List LineRange :=
  if !isMx (declFmtB d) then []
  else
    bitLines (l + ceilDiv (matBytes (declK d) (declN d) (declFmtB d)) 64) (128 * j * (declK d / 32) * 8)
      ((128 * j + tileCols d j) * (declK d / 32) * 8)

/-- The lines of tile (i, j) of C or D. -/
def panelC (d : Bytes) (l i j : Nat) : List LineRange :=
  matLines l (declM d) (declN d) (fmtBits (declFmtC d)) (declLayC d) (128 * i) (128 * i + tileRows d i) (128 * j)
    (128 * j + tileCols d j)

/-! ### The sample (R414, R436) -/

/-- c = min(T, ⌈T / D_EFF⌉). -/
def sampleCount (d : Bytes) (dEff : Nat) : Nat := min (declT d) (ceilDiv (declT d) dEff)

/-- h of tile t under a seed. -/
def sampleHash (seed : Bytes) (d : Bytes) (t : Nat) : Nat :=
  let x := xorBytes (slice seed 32 16) (toLe 8 (declId d).toNat ++ toLe 4 (t / declTn d) ++ toLe 4 (t % declTn d))
  beNat ((aesEnc (slice seed 0 32) x).take 8)

/-- A pair kept in order of h and then of index. -/
def keepIn (x : Nat × Nat) : List (Nat × Nat) → List (Nat × Nat)
  | [] => [x]
  | y :: l => if x.1 < y.1 ∨ (x.1 = y.1 ∧ x.2 < y.2) then x :: y :: l else y :: keepIn x l

/-- The c tiles with the smallest h, lower indices first, in ascending order of index. -/
def sampleTiles (seed : Bytes) (d : Bytes) (c : Nat) : List Nat :=
  let kept := (List.range (declT d)).foldl (fun l t => (keepIn (sampleHash seed d t, t) l).take c) []
  (List.range (declT d)).filter (fun t => kept.any (fun x => x.2 == t))

/-! ### The worst case (R439) -/

/-- A number put into a list in descending order. -/
def keepBig (x : Nat) : List Nat → List Nat
  | [] => [x]
  | y :: l => if y < x then x :: y :: l else y :: keepBig x l

/-- The sum of the n largest numbers of a list. -/
def largest (n : Nat) (l : List Nat) : Nat := ((l.foldl (fun a x => keepBig x a) []).take n).sum

/-- Units and lines that the worst-case sample of c tiles needs, with its ranges: as many distinct panels as it can have, the largest
of each kind (log entry 45). -/
def worstParts (d : Bytes) (pa pb pc pd : Nat × Nat) (c : Nat) : List (Nat × Nat × Nat) :=
  let worst (u n : Nat) (ps : List (List LineRange)) : Nat × Nat × Nat :=
    (u, largest n (ps.map rangeLines), largest n (ps.map (·.length)))
  let rows (p : Bytes → Nat → Nat → List LineRange) : List (List LineRange) := (List.range (declTm d)).map (p d pa.2)
  let cols (p : Bytes → Nat → Nat → List LineRange) : List (List LineRange) := (List.range (declTn d)).map (p d pb.2)
  let tiles (l : Nat) : List (List LineRange) := (List.range (declT d)).map (fun t => panelC d l (t / declTn d) (t % declTn d))
  [worst pa.1 (min c (declTm d)) (rows panelA), worst pa.1 (min c (declTm d)) (rows panelAS), worst pb.1 (min c (declTn d)) (cols panelB),
    worst pb.1 (min c (declTn d)) (cols panelBS), worst pc.1 c (tiles pc.2)] ++ (if declAddend d then [worst pd.1 c (tiles pd.2)] else [])

/-- It fits: coverage bits and ranges on every Pier, and the Basket footprint. A stack's 16 channels share its lines
evenly (log entry 45). -/
def worstFits (ps : List (Nat × Nat × Nat)) : Bool :=
  let sum (f : Nat × Nat × Nat → Nat) (l : List (Nat × Nat × Nat)) : Nat := l.foldl (fun n x => n + f x) 0
  (List.range 24).all (fun u =>
    let mine := ps.filter (fun x => x.1 == u)
    decide (sum (fun x => if u < 8 then ceilDiv x.2.1 16 else x.2.1) mine ≤ 262144) && decide (sum (·.2.2) mine ≤ 1024)) &&
    decide (64 * sum (·.2.1) ps ≤ 201326592)

/-! ### The check (R421) -/

def formatsOk (d : Bytes) : Bool :=
  let a := declFmtA d
  let b := declFmtB d
  isInput a && isInput b && ((isIntFmt a && isIntFmt b && declFmtC d == 0x0D) || (isFpFmt a && isFpFmt b && isFpOutput (declFmtC d)))

def profileOk (d : Bytes) (profiles : Nat) : Bool :=
  let fp32 := declFmtA d == 0x0C || declFmtB d == 0x0C
  nbit profiles (declProfile d) && (match declProfile d with
    | 0 => isIntFmt (declFmtA d)
    | 3 => isFpFmt (declFmtA d)
    | _ => isFpFmt (declFmtA d) && !fp32)

def accOk (d : Bytes) : Bool :=
  let p := declParam d
  match declProfile d with
  | 0 => (declAcc d == 0x10 || declAcc d == 0x11) && p == 0
  | 1 => declAcc d == 0 && p == 0
  | 2 => decide (1 ≤ declAcc d ∧ declAcc d ≤ 3) && decide (p ≤ 12)
  | _ => declAcc d == 0 && decide (1 ≤ p)

def convOk (d : Bytes) : Bool :=
  [cvNB d, cvH d, cvW d, cvCin d, cvCout d].all (fun v => decide (1 ≤ v)) &&
    [cvKH d, cvKW d].all (fun v => decide (1 ≤ v ∧ v ≤ 11)) && [cvSH d, cvSW d, cvDH d, cvDW d].all (fun v => decide (1 ≤ v ∧ v ≤ 8)) &&
    [cvPT d, cvPB d, cvPL d, cvPR d].all (fun v => decide (v ≤ 15)) && decide (1 ≤ cvOH d ∧ 1 ≤ cvOW d)

/-- R427. -/
def geometryOk (d : Bytes) : Bool :=
  let mx := isMx (declFmtA d) || isMx (declFmtB d)
  (!isConv d || convOk d) && decide (1 ≤ declM d ∧ declM d ≤ 131072) && decide (1 ≤ declN d ∧ declN d ≤ 131072) &&
    decide (1 ≤ declK d ∧ declK d ≤ (if declFmtA d = 0x0C ∨ declFmtB d = 0x0C then 8192 else 65536)) && decide (declT d ≤ 1048576) &&
    (!mx || (if isConv d then cvCin d % 32 == 0 else declK d % 32 == 0))

def layoutsOk (d : Bytes) : Bool :=
  layoutOk (declLayA d) (memA d).1 (memA d).2 (fmtBits (declFmtA d)) && layoutOk (declLayB d) (declK d) (declN d) (fmtBits (declFmtB d)) &&
    layoutOk (declLayC d) (declM d) (declN d) (fmtBits (declFmtC d)) &&
    (!isConv d || (declLayA d == 0 && declLayC d == 0 && decide (layKind (declLayB d) ≤ 1)))

def declReservedOk (d : Bytes) : Bool :=
  decide (leAt d 2 1 < 16) && decide (leAt d 19 1 = 0) && (declAddend d || declRegD d == 0xFF) &&
    (if isConv d then decide (leAt d 52 12 = 0) else decide (leAt d 44 20 = 0))

/-- The four places of a declaration's regions; D's is C's where there is none. -/
def declPlaces (s : State) (b : Nat) (slots : Tbl (Nat × Nat)) (d : Bytes) :
    Option ((Nat × Nat) × (Nat × Nat) × (Nat × Nat) × (Nat × Nat)) :=
  match regionPlace s b slots (declRegA d) (bytesA d) false, regionPlace s b slots (declRegB d) (bytesB d) false,
    regionPlace s b slots (declRegC d) (bytesC d) true,
    (if declAddend d then regionPlace s b slots (declRegD d) (bytesC d) false else some (0, 0)) with
  | some a, some b', some c, some d' => some (a, b', c, d')
  | _, _, _, _ => none

/-- The reject code of a declaration at the head of its ring, or 0x00: the codes in ascending order, the first that
applies; the capture footprint, which needs the regions, after 0x09 (log entry 46). -/
def declCheck (s : State) (b : Nat) (x : BerthPress) (j : Job) (slots : Tbl (Nat × Nat)) (d : Bytes) : Byte :=
  if declVersion d ≠ j.version then 0x01
  else if (declId d).toNat = 0 ∨ (declId d).toNat ≤ x.lastDecl.toNat then 0x02
  else if declKind d ≠ 1 ∧ declKind d ≠ 2 then 0x03
  else if !formatsOk d then 0x04
  else if !profileOk d j.profiles then 0x05
  else if !geometryOk d || decide (128 < sampleCount d j.dEff) then 0x06
  else if !layoutsOk d then 0x07
  else if (x.anyDecl ∧ declSegment d < x.lastSeg) ∨ x.segments.any (fun g => g.num == declSegment d && g.lastAccepted) then 0x08
  else
    match declPlaces s b slots d with
    | none => 0x09
    | some (pa, pb, pc, pd) =>
      if !worstFits (worstParts d pa pb pc pd (sampleCount d j.dEff)) then 0x06
      else if !declReservedOk d then 0x0A
      else if !accOk d then 0x0B
      else 0x00

end Sys2Proof.Machine
end

