-- ==== Sys2Proof/Machine/Hold.lean ====
section
/-! DEFINITION. Line hold (13): the hold table of a berth, how its entries become DRY or FAILED, fences and the seal,
how segments settle, and the hold check of an export. -/

namespace Sys2Proof.Machine

def State.bp (s : State) (b : Nat) : BerthPress := tget berthPressInit s.press.berths b
def modPress (s : State) (f : Press → Press) : State := { s with press := f s.press }
def State.setBp (s : State) (b : Nat) (x : BerthPress) : State := modPress s (fun p => { p with berths := tset p.berths b x })
def modBp (s : State) (b : Nat) (f : BerthPress → BerthPress) : State := s.setBp b (f (s.bp b))

/-- The open job of a berth's page. -/
def openJob (x : BerthPress) : Option Job := x.job.filter (·.isOpen)

/-! ### Segments (R442, R463) -/

def segInit (n : Nat) : Segment :=
  { num := n, lastSeen := false, lastAccepted := false, closeNo := 0, closed := false, settled := none, gate := [], forbid := false,
    late := false, sampled := 0, clocks := 0, bytes1 := 0, bytes2 := 0 }

def findSeg (x : BerthPress) (n : Nat) : Option Segment := x.segments.find? (fun g => g.num == n)

/-- A segment changed, from a new one where the job has not met it. -/
def modSeg (x : BerthPress) (n : Nat) (f : Segment → Segment) : BerthPress :=
  if x.segments.any (fun g => g.num == n) then { x with segments := x.segments.map (fun g => if g.num = n then f g else g) }
  else { x with segments := x.segments ++ [f (segInit n)] }

/-- The outcome of every Pair point that gates a segment is known. -/
def gateKnown (x : BerthPress) (g : Segment) : Bool :=
  g.gate.all (fun p => x.points.any (fun q => q.point == p && q.outcome != 0))

/-- What a segment is to a reader of its outcome (R463, R466). -/
inductive SegState where
  | open_ | dry | failed | old
  deriving DecidableEq, Repr

def keptSegs (x : BerthPress) : List Nat := (x.segments.filter (fun g => g.settled.isSome)).map (·.num)

/-- A settled segment is older than the 64 whose outcomes are kept. -/
def tooOld (x : BerthPress) (n : Nat) : Bool := decide (64 ≤ ((keptSegs x).filter (fun k => decide (n < k))).length)

/-- A segment without a record had no declaration: it has settled DRY once a higher one was accepted, and is too old to be
known below the 64 kept. -/
def segState (x : BerthPress) (n : Nat) : SegState :=
  match findSeg x n with
  | some g =>
    (match g.settled with
      | some dry => if tooOld x n then .old else if dry then .dry else .failed
      | none => .open_)
  | none =>
    if tooOld x n then .old
    else if x.anyDecl ∧ n < x.lastSeg then .dry
    else .open_

/-- The outcomes of the 64 most recent segments are kept; an older record goes once no entry and no order of declarations needs
it (R421, R465). -/
def trimSegs (x : BerthPress) : BerthPress :=
  let named (n : Nat) : Bool := (x.anyDecl && n == x.lastSeg) || x.entries.any (fun e => !e.orphan && e.segment == n)
  { x with segments := x.segments.filter (fun g => g.settled.isNone || !tooOld x g.num || named g.num) }

/-! ### Entries (R458-R465) -/

def entryRange (e : HoldEntry) : Nat × Nat := (e.base, e.size)
def segSettled (x : BerthPress) (n : Nat) : Bool := segState x n != .open_

/-- A fence: a FAILED entry of a settled segment, or one of no segment (R465). -/
def isFence (x : BerthPress) (e : HoldEntry) : Bool := e.state == .failed && (e.orphan || segSettled x e.segment)

/-- The lowest cause of R461 that applies to an entry, given the entries it depends on; 0 if none does. -/
def entryCause (x : BerthPress) (before : List HoldEntry) (e : HoldEntry) : Nat :=
  let bad := before.filter (fun f => f.state == .failed)
  if e.own ≠ 0 then e.own
  else if bad.any (fun f => decide (f.declId.toNat < e.declId.toNat) && e.reads.any (fun r => overlaps r (entryRange f))) then 3
  else if !bad.isEmpty then 4
  else if e.inherited then 5
  else if ((findSeg x e.segment).map (·.forbid)).getD false then 6
  else if (x.job.map (·.siteBad)).getD false then 7
  else 0

/-- The entries of its segment that an entry depends on: the earlier ones of the ring, as judged, and those of a lower DECL_ID that
came later, which only a rejected declaration has (R460-R462, log entry 160). -/
def entriesBefore (x : BerthPress) (done : List HoldEntry) (e : HoldEntry) : List HoldEntry :=
  let peer (f : HoldEntry) : Bool := f.segment == e.segment && !f.orphan
  done.filter peer ++ (x.entries.drop (done.length + 1)).filter (fun f => peer f && decide (f.declId.toNat < e.declId.toNat))

/-- One entry judged anew (R460, R461). -/
def judgeEntry (x : BerthPress) (done : List HoldEntry) (e : HoldEntry) : HoldEntry :=
  if e.orphan || segSettled x e.segment || e.state == .dry then e
  else
    let before := entriesBefore x done e
    let c := entryCause x before e
    let open_ : Bool := match findSeg x e.segment with
      | some g => gateKnown x g
      | none => true
    if c ≠ 0 then { e with state := .failed, cause := c }
    else if e.left = 0 ∧ before.all (fun f => f.state == .dry) ∧ open_ = true then { e with state := .dry, cause := 0 }
    else { e with state := .damp, cause := 0 }

/-- Every entry judged, in the order of the ring. -/
def judgeAll (x : BerthPress) : BerthPress :=
  { x with entries := x.entries.foldl (fun done e => done ++ [judgeEntry x done e]) [] }

/-- Entries but for the fences that a later DRY entry covers. -/
def keepUncovered (x : BerthPress) : List HoldEntry → List HoldEntry
  | [] => []
  | e :: l =>
    if isFence x e && l.any (fun f => f.state == .dry && rangeCovers (entryRange f) (entryRange e)) then keepUncovered x l
    else e :: keepUncovered x l

/-- Fences that a later DRY entry covers are retired. -/
def retireFences (x : BerthPress) : BerthPress := { x with entries := keepUncovered x x.entries }

/-- A segment can settle (R463). -/
def canSettle (x : BerthPress) (g : Segment) : Bool :=
  g.settled.isNone && g.lastSeen && gateKnown x g &&
    (x.entries.filter (fun e => e.segment == g.num && !e.orphan)).all (fun e => e.left == 0)

/-- A closed segment of a fixed-rate job settles more than DEADLINE_US after its close (R470). The model has no clock: the
answer is a free value for each close (log entry 126). -/
def settlesLate (x : BerthPress) (g : Segment) : Bool :=
  g.closed && (x.job.map (fun j => j.fixed && Config.settledLate g.closeNo j.deadlineUs)).getD false

/-- A segment settles: its DRY entries are retired, its FAILED ones stay as fences; LATE is marked (R463, R470). -/
def settle (x : BerthPress) (n : Nat) : BerthPress :=
  let mine (e : HoldEntry) : Bool := e.segment == n && !e.orphan
  let ok := (x.entries.filter mine).all (fun e => e.state == .dry)
  modSeg { x with entries := x.entries.filter (fun e => !(mine e && e.state == .dry)) } n
    (fun g => { g with settled := some ok, late := settlesLate x g })

/-- More than 256 fences seal the berth. -/
def sealIfFull (x : BerthPress) : BerthPress :=
  { x with sealed := x.sealed || decide (256 < (x.entries.filter (isFence x)).length) }

/-- The hold table brought up to date with every verdict, outcome and acknowledgement. -/
def holdUpdate (x : BerthPress) : BerthPress :=
  let x1 := retireFences (judgeAll x)
  let x2 := (x1.segments.filter (canSettle x1)).foldl (fun x g => settle x g.num) x1
  trimSegs (sealIfFull (retireFences x2))

/-- JOB_CLOSE settles every segment (R463): entries left DAMP become FAILED; a fence that remains seals the berth. -/
def settleAll (x : BerthPress) : BerthPress :=
  let pending (n : Nat) : Bool := match findSeg x n with
    | some g => !gateKnown x g
    | none => false
  let fail (e : HoldEntry) : HoldEntry :=
    if e.state = .damp then { e with state := .failed, cause := if pending e.segment then 6 else 2, left := 0 } else e
  let x1 : BerthPress := { x with entries := x.entries.map fail }
  let x2 : BerthPress := ((x1.segments.filter (fun g => g.settled.isNone)).map (·.num)).foldl settle x1
  let x3 := retireFences x2
  trimSegs { x3 with sealed := x3.sealed || x3.entries.any (isFence x3) }

/-- The segments that settle late between two states of a berth's page (R470). -/
def lateSettled (x y : BerthPress) : List Nat :=
  (x.segments.filter (fun g => g.settled.isNone && settlesLate x g &&
    !y.segments.any (fun h => h.num == g.num && h.settled.isNone))).map (·.num)

/-- The journal event of each late segment (R470). -/
def recordLate (s : State) (b : Nat) (ns : List Nat) : State :=
  ns.foldl (fun s n => record s 0x0402 (BitVec.ofNat 32 b) (BitVec.ofNat 32 n)) s

/-- A new entry (R458). A later entry of a segment already settled fails at once and is a fence (log entry 47). -/
def addEntry (x : BerthPress) (e : HoldEntry) : BerthPress :=
  if !e.orphan && segSettled x e.segment then
    holdUpdate { x with entries := x.entries ++ [{ e with state := .failed, cause := if e.own ≠ 0 then e.own else 4 }] }
  else holdUpdate { x with entries := x.entries ++ [e] }

/-! ### The hold check (R466-R468) -/

/-- Every byte of a range lies in some of these ranges; `fuel` bounds the hops. -/
def coveredFrom (rs : List (Nat × Nat)) : Nat → Nat → Nat → Bool
  | 0, pos, hi => decide (hi ≤ pos)
  | fuel + 1, pos, hi =>
    if hi ≤ pos then true
    else
      match rs.find? (fun r => decide (r.1 ≤ pos ∧ pos < r.1 + r.2)) with
      | some r => coveredFrom rs fuel (r.1 + r.2) hi
      | none => false

/-- The answer to an export of bytes lo to hi with a segment label; none stands for the label "none". -/
def holdAnswer (x : BerthPress) (lo hi : Nat) (label : Option Nat) : HoldAnswer :=
  let r := (lo, hi - lo)
  if x.sealed then .refuse
  else if x.entries.any (fun e => e.state == .failed && overlaps r (entryRange e)) then .refuse
  else if x.entries.any (fun e => e.state == .damp && overlaps r (entryRange e)) then .wait
  else if (openJob x).isNone then .go
  else if coveredFrom (x.entries.map entryRange) (x.entries.length + 1) lo hi then .go
  else
    match (match label with
      | some n => some n
      | none => if x.anyDecl then some x.lastSeg else none) with
    | none => .go
    | some n =>
      match segState x n with
      | .failed => .refuse
      | .old => .refuse
      | .open_ => .wait
      | .dry => if x.segments.any (fun g => g.settled.isNone && decide (g.num < n)) then .wait else .go

/-- The label of a descriptor. -/
def exportLabel (d : Bytes) : Option Nat := if dSegment d = 0xFFFFFFFF then none else some (dSegment d)

/-- Ferry asks for a WAITING export that has no GO yet. -/
def holdCheck (s : State) (c : Nat) : State :=
  let x := s.ch c
  if x.state ≠ .waiting ∨ !isExport (dOp x.desc) ∨ x.hold = some .go then s
  else
    let b := chBerth s c
    let sp := srcSpan x.desc
    match holdAnswer (s.bp b) sp.1 sp.2 (exportLabel x.desc) with
    | .go =>
      modBp (modCh s c (fun x => { x with hold := some .go })) b
        (fun y => { y with exports := y.exports.filter (fun e => e.1 != c) ++ [(c, sp.1, sp.2 - sp.1)] })
    | .wait => modCh s c (fun x => { x with hold := some .wait })
    | .refuse => haltCh s c 0x07

def execHoldCheck (ch : Nat) (s : State) : Out := whenRunning s (holdCheck · ch)

/-- Every waiting export of a berth is answered again (R467). -/
def holdAgain (s : State) (b : Nat) : State :=
  (berthChs s b).foldl (fun s c => if (s.ch c).hold = some .wait then holdCheck s c else s) s

/-- A berth's page changed, and its waiting exports answered anew. -/
def holdSet (s : State) (b : Nat) (f : BerthPress → BerthPress) : State :=
  let x := f (s.bp b)
  let y := holdUpdate x
  holdAgain (recordLate (s.setBp b y) b (lateSettled x y)) b

end Sys2Proof.Machine
end

