-- ==== Sys2Proof/Machine/Press.lean ====
section
/-! DEFINITION. Press at work (12): the arrays and their queue, the declaration ring, arming a declaration on the Piers,
tiles from capture to verdict, the ledger and its window, and the peripherals that Ferry serves (14). -/

namespace Sys2Proof.Machine

/-! ### Arrays (R443-R446) -/

def State.array (s : State) (n : Nat) : PressArray := tget arrayInit s.press.arrays n
def modArray (s : State) (n : Nat) (f : PressArray → PressArray) : State :=
  modPress s (fun p => { p with arrays := tset p.arrays n (f (s.array n)) })
def arrayCount (x : PressArray) (i k : Nat) : PressArray := { x with counts := tmod 0 x.counts i (fun v => min (v + k) 0xFFFFFFFF) }

/-- The array is in service: its island runs and it has its feed. -/
def arrayUp (s : State) (n : Nat) : Bool := decide (n < 16) && laneUp s (206 + n) && !(s.array n).noFeed
def arraysIn (s : State) : Nat := ((List.range 16).filter (arrayUp s)).length

/-- An armed declaration of a berth, and a tile of it. -/
def findArmed (s : State) (b : Nat) (id : DWord) : Option Armed := (s.bp b).armed.find? (fun a => a.declId == id)
def findTile (a : Armed) (ti tj : Nat) : Option Tile := a.tiles.find? (fun t => t.ti == ti && t.tj == tj)
def modTile (s : State) (b : Nat) (id : DWord) (ti tj : Nat) (f : Tile → Tile) : State :=
  let tile (t : Tile) : Tile := if t.ti = ti ∧ t.tj = tj then f t else t
  modBp s b (fun x => { x with armed := x.armed.map (fun a => if a.declId = id then { a with tiles := a.tiles.map tile } else a) })

/-- TILE_CLOCKS of a berth's declaration. -/
def clocksOf (s : State) (b : Nat) (id : DWord) : Nat :=
  match findArmed s b id with
  | some a => tileClocks (declFmtA a.decl) (declFmtB a.decl) (declK a.decl)
  | none => 0

/-- Clocks of the tiles that are ready or running (R445). -/
def queueClocks (s : State) : Nat :=
  s.press.ready.foldl (fun n t => n + clocksOf s t.1 t.2.1) 0 +
    s.press.arrays.foldl (fun n a => match a.2.run with
      | some (b, id, _, _) => n + clocksOf s b id
      | none => n) 0

/-- The queue is saturated. -/
def saturated (s : State) : Bool := decide (1300000 * arraysIn s < queueClocks s)

/-- A PRESS_DECL_ERR bit set; VF vector 1 is raised as it rises. -/
def setDeclErr (s : State) (b i : Nat) : State :=
  let x := s.bp b
  let s1 := s.setBp b { x with err := x.err ||| (1#3 <<< i) }
  if x.err.getLsbD i then s1 else msix s1 (.vf b) 1

/-- A PRESS_JOB_FLAGS bit set: OVERRUN, SATURATED, FLOOR_SHORT, OVERCOMMIT from 0 up. -/
def setJobFlag (s : State) (b i : Nat) : State :=
  let x := s.bp b
  let s1 := s.setBp b { x with flags := x.flags ||| (1#4 <<< i) }
  if x.flags.getLsbD i then s1 else msix s1 (.vf b) 1

/-- An array's tile leaves it unfinished: the clocks it was busy count (log entry 186). -/
def cutRun (s : State) (n : Nat) : State :=
  match (s.array n).run with
  | some (b, id, _, _) => modArray s n (fun x => { x with clocks := x.clocks + Config.cutClocks n x.clocks % (clocksOf s b id + 1) })
  | none => s

/-- SATURATED for every job with a ready tile while the queue is saturated. -/
def markSaturated (s : State) : State :=
  if saturated s then (s.press.ready.map (·.1)).eraseDups.foldl (fun s b => setJobFlag s b 1) s else s

/-- The sum of a load over PERIOD of the open fixed-rate jobs, as a numerator and a denominator, in units per µs. -/
def loadSum (s : State) (f : Job → Nat) : Nat × Nat :=
  (s.press.berths.filterMap (fun x => openJob x.2)).foldl
    (fun q j => if j.fixed ∧ j.periodUs ≠ 0 then (q.1 * j.periodUs + f j * q.2, q.2 * j.periodUs) else q) (0, 1)

/-- Condition A1 of R450 for a sum of clocks per µs, with the arrays now in service. -/
def a1Holds (s : State) (q : Nat × Nat) : Bool := decide (q.1 * 4 ≤ 3 * (arraysIn s - 1) * 1300 * q.2)

/-- OVERCOMMIT (R446) for the admitted fixed-rate jobs, if the arrays that remain no longer meet A1. -/
def checkCommit (s : State) : State :=
  if a1Holds s (loadSum s (·.planClocks)) then s
  else (s.press.berths.filter (fun x => ((openJob x.2).map (·.fixed)).getD false)).foldl (fun s x => setJobFlag s x.1 3) s

/-! ### Verdicts (R441, R447-R449) -/

def assertSampler (s : State) (b : Nat) : State := assertRequest s (.sampler b)

/-- A record on its way to the ledger. -/
def sendRecord (s : State) (b : Nat) (r : Bytes) : State := assertSampler (modBp s b (fun x => { x with outbox := x.outbox ++ [r] })) b

/-- Capture entries of a berth, with their ranges, coverage and captured lines still buffered, are freed on every Pier (R440). -/
def freeRanges (s : State) (b : Nat) (mine : CapRange → Bool) : State :=
  let free (n : Nat) (x : PierSt) : PierSt :=
    let gone := x.ranges.filter (fun r => mine r.2)
    let home := (homeOf s n).getD n
    let bit (k : Nat) : Bool := gone.any (fun r => decide (r.2.cov ≤ k ∧ k < r.2.cov + rankOn home r.2 (r.2.run * r.2.runs)))
    { x with ranges := x.ranges.filter (fun r => !mine r.2)
             capture := x.capture.filter (fun e => !(e.2.berth == b && gone.any (fun r => decide (e.2.first ≤ r.1 ∧ r.1 < e.2.first + e.2.count))))
             coverage := x.coverage.filter (fun k => !bit k)
             capBuf := capDrop (fun q => gone.any (fun r => rangeHas r.2 q)) x.capBuf }
  { s with piers := s.piers.map (fun p => (p.1, free p.1 p.2)) }

/-- A declaration's capture is freed (R440). -/
def freeCapture (s : State) (b : Nat) (id : DWord) : State := freeRanges s b (fun r => r.vf == b && r.declId == id)

/-- An array is relieved of its tile; one told to park then parks, and the queue may be saturated without it. -/
def releaseArray (s : State) (n : Nat) : State :=
  let s1 := modArray s n (fun x => { x with run := none, fmt := 0, fed := 0 })
  let s2 := modFerry s1 (fun f => { f with requests := f.requests.filter (· != .press n) })
  if (s.array n).park then markSaturated (parkIsland s2 (206 + n)) else s2

/-- A tile has its verdict: exactly one record, and its place in the queue or on an array is given up. Each
MISMATCH verdict counts in the life-long mismatch count (R573). -/
def tileVerdict (s : State) (b : Nat) (id : DWord) (ti tj : Nat) (rcd : Bytes) : State :=
  match findArmed s b id with
  | none => s
  | some a =>
    match findTile a ti tj with
    | none => s
    | some t =>
      if t.stage = .judged then s
      else
        let s1 := match t.stage with
          | .running n => releaseArray s n
          | _ => s
        let s2 := modPress s1 (fun p => { p with ready := p.ready.filter (fun r => !(r == (b, id, ti, tj))) })
        let s3 := sendRecord (modTile s2 b id ti tj (fun t => { t with stage := .judged })) b rcd
        let s4 := if leAt rcd 0 1 = 1 then bump (alarm s3 .hostGuard 0x0401 (BitVec.ofNat 32 b) (id.setWidth 32)) 3 1 else s3
        match findArmed s4 b id with
        | some a' =>
          if a'.tiles.all (fun t => t.stage == .judged) then
            freeCapture (modBp s4 b (fun x => { x with armed := x.armed.filter (fun a => a.declId != id) })) b id
          else s4
        | none => s4

/-- A verdict without a finished run: INCOMPLETE 2, LOST 3, REWRITTEN 4. -/
def plainVerdict (s : State) (b : Nat) (a : Armed) (t : Tile) (code : Nat) : State :=
  let s1 := match t.stage with
    | .running n => cutRun s n
    | _ => s
  tileVerdict s1 b a.declId t.ti t.tj (verdictRecord a.decl code t.ti t.tj 0 0xFF 0xFF 0)

/-- Records of the ledger not yet consumed, with those in the window. -/
def unconsumed (x : BerthPress) : Nat := (x.prod - x.cons).toNat + x.ledger.length

/-- Records move from the ledger into the window of 64 while there is room (R449); `fuel` bounds their number. -/
def fillWindow : Nat → BerthPress → BerthPress
  | 0, x => x
  | fuel + 1, x =>
    match x.ledger with
    | [] => x
    | r :: rest =>
      if (x.prod - x.cons).toNat < 64 then
        fillWindow fuel { x with window := tset x.window (x.prod.toNat % 64) r, ledger := rest, prod := x.prod + 1 }
      else x

/-- The window filled; vector 1 is raised when PROD leaves equality with CONS (R526). -/
def showRecords (s : State) (b : Nat) : State :=
  let x := s.bp b
  let y := fillWindow 64 x
  let s1 := s.setBp b y
  if x.prod = x.cons ∧ y.prod ≠ y.cons then msix s1 (.vf b) 1 else s1

/-- The record of a berth that is written next: the oldest that has room. A tile's has its room reserved; a REJECTED one waits until
room appears (R449). -/
def nextRecord (x : BerthPress) : Option Bytes :=
  x.outbox.find? (fun r => leAt r 0 1 != 5 || decide (unconsumed x + x.reserved < 1024))
def recordFits (x : BerthPress) : Bool := (nextRecord x).isSome

/-- The engine that serves a berth's records: b mod 8, or the next one in service (R562). -/
def recordEngine (s : State) (b : Nat) : Option Nat :=
  ((List.range 8).map (fun i => (b + i) % 8)).find? (fun e => laneServes s (222 + e))

/-- The service path's write of record number s of a berth, at position s mod 1,024 of its ledger (R449, R491). -/
def ledgerWrite (b e no : Nat) (r : Bytes) : Emission := .ledger (0x10 + e) (b % 8) (b / 8 * 512 + no % 1024 / 2) (32 * (no % 2)) r

/-- Ferry has written a record to the ledger. -/
def recordLanded (s : State) (b : Nat) : State :=
  let x := s.bp b
  match nextRecord x with
  | none => s
  | some r =>
    let s1 := emit s (ledgerWrite b ((recordEngine s b).getD (b % 8)) (x.prod.toNat + x.ledger.length) r)
    showRecords (s1.setBp b { x with outbox := x.outbox.erase r, ledger := x.ledger ++ [r], unread := x.unread ++ [r]
                                     reserved := if leAt r 0 1 = 5 then x.reserved else x.reserved - 1 }) b

/-- VERDICT_APPLY (R461): Line hold applies the verdict of the oldest record it has not read. -/
def verdictApply (s : State) (b : Nat) : State :=
  let x := s.bp b
  match x.unread with
  | [] => s
  | r :: rest =>
    let code := leAt r 0 1
    let id := BitVec.ofNat 64 (leAt r 4 8)
    let own (o : Nat) : Nat := if code = 0 ∨ code = 5 ∨ o = 1 then o else if code = 1 then 1 else 2
    let take : List HoldEntry → List HoldEntry := fun es =>
      match es.find? (fun e => e.declId == id && e.left != 0) with
      | some f => es.map (fun e => if e = f then { e with own := own e.own, left := e.left - 1 } else e)
      | none => es
    holdSet s b (fun x => { x with unread := rest, entries := if code = 5 then x.entries else take x.entries })

/-! ### Segments close (R436, R442) -/

/-- The result of a tile is complete, or no longer awaited. -/
def tileClosed (t : Tile) : Bool := t.result.isEmpty || t.stage == .judged

/-- A segment whose accepted SEG_LAST declaration has every result closes: tiles without a result are INCOMPLETE. -/
def closeSegments (s : State) (b : Nat) : State :=
  let x := s.bp b
  let lastDone (g : Segment) : Bool :=
    (x.armed.filter (fun a => a.segment == g.num && declLast a.decl)).all (fun a => a.tiles.all tileClosed)
  (x.segments.filter (fun g => g.lastAccepted && g.lastSeen && !g.closed && g.settled.isNone && lastDone g)).foldl (fun s g =>
    let no := s.press.closes + 1
    let s1 := modBp (modPress s (fun p => { p with closes := no })) b
      (fun x => modSeg x g.num (fun g => { g with closed := true, closeNo := no }))
    let open_ := ((s1.bp b).armed.filter (fun a => a.segment == g.num)).flatMap (fun a => (a.tiles.filter (fun t => !tileClosed t)).map (fun t => (a, t)))
    let s2 := open_.foldl (fun s at_ => plainVerdict s b at_.1 at_.2 2) s1
    match openJob (s2.bp b) with
    | some j => if g.sampled < j.floor then setJobFlag s2 b 2 else s2
    | none => s2) s

/-! ### What the Piers report (R359, R441, R478) -/

/-- Tiles that a range of a Pier serves. -/
def refTiles (s : State) (r : TileRef) : List (Armed × Tile) :=
  match findArmed s r.vf r.declId with
  | none => []
  | some a =>
    if r.result then ((a.tiles.drop r.tag).take 1).map (fun t => (a, t))
    else
      (a.tiles.filter (fun t => t.parts.contains r.tag)).map (fun t => (a, t))

/-- Reports waiting are taken: rewritten results, lost lines, and regions of Pair points that were spoilt; a write counts
while the point is open (R478). A segment whose last awaited result they end closes (R442). -/
def absorb (s : State) : State :=
  let rw := s.reports.rewritten
  let lost := s.reports.lost
  let bad := s.reports.pairBad
  let s1 := { s with reports := { rewritten := [], lost := [], pairBad := [] } }
  let s2 := lost.foldl (fun s r => (refTiles s r).foldl (fun s x => plainVerdict s r.vf x.1 x.2 3) s) s1
  let s3 := rw.foldl (fun s r => (refTiles s r).foldl (fun s x => plainVerdict s r.vf x.1 x.2 4) s) s2
  let s4 := ((lost ++ rw).map (·.vf)).eraseDups.foldl closeSegments s3
  bad.foldl (fun s (p : Nat × Word × Byte) => modBp s p.1 (fun x => { x with points := x.points.map (fun q =>
    if q.point = p.2.1 ∧ q.status = 0 ∧ q.sent.isNone ∧ (p.2.2 ≠ 1 ∨ !q.closed) then { q with status := p.2.2 } else q) })) s4

/-- A command of Press, Line hold or Pair acts after the reports that have arrived. -/
def whenPress (s : State) (f : State → State) : Out := whenRunning s (fun s => f (absorb s))

/-- A write of the host's to a VF's declaration page, after the reports that have arrived (R90, R528). -/
def whenPressBar (s : State) (vf : Nat) (f : State → State) : Out := whenBar s (.vf vf) (fun s => f (absorb s))

/-- A write to Pilot's registers that acts on the lanes, after the reports that have arrived. -/
def whenPressCommanded (s : State) (f : State → State) : Out := whenCommanded s (fun s => f (absorb s))

/-! ### The ring (R417, R418, R421) -/

/-- A declaration reaches a ring: it is taken, or dropped with FULL, or dropped with PORT where no ring takes it. -/
def declare (s : State) (b : Nat) (d : Bytes) : State :=
  let x := s.bp b
  match openJob x with
  | none => setDeclErr s b 0
  | some j =>
    if j.closing ∨ (s.berth b).state ≠ .running then setDeclErr s b 0
    else if 256 ≤ x.ring.length then setDeclErr s b 1
    else s.setBp b { x with ring := x.ring ++ [padTo 64 d], accepted := x.accepted + 1 }

/-- PRESS_DECL_PORT (R417): a single aligned 64-byte write; any other write to the range sets PORT. Of a RINSING berth
every write is ignored (R331). -/
def execPressDeclPort (vf offset : Nat) (data : Bytes) (s : State) : Out :=
  whenPressBar s vf (fun s =>
    if (s.berth vf).state = .rinsing then s
    else if offset = 0x2040 ∧ data.length = 64 then declare s vf data
    else setDeclErr s vf 0)

/-- The RUNNING berth that a site serves. -/
def siteBerth (s : State) (k : Nat) : Option Nat :=
  (s.berths.find? (fun x => x.2.state == .running && x.2.sites.getLsbD k)).map (·.1)

/-- DECL_STATUS to a site: the ring's counts. -/
def declStatus (s : State) (site b : Nat) : State :=
  let x := s.bp b
  sendSide s site (.declStatus site x.accepted x.acked) (Config.siteMessage [[0x08], toLe 4 x.accepted.toNat, toLe 4 x.acked.toNat])

/-- DECLARE (R417): accepted only from a site that serves a RUNNING berth and with 64 bytes; else discarded and
journalled. The answer carries the ring's counts. -/
def execDeclare (site : Nat) (data : Bytes) (s : State) : Out :=
  whenPress s (fun s =>
    if 12 ≤ site then s
    else
      match siteBerth s site with
      | some b =>
        let s1 := if data.length = 64 then declare s b data
          else alarm s .boarding 0x0405 (BitVec.ofNat 32 site) (BitVec.ofNat 32 b)
        declStatus s1 site b
      | none =>
        let b := ((s.berths.find? (fun x => x.2.state != .free && x.2.sites.getLsbD site)).map (·.1)).getD 0
        declStatus (alarm s .boarding 0x0405 (BitVec.ofNat 32 site) (BitVec.ofNat 32 b)) site b)

/-- The result range of a rejected declaration: the bytes of C, or the whole slot where its fields give none (log entry
48). -/
def rejectedRange (slots : Tbl (Nat × Nat)) (d : Bytes) : Nat × Nat :=
  match slotOf slots (declRegC d) with
  | none => (0, 0)
  | some (base, n) =>
    if (isIntFmt (declFmtC d) || isFpFmt (declFmtC d)) && (declKind d == 1 || declKind d == 2) && geometryOk d then (base, min n (bytesC d))
    else (base, n)

/-- An entry of the hold table for a declaration. -/
def entryOf (d : Bytes) (range : Nat × Nat) (reads : List (Nat × Nat)) (left own : Nat) (inherited orphan : Bool) : HoldEntry :=
  { declId := declId d, segment := declSegment d, base := range.1, size := range.2, state := if own = 0 then .damp else .failed,
    cause := own, reads := reads, left := left, own := own, inherited := inherited, orphan := orphan }

/-- A declaration leaves the ring, acknowledged. -/
def popHead (x : BerthPress) : BerthPress := { x with ring := x.ring.drop 1, acked := x.acked + 1, head := none }

/-- The outcome of a point forbids its gated segment to dry (R483, R484): LOST, or any role but agreeing. -/
def pointForbids (p : PairPoint) : Bool := p.outcome != 0 && (p.outcome == 6 || p.role != 0)

/-- A Pair point closes when its declaration is accepted at the ring's head (log entry 161); it gates that declaration's segment. -/
def closePoint (s : State) (b : Nat) (d : Bytes) : State :=
  let ps := (s.bp b).points.filter (fun p => p.closeDecl == declId d && !p.closed)
  ps.foldl (fun s p =>
    let s1 := modBp s b (fun x => modSeg { x with points := x.points.map (fun q => if q = p then { q with closed := true } else q) }
      (declSegment d) (fun g => { g with gate := g.gate ++ [p.point], forbid := g.forbid || pointForbids p }))
    p.cursors.foldl (fun s c => modPier s (servedBy s c.1) (fun y =>
      { y with cursors := y.cursors.map (fun k => if k.1 = c.2 then (k.1, { k.2 with closing := true }) else k) })) s1) s

/-- DECL_HEAD_CHECK (R418, R421): the declaration at the head passes, and waits to be armed, or is rejected. A rejected
one waits for a free hold entry (R459) and for an export of its result range (R468); one that names a settled segment changes no
outcome (R462, R463). -/
def headCheck (s : State) (b : Nat) : State :=
  let x := s.bp b
  match x.ring, openJob x, x.head with
  | d :: _, some j, none =>
    if j.closing ∨ (s.berth b).state = .rinsing then s
    else
      let code := declCheck s b x j x.regions d
      if code = 0 then
        let s1 := modBp s b (fun x => modSeg { x with lastDecl := declId d, lastSeg := declSegment d, anyDecl := true, head := some x.regions }
          (declSegment d) (fun g => { g with lastAccepted := g.lastAccepted || declLast d }))
        holdSet (closePoint (modPress s1 (fun p => { p with waiting := p.waiting ++ [b] })) b d) b id
      else if 1024 ≤ x.entries.length ∨ x.exports.any (fun e => overlaps (e.2.1, e.2.2) (rejectedRange x.regions d)) = true then s
      else
        let orphan := code == 0x08
        let s1 := modBp s b (fun x =>
          let y := popHead { x with lastReject := code }
          let y1 := if orphan || segSettled y (declSegment d) then y else modSeg y (declSegment d) (fun g => { g with lastSeen := g.lastSeen || declLast d })
          addEntry y1 (entryOf d (rejectedRange x.regions d) [] 0 2 false orphan))
        holdAgain (setDeclErr (sendRecord s1 b (verdictRecord d 5 0xFFFF 0xFFFF 0 0xFF 0xFF code.toNat)) b 2) b
  | _, _, _ => s

def execDeclHeadCheck (vf : Nat) (s : State) : Out := whenPress s (headCheck · vf)

/-! ### Arming (R438-R440, R449, R464) -/

/-- A panel, scale part or result tile that capture needs: its unit and line ranges, the tiles that use it by place, and
the lowest of their indices. -/
structure CapPart where
  result : Bool
  tag : Nat
  unit : Nat
  ranges : List LineRange
  users : List Nat
  lowest : Nat
  deriving DecidableEq, Repr

/-- Places in a list of tiles for which a test holds. -/
def placesOf (tiles : List Nat) (p : Nat → Bool) : List Nat := (List.range tiles.length).filter (fun k => p (tiles.getD k 0))

/-- The parts of a sample, lines needed by several tiles once (R437). -/
def captureParts (d : Bytes) (pl : (Nat × Nat) × (Nat × Nat) × (Nat × Nat) × (Nat × Nat)) (tiles : List Nat) : List CapPart :=
  let tn := declTn d
  let part (result : Bool) (u : Nat) (rs : List LineRange) (users : List Nat) : CapPart :=
    { result := result, tag := 0, unit := u, ranges := rs, users := users, lowest := tiles.getD (users.headD 0) 0 }
  let is := (tiles.map (· / tn)).eraseDups
  let js := (tiles.map (· % tn)).eraseDups
  let ops := is.flatMap (fun i =>
      let us := placesOf tiles (fun t => t / tn == i)
      [part false pl.1.1 (panelA d pl.1.2 i) us, part false pl.1.1 (panelAS d pl.1.2 i) us]) ++
    js.flatMap (fun j =>
      let us := placesOf tiles (fun t => t % tn == j)
      [part false pl.2.1.1 (panelB d pl.2.1.2 j) us, part false pl.2.1.1 (panelBS d pl.2.1.2 j) us]) ++
    (if declAddend d then (List.range tiles.length).map (fun k =>
      part false pl.2.2.2.1 (panelC d pl.2.2.2.2 (tiles.getD k 0 / tn) (tiles.getD k 0 % tn)) [k]) else [])
  let kept := ops.filter (fun p => !p.ranges.isEmpty)
  (List.range kept.length).map (fun k => { kept.getD k (part false 0 [] []) with tag := k }) ++
    (List.range tiles.length).map (fun k =>
      { part true pl.2.2.1.1 (panelC d pl.2.2.1.2 (tiles.getD k 0 / tn) (tiles.getD k 0 % tn)) [k] with tag := k })

/-- The lowest place from `lo` up at which `n` fit below `hi` beside what is used. -/
def firstFit (used : List (Nat × Nat)) (n lo hi : Nat) : Option Nat :=
  let free (c : Nat) : Bool := decide (lo ≤ c ∧ c + n ≤ hi) && used.all (fun u => decide (c + n ≤ u.1 ∨ u.1 + u.2 ≤ c))
  ((lo :: used.map (fun u => u.1 + u.2)).filter free).min?

/-- Capture space of a Basket slice, in lines (R440). -/
def sliceEnd (k : Nat) : Nat := if k = 0 then 3932160 else 4194304

/-- Areas of a slice that armed declarations hold, each until its last verdict (R440). -/
def usedAreas (s : State) (k : Nat) : List (Nat × Nat) :=
  s.press.berths.flatMap (fun x => x.2.armed.flatMap (fun a => (a.areas.filter (fun r => r.1 == k)).map (·.2)))

/-- Free capture space of a slice in KiB (R455). -/
def basketFree (s : State) (k : Nat) : Nat := (sliceEnd k - 262144 - (usedAreas s k).foldl (fun n u => n + u.2) 0) / 16

/-- The capture range of a part's line range. -/
def capRange (b : Nat) (id : DWord) (p : CapPart) (r : LineRange) (slice area : Nat) : CapRange :=
  { first := r.first, run := r.run, stride := r.stride, runs := r.runs, tag := p.tag, slice := slice, area := area, cov := 0, vf := b,
    declId := id, result := p.result, done := false }

/-- The Basket area of a range: slice, first line, lines. -/
def rangeArea (r : CapRange) : Nat × Nat × Nat := (r.slice, r.area, r.run * r.runs)

/-- Areas given to every range of the parts; none if some slice has no room. -/
def placeAreas (s : State) (b : Nat) (id : DWord) (ps : List CapPart) : Option (List (CapPart × CapRange)) :=
  (ps.flatMap (fun p => p.ranges.map (fun r => (p, r)))).foldl (fun acc pr =>
    match acc with
    | none => none
    | some l =>
      let k := if pr.1.unit < 8 then pr.1.unit else pr.1.lowest % 8
      let used := usedAreas s k ++ (l.filter (fun q => q.2.slice == k)).map (fun q => (q.2.area, q.2.run * q.2.runs))
      match firstFit used (pr.2.run * pr.2.runs) 262144 (sliceEnd k) with
      | some a => some (l ++ [(pr.1, capRange b id pr.1 pr.2 k a)])
      | none => none) (some [])

/-- Coverage bits a Pier's ranges use. -/
def usedCoverage (home : Nat) (x : PierSt) : List (Nat × Nat) := x.ranges.map (fun r => (r.2.cov, rankOn home r.2 (r.2.run * r.2.runs)))

/-- Ranges of one kind loaded into a Pier with a capture entry: range numbers in a row, coverage for each. None if the
Pier has no room. The second part says which number each range got. -/
def loadEntry (home b : Nat) (result : Bool) (rs : List CapRange) (x : PierSt) : Option (PierSt × List Nat) :=
  match rs with
  | [] => some (x, [])
  | _ =>
    match firstFit (x.ranges.map (fun r => (r.1, 1))) rs.length 0 1024, (List.range 32).find? (fun i => (tfind x.capture i).isNone) with
    | some first, some i =>
      let x1 := rs.foldl (fun (acc : Option (PierSt × Nat)) r =>
        match acc with
        | none => none
        | some (y, k) =>
          match firstFit (usedCoverage home y) (rankOn home r (r.run * r.runs)) 0 262144 with
          | some c => some ({ y with ranges := tset y.ranges k { r with cov := c } }, k + 1)
          | none => none) (some (x, first))
      x1.map (fun y => ({ y.1 with capture := tset y.1.capture i { result := result, berth := b, first := first, count := rs.length } },
        (List.range rs.length).map (first + ·)))
    | _, _ => none

/-- What arming comes to: the state with every entry loaded and each part's ranges by home lane and number, a pin that was
refused, or no room. -/
inductive ArmResult where
  | done (s : State) (where_ : List (CapPart × Nat × Nat))
  | noPin
  | noRoom

/-- One home lane's share of a declaration. -/
def loadLane (b : Nat) (rs : List (CapPart × CapRange)) (acc : ArmResult) (home : Nat) : ArmResult :=
  match acc with
  | .done s w =>
    let n := servedBy s home
    let x := s.pier n
    let mine := rs.filter (fun r => (unitLanes r.1.unit).contains home && decide (0 < rankOn home r.2 (r.2.run * r.2.runs)))
    let ops := mine.filter (fun r => !r.1.result)
    let res := mine.filter (fun r => r.1.result)
    if mine.isEmpty then acc
    else if !canPin x b then .noPin
    else
      match loadEntry home b false (ops.map (·.2)) x with
      | none => .noRoom
      | some (x1, ns) =>
        match loadEntry home b true (res.map (·.2)) x1 with
        | none => .noRoom
        | some (x2, ms) =>
          .done (s.setPier n x2) (w ++ List.zipWith (fun r k => (r.1, home, k)) ops ns ++ List.zipWith (fun r k => (r.1, home, k)) res ms)
  | r => r

/-- Every Pier that holds lines of the sample loaded, or nothing. -/
def loadPiers (s : State) (b : Nat) (rs : List (CapPart × CapRange)) : ArmResult :=
  ((rs.map (·.1.unit)).eraseDups.flatMap unitLanes).foldl (loadLane b rs) (.done s [])

/-- What a declaration waits for on its own berth's account: a hold entry, ledger room, damp operands of earlier segments,
an export of its result, the cursors of a Pair point it closes (R449, R459, R464, R468, R477). -/
def ownReady (x : BerthPress) (j : Job) (slots : Tbl (Nat × Nat)) (d : Bytes) : Bool :=
  decide (x.entries.length < 1024) &&
    decide (unconsumed x + x.reserved + (x.outbox.filter (fun r => leAt r 0 1 == 5)).length + sampleCount d j.dEff ≤ 1024) &&
    !x.entries.any (fun e => e.state == .damp && decide (e.segment < declSegment d) &&
      (declReads slots d).any (fun r => overlaps r (entryRange e))) &&
    !x.exports.any (fun e => overlaps (e.2.1, e.2.2) (declResult slots d)) &&
    !x.points.any (fun p => p.closeDecl == declId d && !p.cursors.isEmpty)

/-- The declaration at the head that waits to be armed. -/
def waitingHead (s : State) (b : Nat) : Option (Job × Tbl (Nat × Nat) × Bytes) :=
  match openJob (s.bp b), (s.bp b).head, (s.bp b).ring with
  | some j, some slots, d :: _ => if (s.berth b).state = .rinsing then none else some (j, slots, d)
  | _, _, _ => none

/-- A head that arrived earlier still waits; none is passed over (R439). -/
def passedOver (s : State) (b : Nat) : Bool := s.press.waiting.head? != some b

/-- The sampler's seed of a berth. -/
def samplerSeed (s : State) (b : Nat) : Option (Option Bytes) :=
  (s.press.keys.find? (fun e => e.1 == b)).map (fun e => e.2.bind (·.press))

/-- Captured bytes of the parts on one tier. -/
def capturedBytes (rs : List (CapPart × CapRange)) (tier2 : Bool) : Nat :=
  64 * (rs.filter (fun r => decide (8 ≤ r.1.unit) == tier2)).foldl (fun n r => n + r.2.run * r.2.runs) 0

/-- The declaration is armed: it leaves the ring acknowledged, with its hold entry and its tiles. -/
def armed (s : State) (b : Nat) (j : Job) (slots : Tbl (Nat × Nat)) (d : Bytes) (tiles : List Nat) (rs : List (CapPart × CapRange))
    (w : List (CapPart × Nat × Nat)) : State :=
  let c := tiles.length
  let tile (k : Nat) : Tile :=
    let t := tiles.getD k 0
    let of_ (result : Bool) : List (Nat × Nat) := (w.filter (fun p => p.1.result == result && p.1.users.contains k)).map (·.2)
    let mine := rs.filter (fun q => q.1.users.contains k)
    { ti := t / declTn d, tj := t % declTn d, stage := .capturing, operands := of_ false, result := of_ true
      parts := ((mine.filter (fun q => !q.1.result)).map (·.1.tag)).eraseDups
      feed := (mine.filter (fun q => !q.1.result)).map (fun q => rangeArea q.2)
      outcome := (mine.filter (·.1.result)).map (fun q => rangeArea q.2) }
  let x := s.bp b
  let inherited := x.entries.any (fun e => e.state == .failed && (e.orphan || decide (e.segment < declSegment d)) &&
    (declReads slots d).any (fun r => overlaps r (entryRange e)))
  let y := modSeg (popHead x) (declSegment d) (fun g => { g with
    lastSeen := g.lastSeen || declLast d
    sampled := g.sampled + c
    clocks := g.clocks + c * tileClocks (declFmtA d) (declFmtB d) (declK d)
    bytes1 := g.bytes1 + capturedBytes rs false
    bytes2 := g.bytes2 + capturedBytes rs true })
  let z := addEntry { y with
    reserved := y.reserved + c
    armed := y.armed ++ [{ declId := declId d, segment := declSegment d, decl := d, tiles := (List.range c).map tile,
                                 areas := rs.map (fun q => rangeArea q.2) }] }
    (entryOf d (declResult slots d) (declReads slots d) c 0 inherited false)
  let s1 := modPress (s.setBp b z) (fun p => { p with waiting := p.waiting.filter (· != b) })
  let beyond := match findSeg z (declSegment d) with
    | some g => j.fixed && (decide (j.planClocks < g.clocks) || decide (j.planT1 * 1024 < g.bytes1) || decide (j.planT2 * 1024 < g.bytes2))
    | none => false
  holdAgain (closeSegments (if beyond then setJobFlag s1 b 0 else s1) b) b

/-- DECL_ARM (R438, R439): the head is armed once everything it waits for is there. -/
def declArm (s : State) (b : Nat) : State :=
  match waitingHead s b with
  | none => s
  | some (j, slots, d) =>
    if j.closing ∨ !ownReady (s.bp b) j slots d ∨ passedOver s b then s
    else
      match samplerSeed s b with
      | none => vaultMiss s (.press 0) b
      | some none => s
      | some (some seed) =>
        let tiles := sampleTiles seed d (sampleCount d j.dEff)
        match declPlaces s b slots d with
        | none => s
        | some pl =>
          match placeAreas s b (declId d) (captureParts d pl tiles) with
          | none => s
          | some rs =>
            match loadPiers s b rs with
            | .done t w => armed t b j slots d tiles rs w
            | .noPin => s
            | .noRoom => s

def execDeclArm (vf : Nat) (s : State) : Out := whenPress s (declArm · vf)

/-- CAPTURE_PIN_RETRY (R348): the sampler tries again at least 100 µs after a pin was refused. -/
def execCapturePinRetry (vf : Nat) (s : State) : Out := whenPress s (declArm · vf)

/-- The vault's fill of a berth's seed, and its invalidation. -/
def samplerFill (s : State) (b : Nat) (f : Option KeyFill) : State :=
  modPress s (fun p => { p with keys := (b, f) :: p.keys.filter (fun e => e.1 != b) })
def samplerInvalidate (s : State) (which : Nat → Bool) : State := modPress s (fun p => { p with keys := p.keys.filter (fun e => !which e.1) })

/-! ### Capture completes (R441) -/

/-- A tile whose operands are all there is ready; it joins the queue. -/
def readyTiles (s : State) (b : Nat) (id : DWord) : State :=
  match findArmed s b id with
  | none => s
  | some a =>
    markSaturated ((a.tiles.filter (fun t => t.stage == .capturing && t.operands.isEmpty)).foldl (fun s t =>
      modPress (modTile s b id t.ti t.tj (fun t => { t with stage := .ready })) (fun p => { p with ready := p.ready ++ [(b, id, t.ti, t.tj)] })) s)

/-- RANGE_DONE (R438): a Pier reports a range whose every coverage bit is set. -/
def rangeDone (s : State) (n i : Nat) : State :=
  match tfind (s.pier n).ranges i, homeOf s n with
  | some r, some home =>
    if r.done ∨ !rangeFull (s.pier n) home r then s
    else
      let s1 := modPier s n (fun x => { x with ranges := tset x.ranges i { r with done := true } })
      let drop (l : List (Nat × Nat)) : List (Nat × Nat) := l.filter (· != (home, i))
      let s2 := modBp s1 r.vf (fun x => { x with armed := x.armed.map (fun a =>
        if a.declId = r.declId then { a with tiles := a.tiles.map (fun t => { t with operands := drop t.operands, result := drop t.result }) } else a) })
      closeSegments (readyTiles s2 r.vf r.declId) r.vf
  | _, _ => s

def execRangeDone (pier range : Nat) (s : State) : Out := whenPress s (rangeDone · pier range)

/-- OPERAND_WAIT_TIMEOUT (R441): a complete result whose operands are not complete 10 µs later. -/
def execOperandWaitTimeout (vf : Nat) (declId : DWord) (tile : Nat) (s : State) : Out :=
  whenPress s (fun s =>
    match findArmed s vf declId with
    | some a =>
      (match a.tiles.drop tile with
        | t :: _ => if t.result.isEmpty ∧ !t.operands.isEmpty then plainVerdict s vf a t 2 else s
        | [] => s)
    | none => s)

/-! ### Running (R443, R444) -/

/-- The order of dispatch: fixed-rate tiles of closed segments by close, other fixed-rate tiles, then free-running ones. -/
def tileRank (s : State) (b : Nat) (id : DWord) : Nat × Nat :=
  match openJob (s.bp b), findArmed s b id with
  | some j, some a =>
    if !j.fixed then (2, 0)
    else
      match findSeg (s.bp b) a.segment with
      | some g => if g.closed then (0, g.closeNo) else (1, 0)
      | none => (1, 0)
  | _, _ => (2, 0)

/-- The ready tile that runs next: the lowest rank, the first among equals. -/
def nextTile (s : State) : Option (Nat × DWord × Nat × Nat) :=
  s.press.ready.foldl (fun best t =>
    match best with
    | none => some t
    | some u =>
      let p := tileRank s t.1 t.2.1
      let q := tileRank s u.1 u.2.1
      if p.1 < q.1 ∨ (p.1 = q.1 ∧ p.2 < q.2) then some t else some u) none

/-- Captured lines of a declaration's operands, or of its results, that are not yet in the Basket: no array consumes them before
they are (R27). -/
def unwritten (s : State) (b : Nat) (id : DWord) (result : Bool) : Bool :=
  s.piers.any (fun p => p.2.ranges.any (fun r =>
    r.2.vf == b && r.2.declId == id && r.2.result == result && rangeBuffered p.2 r.2))

/-- TILE_DISPATCH (R27, R443): an idle array in service, toward which no burst of an earlier tile runs, takes the next ready tile, once
its operand lines are in the Basket, and asks for its feed. -/
def tileDispatch (s : State) (n : Nat) : State :=
  if !arrayUp s n ∨ (s.array n).run.isSome ∨ (s.array n).park ∨ s.ferry.bursts.contains (.press n) = true then s
  else
    match nextTile s with
    | none => s
    | some (b, id, ti, tj) =>
      if unwritten s b id false then s
      else
      let s1 := modPress s (fun p => { p with ready := p.ready.erase (b, id, ti, tj) })
      let fmt : Byte := match findArmed s b id with
        | some a => BitVec.ofNat 8 (declFmtA a.decl)
        | none => 0
      let s2 := modArray (modTile s1 b id ti tj (fun t => { t with stage := .running n })) n (fun x => { x with run := some (b, id, ti, tj), fmt := fmt, fed := 0 })
      assertRequest s2 (.press n)

def execTileDispatch (array : Nat) (s : State) : Out := whenPress s (tileDispatch · array)

/-- The tile an array runs. -/
def runTile (s : State) (n : Nat) : Option (Nat × Armed × Tile) :=
  match (s.array n).run with
  | none => none
  | some (b, id, ti, tj) => (findArmed s b id).bind (fun a => (findTile a ti tj).map (fun u => (b, a, u)))

/-- Lines of some Basket areas; at most 64 of them, which are 4,096 bytes, from line `k` on within one area. -/
def areaLines (l : List (Nat × Nat × Nat)) : Nat := l.foldl (fun n a => n + a.2.2) 0
def areaBurst : List (Nat × Nat × Nat) → Nat → Option (Nat × Nat × Nat)
  | [], _ => none
  | a :: l, k => if k < a.2.2 then some (a.1, a.2.1 + k, min 64 (a.2.2 - k)) else areaBurst l (k - a.2.2)

/-- The next burst of an array's feed: the operand lines of its tile, then its result's once they are complete and in the Basket
(R443, R515). -/
def feedBurst (s : State) (n : Nat) : Option (Nat × Nat × Nat) :=
  match runTile s n with
  | none => none
  | some (b, a, u) =>
    let x := s.array n
    if x.fed < areaLines u.feed ∨ (u.result.isEmpty ∧ unwritten s b a.declId true = false) then areaBurst (u.feed ++ u.outcome) x.fed
    else none

/-- Every line of its tile has been fed to an array. -/
def fedAll (s : State) (n : Nat) (u : Tile) : Bool := decide (areaLines (u.feed ++ u.outcome) ≤ (s.array n).fed)

/-- TILE_COMPLETE (R27, R443, R447): the reference is done and the result, once complete and fed from the Basket, is compared. -/
def tileComplete (s : State) (n : Nat) (t : TileData) : State :=
  match runTile s n with
  | none => s
  | some (b, a, u) =>
    if !u.result.isEmpty || unwritten s b a.declId true || !fedAll s n u then s
    else
      let rcd := judgeTile a.decl t u.ti u.tj
      let count (x : PressArray) : PressArray :=
        let y := arrayCount { x with clocks := x.clocks + clocksOf s b a.declId } 0 1
        if leAt rcd 0 1 = 1 then arrayCount y 3 1 else y
      tileVerdict (modArray s n count) b a.declId u.ti u.tj rcd

def execTileComplete (array : Nat) (d : TileData) (s : State) : Out := whenPress s (tileComplete · array d)

/-- A tile is requeued from its first k, ahead of the tiles that became ready after it (R444). -/
def requeue (s : State) (n : Nat) : State :=
  match (s.array n).run with
  | none => s
  | some (b, id, ti, tj) =>
    let s1 := modTile (cutRun s n) b id ti tj (fun t => { t with stage := .ready })
    modPress (modArray s1 n (fun x => arrayCount { x with run := none, fmt := 0, fed := 0 } 2 1)) (fun p => { p with ready := (b, id, ti, tj) :: p.ready })

/-- An array leaves service until its domain next powers up (R444, R446, R562); a spot test of it ends with that. -/
def arrayLost (s : State) (n : Nat) : State :=
  let s0 := modPress (requeue s n) (fun p => { p with test := if p.test = some n then none else p.test })
  let s1 := modFerry s0 (fun f => { f with requests := f.requests.filter (· != .press n) })
  markSaturated (checkCommit (outOfService s1 (206 + n)))

/-- An array faults (R444). -/
def arrayFault (s : State) (array : Nat) (cause : ArrayCause) : State :=
  if 16 ≤ array ∨ (s.island (.press array)).service = .failed then s
  else
    let s1 := modArray s array (fun x => match cause with
      | .residue => { x with err := x.err ||| 1#3 }
      | .sequencer => { x with err := x.err ||| 2#3 }
      | .pllLoss => x)
    arrayLost (match cause with
      | .pllLoss => s1.setIsland (.press array) { s1.island (.press array) with pll := false }
      | _ => s1) array

/-- ARRAY_FAULT. -/
def execArrayFault (array : Nat) (cause : ArrayCause) (s : State) : Out := whenPress s (arrayFault · array cause)

/-- PRESS_CTL.PARK (R454): the running tile finishes, then the array parks; 0 returns it to service. -/
def execPressPark (array : Nat) (park : Bool) (s : State) : Out :=
  whenCommanded s (fun s =>
    if 16 ≤ array then s
    else
      let s1 := modArray s array (fun x => { x with park := park })
      if !park then unpark s1 (206 + array)
      else if (s.array array).run.isNone then markSaturated (parkIsland s1 (206 + array)) else s1)

/-! ### The page (R449, R452) -/

def execVerdictApply (vf : Nat) (s : State) : Out := whenPress s (verdictApply · vf)

/-- PRESS_VERDICT_CONS: a write outside [CONS, PROD] is ignored and sets PORT. -/
def execPressVerdictCons (vf : Nat) (value : Word) (s : State) : Out :=
  whenPressBar s vf (fun s =>
    let x := s.bp vf
    if (value - x.cons).toNat ≤ (x.prod - x.cons).toNat then
      let s1 := showRecords (s.setBp vf { x with cons := value }) vf
      if (s1.bp vf).outbox.isEmpty then s1 else assertSampler s1 vf
    else setDeclErr s vf 0)

/-- PRESS_REGION_COMMIT: every staged slot takes effect at once; a size of 0 empties one. -/
def execPressRegionCommit (vf : Nat) (s : State) : Out :=
  whenPressBar s vf (fun s =>
    if (s.berth vf).state = .rinsing then s else modBp s vf (fun x => { x with regions := x.regionsStaged.filter (fun r => r.2.2 != 0) }))

/-! ### A job ends -/

/-- The tiles of a berth, queued and running, are dropped (step 0 of R323). -/
def dropTiles (s : State) (b : Nat) : State :=
  let s1 := (List.range 16).foldl (fun s n => match (s.array n).run with
    | some (c, _, _, _) => if c = b then releaseArray (cutRun s n) n else s
    | none => s) s
  let s2 := modPress s1 (fun p => { p with ready := p.ready.filter (fun t => t.1 != b), waiting := p.waiting.filter (· != b) })
  modBp s2 b (fun x => { x with armed := x.armed.map (fun a => { a with tiles := [] }), head := none })

/-- Every capture entry of a berth retired. -/
def freeAllCapture (s : State) (b : Nat) : State := freeRanges s b (fun r => r.vf == b)

/-- A berth's lines in the Basket: its captured areas, and its ledger, the 512 lines at its place in the lowest 16 MiB of slice
b mod 8 (R440, R449). -/
def berthAreas (s : State) (b : Nat) : List (Nat × Nat × Nat) := (s.bp b).armed.flatMap (·.areas) ++ [(b % 8, b / 8 * 512, 512)]

/-- Step 3 of R323: the berth's lines in every Basket slice zeroed; its entries, coverage and captured lines gone. -/
def wipeBasket (s : State) (b : Nat) : State :=
  freeAllCapture ((berthAreas s b).foldl (fun s a => emit s (.basketZero a.1 a.2.1 a.2.2)) s) b

/-- The cursors of a berth's points freed. -/
def freeCursors (s : State) (b : Nat) : State :=
  { s with piers := s.piers.map (fun p => (p.1, { p.2 with cursors := p.2.cursors.filter (fun c => c.2.berth != b) })) }

/-- A berth is out of its job, without verdicts: its tiles and its cursors go. Its ring, Basket areas and records stay for step 3 of the
rinse (R416). -/
def quitJob (s : State) (b : Nat) : State :=
  modBp (freeCursors (dropTiles s b) b) b (fun x =>
    { x with job := x.job.map (fun j => { j with isOpen := false, closing := false, answer := false }), peers := [] })

/-- A job ends (R416): its ring is released, and its capture goes with it. -/
def endJob (s : State) (b : Nat) : State :=
  modBp (freeAllCapture (quitJob s b) b) b (fun x => { x with ringHeld := false, ring := [], armed := [], reserved := 0 })

/-! ### Peripherals (R515, R516) -/

/-- The path that serves a peripheral is there and wants its burst. -/
def burstServed (s : State) (p : Peripheral) : Bool :=
  match p with
  | .flash => s.ferry.engs.any (fun e => e.2.wait == .flash)
  | .press n => (feedBurst s n).isSome && arrayUp s n
  | .sampler b => (recordEngine s b).isSome && recordFits (s.bp b)
  | .gangway l =>
    (match laneLink s l with
      | some n => s.ferry.engs.any (fun e => e.2.wait == .bundle && bundleLink s e.2.ch == some n)
      | none => false)

/-- Bursts whose requests are asserted and whose path is free start. -/
def offerBurst (s : State) (p : Peripheral) : State := if burstServed s p then startBurst s p else s

/-- PERIPHERAL_REQUEST (R516): a request asserted, or withdrawn before its burst starts. -/
def execPeripheralRequest (p : Peripheral) (asserted : Bool) (s : State) : Out :=
  whenPress s (fun s =>
    if asserted then offerBurst (assertRequest s p) p
    else modFerry s (fun f => { f with requests := f.requests.filter (· != p) }))

/-- FLASH_IN takes up to 256 bytes at its place in the flash. -/
def flashBurst (s : State) : State :=
  match s.ferry.engs.find? (fun e => e.2.wait == .flash) with
  | none => s
  | some (e, r) =>
    let d := engDesc s r.ch
    let p := r.w + r.buf.length
    engGo (setEng s e { r with buf := r.buf ++ mread 0xFF s.flash (dSrc d + p) (min 256 (dTotal d - p)), wait := .finished }) e

/-- A feed burst of an array: stream n mod 2 of engine n / 2 has read its lines from the Basket, under the code of that engine's service
path (R491, R515). One that outlives its tile is discarded (R516). -/
def pressBurst (s : State) (n : Nat) : State :=
  match feedBurst s n with
  | none => s
  | some (k, line, lines) =>
    let s1 := modArray (emit s (.feed n (0x10 + n / 2) k line lines)) n (fun x => { x with fed := x.fed + lines })
    match runTile s1 n with
    | some (_, _, u) => if fedAll s1 n u then s1 else assertRequest s1 (.press n)
    | none => s1

/-- A lane's bundle reaches the LINK_IN descriptor it names. -/
def bundleBurst (s : State) (l : Nat) : State :=
  match laneLink s l with
  | none => s
  | some n =>
    match s.ferry.engs.find? (fun e => e.2.wait == .bundle && bundleLink s e.2.ch == some n), (s.link n).bundles with
    | some (e, r), b :: _ =>
      engGo (setEng s e { r with buf := b.data.take (dTotal (engDesc s r.ch) - r.w), wait := .finished, bundle := b.order }) e
    | _, _ => s

/-- PERIPHERAL_BURST_DONE (R516): a burst completes whole; no further one starts until the request is asserted again,
which a lane with more to deliver and a sampler with more records do at once. -/
def burstDone (s : State) (p : Peripheral) : State :=
  let started := s.ferry.bursts.contains p
  let s0 := if started then s else offerBurst s p
  if !s0.ferry.bursts.contains p then s
  else
    let s1 := modFerry s0 (fun f => { f with bursts := f.bursts.erase p, requests := f.requests.filter (· != p) })
    match p with
    | .flash => flashBurst s1
    | .press n => pressBurst s1 n
    | .sampler b =>
      let s2 := if recordFits (s1.bp b) then recordLanded s1 b else s1
      if (s2.bp b).outbox.isEmpty then s2 else assertSampler s2 b
    | .gangway l =>
      let more : Bool := match laneLink s1 l with
        | some n =>
          (match s1.ferry.engs.find? (fun e => e.2.wait == .bundle && bundleLink s1 e.2.ch == some n), (s1.link n).bundles with
            | some (_, r), b :: rest => !rest.isEmpty || decide (dTotal (engDesc s1 r.ch) - r.w < b.data.length)
            | _, _ => !(s1.link n).bundles.isEmpty)
        | none => false
      let s2 := if more then assertRequest s1 p else s1
      bundleBurst s2 l

def execPeripheralBurstDone (p : Peripheral) (s : State) : Out := whenPress s (burstDone · p)

/-! ### An engine fails (R562) -/

/-- FERRY_ENGINE_FAULT: the engine leaves service; its descriptor runs again on the next free engine, ahead of all that
wait; its two arrays lose their feed. -/
def engineFault (s : State) (e : Nat) : State :=
  if 8 ≤ e ∨ (s.island (.ferry e)).service = .failed then s
  else
    let s1 := match tfind s.ferry.engs e with
      | none => s
      | some r =>
        if r.ch = noCh then freeEng s e
        else
          let t := reassert (abandonReads (freeEng s e) r.ch) r.ch
          if r.ch < 8 then modPch t r.ch (fun x => { x with restart := true })
          else modCh t r.ch (fun x => { x with state := .waiting, place := 0, again := true, redo := true })
    let s2 := outOfService s1 (222 + e)
    [2 * e, 2 * e + 1].foldl (fun s n => arrayLost (modArray s n (fun x => { x with noFeed := true })) n) s2

def execFerryEngineFault (eng : Nat) (s : State) : Out := whenPress s (engineFault · eng)

end Sys2Proof.Machine
end

