-- ==== Sys2Proof/Machine/LinkJob.lean ====
section
/-! DEFINITION. A job's use of a link (11): assigning links to a job, the agreement of its keys, their end with JOB_DROP and
JOB_LEAVE, and the rekeys of both classes. -/

namespace Sys2Proof.Machine

/-- The peer's identity, from its LINK_HELLO. -/
def peerId (x : GwLink) : Bytes := slice x.peerHello 4 16

/-- This package is the higher side of a link (R374). -/
def sideHigher (s : State) (n : Nat) : Bool := idLess (peerId (s.link n)) (selfId s)

/-- A multi-package job, and its members that have not left. -/
def multi (j : Job) : Bool := !j.members.isEmpty
def presentIds (j : Job) : List Bytes := (j.members.map (·.1)).filter (fun m => !j.gone.contains m)

/-- Links assigned to a berth's job. -/
def jobLinks (s : State) (b : Nat) : List Nat := (List.range 48).filter (fun n => (s.link n).jobBerth == some b)

/-- Pilot's step on a link slot. The lane holds what it would send and what it receives until its entry is refilled
(R386). -/
def linkStep (s : State) (n : Nat) (data : Bytes) (f : State → Nat → Bool → State) : State × Bool :=
  let ok := (s.slot (16 + n)).valid && !(s.slot (16 + n)).unusable
  let s1 := pilotLink { s with vault := { s.vault with err := 0 } } n (sideHigher s n) data f
  if ok && s1.vault.err == 0 then (modLink s1 n (fun x => { x with refill := true }), true) else (s1, false)

/-- What a step left in VAULT_DATA. -/
def stepOut (s : State) (n : Nat) : Bytes := mread 0 s.vault.data 0 n

/-! ### The end of a job's use (R392) -/

/-- GW_JOB cleared, job state NONE, payload not yet sent dropped. -/
def clearJob (x : GwLink) : GwLink :=
  { x with job := .none, jobBerth := none, chCount := 0, chBase := 0, stagedValid := false, stagedBerth := 0, stagedCount := 0
           stagedBase := 0, jobId := [], offers := 0, offerRetry := false, pendJob := false
           heldTx := x.heldTx.filter (fun o => o.kind != 0x01) }

/-- JOB_DROP on a link. -/
def dropLinkJob (s : State) (n : Nat) : State :=
  let x := s.link n
  let s1 := if x.job = .none then s else (linkStep s n [] (fun s k _ => jobDropStep s k)).1
  modLink s1 n clearJob

/-- Every link of a berth's job dropped, with the inbound bundles it holds for the berth. -/
def dropBerthLinks (s : State) (b : Nat) : State :=
  (jobLinks s b).foldl (fun s n => modLink (dropLinkJob s n) n (fun x => { x with bundles := [] })) s

/-- Body of JOB_LEAVE (R404). -/
def leaveBody (s : State) (j : Job) (b : Nat) (reason : Byte) : Bytes :=
  padTo 16 j.jobId ++ padTo 16 (selfId s) ++ toLe 2 b ++ [reason, 0]

/-- A berth leaves its multi-package job: JOB_DROP on its links, JOB_LEAVE to every other member. -/
def leaveJob (s : State) (b : Nat) (reason : Byte) : State :=
  let s1 := dropBerthLinks s b
  match openJob (s.bp b) with
  | some j =>
    if multi j then ((presentIds j).filter (· != selfId s)).foldl (fun s m => routeFrom s m 0x32 (leaveBody s j b reason)) s1
    else s1
  | none => s1

/-! ### Assignment and agreement (R387-R391) -/

/-- Links that a berth's job may take: ATTESTED, toward a member, with no other job, and not reported unavailable to it (R388). -/
def freeLinks (s : State) (j : Job) : List Nat :=
  (attested s).filter (fun n =>
    let x := s.link n
    (presentIds j).contains (peerId x) && !j.unavailable.contains n && x.jobBerth.isNone && !x.stagedValid && x.job == .none)

/-- Pilot stages GW_JOB and GW_JOB_RUN for every link the open job of a berth may take, and commits them (R387, R474). -/
def assignLinks (s : State) (b : Nat) : State :=
  match openJob (s.bp b) with
  | none => s
  | some j =>
    if !multi j then s
    else
      let ls := freeLinks s j
      let y := s.berth b
      let seq := s.lanes.seq
      let s1 := ls.foldl (fun s n => modLink s n (fun x =>
        { x with stagedValid := true, stagedBerth := BitVec.ofNat 12 b, stagedCount := BitVec.ofNat 4 y.ferryCount
                 stagedBase := BitVec.ofNat 9 y.ferryBase })) s
      if ls.isEmpty then s
      else sendCmd { s1 with lanes := { s1.lanes with seq := seq + 1 } } (ls.map (linkLane s1)) (.commit seq)

/-- JOB_OFFER by the lower side: JOB_DRAW's keys with the JOB_ID and the berth. -/
def startAgreement (s : State) (n : Nat) : State :=
  match (s.link n).jobBerth with
  | none => s
  | some b =>
    match openJob (s.bp b) with
    | none => s
    | some j =>
      match linkStep s n [] (fun s k _ => linkDrawStep s k) with
      | (s1, false) => s1
      | (s1, true) =>
        sendMessage (modLink s1 n (fun x => { x with job := .agreeing, offers := x.offers + 1, offerRetry := false })) n 0x12
          (padTo 16 j.jobId ++ toLe 2 b ++ [0, 0] ++ stepOut s1 1665)

/-- Once a lane has acknowledged its GW_JOB, the lower side starts. -/
def beginAgreement (s : State) (n : Nat) : State :=
  let x := s.link n
  if x.link = .attested ∧ x.job = .none ∧ x.jobBerth.isSome ∧ !sideHigher s n then startAgreement s n else s

/-- Context of the job keys (R390). -/
def jobContext (x : GwLink) (jobId : Bytes) (lower higher : Nat) : Bytes :=
  padTo 48 x.sid ++ padTo 16 jobId ++ toBe 2 lower ++ toBe 2 higher

/-- The berth on which a JOB_ID is open. -/
def jobBerthOf (s : State) (id : Bytes) : Option Nat :=
  (s.press.berths.find? (fun x => (openJob x.2).any (fun j => multi j && j.jobId == id))).map (·.1)

/-- The answer the higher side gives to a JOB_OFFER (R388, R389). -/
def offerStatus (s : State) (n : Nat) (id : Bytes) : Byte :=
  let x := s.link n
  if x.job ≠ .none then 0x03
  else
    match jobBerthOf s id with
    | some b =>
      if ((openJob (s.bp b)).map (fun j => (presentIds j).contains (peerId x))) != some true then 0x02
      else if x.jobBerth = some b then 0x00
      else if x.jobBerth.isSome then 0x03
      else 0x01
    | none =>
      if s.berths.any (fun y => y.2.state != .free && y.2.pairJob == id && (s.record y.1).pair.isSome) then 0x01 else 0x02

/-- JOB_OFFER at the higher side. -/
def onJobOffer (s : State) (n : Nat) (m : Bytes) : State :=
  if !sideHigher s n ∨ m.length ≠ 1685 then s
  else
    let id := slice m 0 16
    let st := offerStatus s n id
    let refuse (s : State) (st : Byte) (b : Nat) : State := sendMessage s n 0x13 (id ++ toLe 2 b ++ [st, 0] ++ zeros 1568)
    match st, jobBerthOf s id with
    | 0x00, some b =>
      let x := s.link n
      (match linkStep s n (slice m 20 1665 ++ jobContext x id (leAt m 16 2) b) jobEncapStep with
        | (s1, false) => refuse s1 0x01 b
        | (s1, true) =>
          sendMessage (modLink s1 n (fun x => { x with job := .agreeing, jobId := id })) n 0x13
            (id ++ toLe 2 b ++ [0, 0] ++ stepOut s1 1568))
    | st, b => refuse s st (b.getD 0)

/-- The higher side did not join within the 50 repeats of R388: the agreement ends, and the link is reported unavailable to its job,
which takes it again only once it has been ATTESTED anew (DESIGN CHOICE, log entry 168). -/
def linkUnavailable (s : State) (n b : Nat) : State :=
  modBp (dropLinkJob s n) b (fun x => { x with job := x.job.map (fun j => { j with unavailable := j.unavailable ++ [n] }) })

/-- JOB_ACCEPT at the lower side. The peer's ECDH key is that of its LINK_HELLO (log entry 31). -/
def onJobAccept (s : State) (n : Nat) (m : Bytes) : State :=
  let x := s.link n
  match x.jobBerth with
  | none => s
  | some b =>
    match openJob (s.bp b) with
    | none => s
    | some j =>
      if sideHigher s n ∨ m.length ≠ 1588 ∨ x.job ≠ .agreeing ∨ x.jobId ≠ [] ∨ x.offerRetry ∨ slice m 0 16 ≠ padTo 16 j.jobId then s
      else
        match byteAt m 18 with
        | 0x00 =>
          let data := slice x.peerHello 24 97 ++ slice m 20 1568 ++ jobContext x j.jobId b (leAt m 16 2)
          let t := (linkStep s n data jobDecapStep).1
          modLink t n (fun x => { x with jobId := padTo 16 j.jobId })
        | 0x01 => if x.offers ≤ 50 then s.setLink n { x with offerRetry := true } else linkUnavailable s n b
        | _ => dropLinkJob s n

/-! ### Rekeys (R393, R394) -/

/-- Frames of a generation after which the lane raises REKEY_PEND. -/
def rekeyMark : Nat := 2 ^ 32 - 2 ^ 24

/-- A class's counters have reached the mark in either direction. -/
def rekeyDue (x : GwLink) (cls : Nat) : Bool :=
  [false, true].any (fun rx => decide (rekeyMark ≤ ctr x (ctrIx cls rx) - ctr x (4 + ctrIx cls rx)))

/-- Both directions have moved: PROMOTE. -/
def promoteIfBoth (s : State) (n : Nat) : State :=
  let x := s.link n
  if x.genTx = x.genRx then
    let t := (linkStep s n [] promoteStep).1
    modLink t n (fun x => { gwCount x 3 with pendJob := false })
  else s

/-- REKEY of the job class sent: the transmit direction moves after it. -/
def sendJobRekey (s : State) (n g : Nat) : State :=
  let t := sendMessage s n 0x11 ([1, 0, 0, 0] ++ toLe 4 g)
  promoteIfBoth (modLink t n (fun x => moveGen x 2 false g)) n

/-- A job-class REKEY received: the receive direction moves, and the answer goes out if none has. -/
def onJobRekey (s : State) (n g : Nat) : State :=
  let x := s.link n
  if (x.job ≠ .keyed ∧ x.job ≠ .held) ∨ g ≠ x.genRx + 1 then s
  else
    let t := s.setLink n (moveGen x 2 true g)
    if x.genTx < g then sendJobRekey t n g else promoteIfBoth t n

/-- The lower side starts a link-class rekey: MAINT_DRAW, and REKEY with its two keys. -/
def startLinkRekey (s : State) (n : Nat) : State :=
  let x := s.link n
  if x.rekeyBody ≠ [] then s
  else
    match linkStep s n [] (fun s k _ => linkDrawStep s k) with
    | (s1, false) => s1
    | (s1, true) =>
      let body := [2, 0, 0, 0] ++ toLe 4 (x.genLink + 1) ++ stepOut s1 1665
      sendMessage (modLink s1 n (fun x => { x with rekeyBody := body })) n 0x11 body

/-- The higher side answers: it encapsulates, sends REKEY with the ciphertext under the old keys, and its transmit
direction moves after that frame. -/
def answerLinkRekey (s : State) (n : Nat) (m : Bytes) : State :=
  let x := s.link n
  let own := [2, 0, 0, 0] ++ toLe 4 (x.genLink + 1)
  let s1 := pilotLink { s with vault := { s.vault with err := 0 } } n true (m ++ own) maintEncapStep
  if s1.vault.err ≠ 0 then s1
  else
    let s2 := sendMessage s1 n 0x11 (own ++ stepOut s1 1568)
    modLink s2 n (fun x =>
      { moveGen { gwCount x 3 with maintOld := x.key.map (·.take 64) } 1 false (x.genLink + 1) with
          refill := true, sid := (linkCtx s1 (16 + n)).sid, pendLink := false })

/-- The lower side's end of it: it decapsulates, its receive direction moves, and its transmit direction moves after its next
frame. -/
def endLinkRekey (s : State) (n : Nat) (m : Bytes) : State :=
  let x := s.link n
  let data := slice x.peerHello 24 97 ++ slice m 8 1568 ++ slice m 0 8 ++ slice x.rekeyBody 0 8
  match linkStep s n data maintDecapStep with
  | (t, false) => t
  | (t, true) =>
    modLink t n (fun x =>
      { moveGen { gwCount x 3 with maintOld := x.key.map (·.take 64) } 1 true (x.genLink + 1) with
          rekeyBody := [], moveDue := true, sid := (linkCtx t (16 + n)).sid, pendLink := false })

/-- REKEY received: CLASS, the new generation and, for the link class, keys or a ciphertext or neither. -/
def onRekey (s : State) (n : Nat) (m : Bytes) : State :=
  let g := leAt m 4 4
  let x := s.link n
  match byteAt m 0 with
  | 0x01 => onJobRekey s n g
  | 0x02 =>
    if sideHigher s n then (if m.length = 1673 ∧ g = x.genLink + 1 then answerLinkRekey s n m else s)
    else if m.length = 8 then startLinkRekey s n
    else if m.length = 1576 ∧ x.rekeyBody ≠ [] ∧ g = x.genLink + 1 then endLinkRekey s n m
    else s
  | _ => s

/-- REKEY_THRESHOLD (R393): the lane raises REKEY_PEND, and Pilot starts the rekey. -/
def rekeyThreshold (s : State) (n : Nat) (job : Bool) : State :=
  let x := s.link n
  if x.link ≠ .attested ∨ (job = true ∧ x.job ≠ .keyed ∧ x.job ≠ .held) ∨ !rekeyDue x (if job then 2 else 1) then s
  else
    let s1 := s.setLink n (if job then { x with pendJob := true } else { x with pendLink := true })
    if !pilotUp s ∨ x.refill then s1
    else if job then (if x.genTx = x.genRx then sendJobRekey s1 n (x.genTx + 1) else s1)
    else if sideHigher s n then sendMessage s1 n 0x11 ([2, 0, 0, 0] ++ toLe 4 (x.genLink + 1))
    else startLinkRekey s1 n

end Sys2Proof.Machine
end

