-- ==== Sys2Proof/Machine/Rinse.lean ====
section
/-! DEFINITION. Package-wide broadcasts (01), the clean map, and the rinse of a berth (09): its gate, its steps, and the
hardware sequencer. -/

namespace Sys2Proof.Machine

/-- A berth stored; PF1 vector 1 is raised when what its summary shows has changed (R525, R526). -/
def putBerth (s : State) (b : Nat) (y : Berth) : State :=
  let x := s.berth b
  let s1 := s.setBerth b y
  if x.state = y.state ∧ x.level = y.level then s1 else msix s1 .pf1 1

/-! ### The clean map (R313) -/

/-- A range (stack, base, size in MiB) less another. -/
def cutRange (r x : Nat × Nat × Nat) : List (Nat × Nat × Nat) :=
  let hi := r.2.1 + r.2.2
  let xh := x.2.1 + x.2.2
  if r.1 ≠ x.1 ∨ xh ≤ r.2.1 ∨ hi ≤ x.2.1 then [r]
  else (if r.2.1 < x.2.1 then [(r.1, r.2.1, x.2.1 - r.2.1)] else []) ++ (if xh < hi then [(r.1, xh, hi - xh)] else [])

def cutAll (rs : List (Nat × Nat × Nat)) (x : Nat × Nat × Nat) : List (Nat × Nat × Nat) := rs.flatMap (cutRange · x)

/-- What of these ranges lies outside those. -/
def rangesLess (rs xs : List (Nat × Nat × Nat)) : List (Nat × Nat × Nat) := xs.foldl cutAll rs

def windowRange (w : Window) : Nat × Nat × Nat := (w.unit, w.base, w.size)
def windowRanges (t : Tbl Window) : List (Nat × Nat × Nat) := t.map (fun w => windowRange w.2)

/-- A zeroed range is clean. -/
def cleanAdd (s : State) (r : Nat × Nat × Nat) : State := { s with cleanMap := cutAll s.cleanMap r ++ [r] }

/-! ### Broadcasts (R28, R134) -/

/-- Every lane and array that a broadcast reaches. -/
def everyLane (s : State) : List Nat := reachable s (List.range 222)

/-- Tables of a berth staged on every Pier that can be reached. -/
def stageAll (s : State) (b : Nat) (t1 t2 : List Window) (codes : List Nat) : State :=
  (reachable s (List.range 154)).foldl (fun s n => modPier s n (fun x => stageBerth x n b t1 t2 codes)) s

def windowsOf (t : Tbl Window) : List Window := t.map (·.2)

/-- What a broadcast stages: a commit's new tables, or at a rinse's gate the windows without bindings. -/
def stageFor (s : State) (k : BroadcastKind) : State :=
  match k with
  | .tables b =>
    let y := s.berth b
    stageAll s b (windowsOf y.t1Staged) (windowsOf y.t2Staged) (berthCodes { y with sites := y.sitesStaged })
  | .gate b => stageAll s b (windowsOf (s.berth b).t1) (windowsOf (s.berth b).t2) []

/-! ### Zeroing (R313, R324) -/

/-- The Piers of a stack that zero it: the lane of each channel, where one serves. -/
def zeroLanes (s : State) (stack : Nat) : List Nat :=
  ((List.range 16).map (fun c => servedBy s (17 * stack + c))).filter (laneServes s)

def stackIdle (s : State) (stack : Nat) : Bool := (zeroLanes s stack).all (fun n => (s.pier n).zero.isNone)

/-- A range handed to the Piers of its stack. -/
def zeroStart (s : State) (r : Nat × Nat × Nat) : State :=
  (zeroLanes s r.1).foldl (fun s n => modPier s n (fun x => { x with zero := some { base := r.2.1, size := r.2.2, pos := 0 } })) s

/-- The next waiting range of a stack starts, if the stack's Piers are idle. -/
def zeroOffer (s : State) (b stack : Nat) : State :=
  let y := s.berth b
  match y.toZero.find? (fun r => r.1 == stack) with
  | none => s
  | some r =>
    if y.zeroing.any (fun q => q.1 == stack) ∨ !stackIdle s stack then s
    else (zeroStart s r).setBerth b { y with toZero := y.toZero.erase r, zeroing := y.zeroing ++ [r] }

/-- Ranges whose Piers have ended become clean, and the next ones start. -/
def zeroStep (s : State) (b : Nat) : State :=
  let y := s.berth b
  let done := y.zeroing.filter (fun r => stackIdle s r.1)
  let s1 := done.foldl cleanAdd (s.setBerth b { y with zeroing := y.zeroing.filter (fun r => !done.contains r) })
  (List.range 8).foldl (fun s k => zeroOffer s b k) s1

def zeroOver (y : Berth) : Bool := y.toZero.isEmpty && y.zeroing.isEmpty

/-- Tier-2 ranges marked uninitialised on the lanes of their ports (R314, R323). -/
def uninitAll (s : State) (rs : List (Nat × Nat × Nat)) : State :=
  rs.foldl (fun s r => pierUninit s (servedBy s (136 + r.1)) r.2.1 r.2.2) s

/-! ### Sites (R316, R317) -/

/-- WIPE to a site over Boarding; a failed or absent one gets none. -/
def sendWipe (s : State) (k : Nat) : State :=
  let x := s.site k
  if x.step = .failed ∨ x.wiping then s else sendSite (s.setSite k { x with wiping := true }) k .wipe

def sitesIn (v : BitVec 12) : List Nat := (List.range 12).filter (fun k => v.getLsbD k)
def siteBits (l : List Nat) : BitVec 12 := l.foldl (fun v k => v ||| (1#12 <<< k)) 0

/-- Sites marked UNWIPED are wiped before any berth gets them (R329). -/
def wipeUnwiped (s : State) : State :=
  ((List.range 12).filter (fun k => (s.site k).unwiped && (s.site k).step == .boarded)).foldl sendWipe s

/-! ### The end of a rinse (step 6 of R323) -/

/-- The whole record destroyed, with its invalidation. -/
def dropRecord (s : State) (b : Nat) : State := if (s.record b).opened then invalidate (emptyRecord s b) b .quiet else s

/-- Exchange slots of a berth and the sessions in them destroyed. -/
def dropSessions (s : State) (b : Nat) : State :=
  ((List.range 4).filter (fun i => ((tfind s.sessions i).map (·.berth)) == some b ||
      ((s.slot (8 + i)).valid && (s.slot (8 + i)).berth == BitVec.ofNat 16 b))).foldl
    (fun s i => { emptySlot s (8 + i) with sessions := tdel s.sessions i }) s

/-- Ferry's map entries of a berth's run taken back. -/
def dropMaps (s : State) (b : Nat) : State :=
  let mine (m : Nat × ChMap) : Bool := m.2.berth.toNat == b
  modFerry s (fun f => { f with maps := f.maps.filter (fun m => !mine m), mapsStaged := f.mapsStaged.filter (fun m => !mine m) })

/-- The level a finished rinse gives (R323, R328, R329). -/
def rinseLevel (y : Berth) : RinseLevel :=
  if y.sequencer || y.levelKept || y.owed != 0 then .memoryOnly else .full

/-- A COMMIT of tables staged, to every lane and array, that nothing waits on. -/
def commitAll (s : State) : State :=
  let seq := s.lanes.seq
  let target := everyLane s
  let s1 := sendCmd { s with lanes := { s.lanes with seq := seq + 1 } } target (.commit seq)
  if target.isEmpty then s1 else { s1 with lanes := { s1.lanes with bcasts := s1.lanes.bcasts ++ [{ kind := none, seq := seq, waiting := target }] } }

/-- LEVEL as R247 codes it. -/
def levelNo : RinseLevel → Nat
  | .startupClean => 0
  | .full => 1
  | .memoryOnly => 2

/-- The berth is FREE. A site released by the sequencer without its acknowledgement is UNWIPED (R328). A failed one of them counts
as cleared (R329; DEDUCED, log entry 155). What BERTH_STATUS holds of faults stays (R333). -/
def rinseEnd (s : State) (b : Nat) : State :=
  let y := s.berth b
  let level := rinseLevel y
  let left := if y.sequencer then sitesIn (y.sites &&& ~~~y.wiped) else []
  let s1 := left.foldl (fun s k => s.setSite k { s.site k with unwiped := true }) s
  let s2 := dropMaps (dropSessions (dropRecord s1 b) b) b
  let owed := y.owed ||| siteBits (left.filter (fun k => (s.site k).step != .failed))
  let s3 := putBerth s2 b { berthInit with level := level, owed := owed, portFault := y.portFault, stackFault := y.stackFault
                                           integrity := y.integrity }
  let s4 := commitAll (stageAll s3 b [] [] [])
  let s5 := note s4 0x0400 (BitVec.ofNat 32 b) (BitVec.ofNat 32 (levelNo level))
  if y.sequencer ∧ pilotUp s = true then wipeUnwiped s5 else s5

/-! ### The steps (R323) -/

/-- A step starts. -/
def rinseStart (s : State) (b k : Nat) : State :=
  let y := s.berth b
  let s1 := s.setBerth b { y with step := k }
  match k with
  | 1 => zeroStep (s1.setBerth b { y with step := 1, toZero := windowRanges y.t1, zeroing := [] }) b
  | 2 =>
    let r := s.record b
    let s2 := if r.opened then
        let t := changeQuiet { s1 with vault := { s1.vault with sweeps := tdel s1.vault.sweeps b } } b { r with t2Seed0 := none, rotating := false }
        changeQuiet t b { t.record b with t2Seed1 := none }
      else s1
    uninitAll s2 (windowRanges y.t2)
  | 3 => freeCursors ((wipeBasket (dropTiles s1 b) b).setBp b berthPressInit) b
  | 4 => resetBerthChs s1 b
  | 5 => (sitesIn (y.sites &&& ~~~y.wiped)).foldl sendWipe s1
  | _ => s1

/-- The gate is acknowledged: a rinse over no resources goes on with step 5 (R329). -/
def gateDone (s : State) (b : Nat) : State :=
  let y := s.berth b
  if y.state ≠ .rinsing ∨ y.step ≠ 0 ∨ y.sequencer then s
  else if (s.record b).opened then rinseStart s b 1
  else rinseStart s b 5

/-- A package-wide change broadcast to every lane and array; with none to reach it is done. -/
def broadcastThen (s : State) (k : BroadcastKind) (done : State → State) : State :=
  let s1 := stageFor s k
  let seq := s1.lanes.seq
  let target := everyLane s1
  let s2 := sendCmd { s1 with lanes := { s1.lanes with seq := seq + 1 } } target (.commit seq)
  if target.isEmpty then done s2
  else { s2 with lanes := { s2.lanes with bcasts := s2.lanes.bcasts ++ [{ kind := some k, seq := seq, waiting := target }] } }

def bcastRuns (s : State) (k : BroadcastKind) : Bool := s.lanes.bcasts.any (fun x => x.kind == some k)

/-! ### The gate (R22, R322, R323, R540) -/

/-- The gate of a rinse, which hardware can run: RINSING, the berth's channels silenced, its tiles dropped, and its bindings
withdrawn on every Pier. What is staged is discarded. A COMMIT whose broadcast has not been issued ends with 0x02, and a site that
has acknowledged its WIPE is unbound (R322). -/
def gateNow (s : State) (b : Nat) : State :=
  let y := s.berth b
  let sites := if y.commit.isSome then y.sites &&& ~~~y.wiped else y.sites
  let s0 := if y.replyDue then reply s .pf1 0x44 (statusBody 2) else s
  let s1 := putBerth s0 b { y with
    state := .rinsing, step := 0, sequencer := false, recorded5 := false, wiped := 0, commit := none, replyDue := false, gateDue := false
    t1Staged := y.t1, t2Staged := y.t2, sites := sites, sitesStaged := sites, toZero := [], zeroing := [] }
  broadcastThen (dropTiles (silenceBerth s1 b) b) (.gate b) (gateDone · b)

/-- The gate. One that meets a COMMIT whose broadcast has been issued silences the channels (R540), and the berth enters RINSING
when that broadcast has completed (R322). -/
def gate (s : State) (b : Nat) : State :=
  if bcastRuns s (.tables b) then silenceBerth (s.setBerth b { s.berth b with gateDue := true }) b else gateNow s b

/-- Pilot's part of the gate: the berth leaves its job. Its capture goes at step 3. -/
def gateJob (s : State) (b : Nat) (reason : Byte) : State :=
  if (openJob (s.bp b)).isSome then quitJob (leaveJob s b reason) b else dropBerthLinks s b

/-! ### The end of a broadcast -/

/-- What the last acknowledgement of a commit's tables does (R313, R316, R321): the staged set is the committed one. A rinse that
waited for it begins with the new set (R322). -/
def tablesDone (s : State) (b : Nat) : State :=
  let y := s.berth b
  if y.commit ≠ some .broadcast then s
  else
    let s1 := { s with cleanMap := rangesLess s.cleanMap (windowRanges y.t1Staged) }
    let s2 := s1.setBerth b { y with t1 := y.t1Staged, t2 := y.t2Staged, sites := y.sitesStaged, commit := none, replyDue := false, wiped := 0 }
    let s3 := if y.replyDue then reply s2 .pf1 0x44 (statusBody 0) else s2
    if y.gateDue then gateNow (gateJob s3 b 0x03) b else s3

/-- The change a broadcast made is complete. -/
def broadcastDone (s : State) (k : Option BroadcastKind) : State :=
  match k with
  | some (.tables b) => tablesDone s b
  | some (.gate b) => gateDone s b
  | none => s

def broadcast (s : State) (k : BroadcastKind) : State := broadcastThen s k (broadcastDone · (some k))

/-- States from which a rinse starts. -/
def rinsable (y : Berth) : Bool := (y.state == .assigned || y.state == .running || y.state == .suspended) && !y.gateDue

/-- A trigger of the full rinse; on a berth already RINSING it is absorbed (R332). REASON is for JOB_LEAVE. -/
def startRinse (s : State) (b : Nat) (reason : Byte) : State :=
  if !rinsable (s.berth b) then s
  else if pilotUp s then gate (gateJob s b reason) b
  else gate s b

/-- RINSE_STEP_DONE: the step in progress ends once its conditions are met, and the next one starts. The sequencer runs
steps 1 to 4 and 6. -/
def rinseStep (s : State) (b : Nat) : State :=
  let y := s.berth b
  if y.state ≠ .rinsing then s
  else
    match y.step with
    | 0 => s
    | 1 =>
      let s1 := zeroStep s b
      if zeroOver (s1.berth b) then rinseStart s1 b 2 else s1
    | 2 => rinseStart s b 3
    | 3 => rinseStart s b 4
    | 4 => rinseStart s b (if y.sequencer then 6 else 5)
    | 5 => if (sitesIn y.sites).any (fun k => (s.site k).wiping) then s else (rinseStart s b 6).setBerth b { y with step := 6, recorded5 := true }
    | _ => rinseEnd s b

/-- RINSE_STEP_DONE (R323, R328): Pilot firmware, or after a takeover the sequencer, which a halt stops (R327). -/
def execRinseStepDone (berth : Nat) (s : State) : Out :=
  .next (if accepts s ∧ s.pilot.phase ≠ .halted ∧ (pilotUp s = true ∨ (s.berth berth).sequencer = true) then rinseStep s berth else s)

/-- RINSE_SEQUENCER_TAKEOVER (R327, R328): firmware has not recorded the start of step 1, or the end of step 5, in time. -/
def execRinseSequencerTakeover (berth : Nat) (s : State) : Out :=
  whenRunning s (fun s =>
    let y := s.berth berth
    if s.pilot.phase = .halted ∨ y.state ≠ .rinsing ∨ y.sequencer ∨ y.recorded5 then s
    else rinseStart (s.setBerth berth { y with sequencer := true }) berth 1)

end Sys2Proof.Machine
end

