-- ==== Sys2Proof/Machine/Berths.lean ====
section
/-! DEFINITION. The berth commands of PF1 (09), the end of a job, and the acknowledgements of WIPE. -/

namespace Sys2Proof.Machine

/-! ### The frame of a berth command (R319, R320) -/

/-- A PF1 command's STATUS reply. -/
def pf1Status (s : State) (code st : Byte) : State := reply s .pf1 code (statusBody st)

/-- The codes common to every command, in the order of R320: a command running, the body's length and arguments, the state;
then the command's own part, which answers its status or none if the answer comes later. -/
def berthCmd (s : State) (code : Byte) (body : Bytes) (len : Nat) (bad : Bool) (ok : Berth → Bool)
    (f : State → Nat → State × Option Byte) : State :=
  let b := leAt body 0 2
  if !s.pilot.ready then replyMs s .pf1 code 0x06 []
  else if b < 4096 ∧ (s.berth b).commit.isSome then pf1Status s code 0x0D
  else if body.length ≠ len ∨ 4096 ≤ b ∨ bad then pf1Status s code 0x03
  else if !ok (s.berth b) then pf1Status s code 0x02
  else
    match f s b with
    | (t, some st) => pf1Status t code st
    | (t, none) => t

/-! ### BERTH_QUERY (R319) -/

def stateCode : BerthState → Byte
  | .free => 0
  | .assigned => 1
  | .running => 2
  | .suspended => 3
  | .rinsing => 4

/-- RINSE_STEP (R333). -/
def rinseStepCode (y : Berth) : Nat := if y.state = .rinsing then y.step + (if y.sequencer then 8 else 0) else 0

/-- Sixteen window entries of 12 B. -/
def windowEntries (tier : Nat) (t : Tbl Window) : Bytes :=
  (List.range 16).flatMap (fun k => match tfind t k with
    | some w => [BitVec.ofNat 8 tier, BitVec.ofNat 8 k, BitVec.ofNat 8 w.unit, if w.readOnly then 1 else 0] ++ toLe 4 w.base ++ toLe 4 w.size
    | none => [BitVec.ofNat 8 tier, BitVec.ofNat 8 k] ++ zeros 10)

/-- Staged items differ from the committed ones. -/
def stagedDiffer (y : Berth) : Bool := y.t1 != y.t1Staged || y.t2 != y.t2Staged || y.sites != y.sitesStaged

def queryBody (s : State) (b : Nat) : Bytes :=
  let y := s.berth b
  let flags := b2n (s.record b).rotating + 2 * b2n (stagedDiffer y) + 4 * b2n y.commit.isSome
  [0, stateCode y.state, BitVec.ofNat 8 (levelNo y.level), BitVec.ofNat 8 flags, BitVec.ofNat 8 (rinseStepCode y),
    BitVec.ofNat 8 y.ferryCount] ++ toLe 2 (if y.ferryCount = 0 then 0 else y.ferryBase) ++ toLe 2 y.sites.toNat ++
    toLe 2 y.sitesStaged.toNat ++ zeros 4 ++ windowEntries 1 y.t1 ++ windowEntries 2 y.t2 ++ windowEntries 1 y.t1Staged ++
    windowEntries 2 y.t2Staged

/-- BERTH_QUERY: served in every state. -/
def execBerthQuery (body : Bytes) (s : State) : Out :=
  whenPilot s (fun s =>
    if !s.pilot.ready then replyMs s .pf1 0x40 0x06 []
    else if body.length ≠ 2 ∨ 4096 ≤ leAt body 0 2 then reply s .pf1 0x40 (0x03 :: zeros 783)
    else reply s .pf1 0x40 (queryBody s (leAt body 0 2)))

/-! ### BERTH_ASSIGN (R309, R318) -/

/-- The run is within channels 8-511 and holds no channel of another berth that is not FREE. -/
def runFree (s : State) (base count : Nat) : Bool :=
  count == 0 || (decide (8 ≤ base ∧ base + count ≤ 512) &&
    s.berths.all (fun y => y.2.state == .free || y.2.ferryCount == 0 ||
      decide (base + count ≤ y.2.ferryBase ∨ y.2.ferryBase + y.2.ferryCount ≤ base)))

/-- The vault's BERTH_OPEN in the course of BERTH_ASSIGN (R216). -/
def openRecord (s : State) (b : Nat) : Option State :=
  match drawSeed { s with vault := { s.vault with sinceReseed := 0 } } b false 8 with
  | (none, _) => none
  | (seed, s1) => some (invalidate (putRecord (notEmpty (drew s1 48)) b
      { recordInit with opened := true, epoch := 1, t2Seed0 := seed, pressSeed := some (drawBytes s1 48) }) b .quiet)

/-- Ferry's map entries of a run. -/
def giveMaps (s : State) (b base count : Nat) : State :=
  (List.range count).foldl (fun s i => modFerry s (fun f =>
    let m : ChMap := { valid := true, rel := BitVec.ofNat 4 i, berth := BitVec.ofNat 12 b }
    { f with maps := tset f.maps (base + i) m, mapsStaged := tset f.mapsStaged (base + i) m })) s

def berthAssign (s : State) (b base count : Nat) : State × Option Byte :=
  if vaultClosed s then (s, some 0x09)
  else if !runFree s base count then (s, some 0x07)
  else if !s.vault.drbgOk then (s, some 0x0C)
  else
    let y : Berth := { berthInit with state := .assigned, level := (s.berth b).level, ferryCount := count
                                      ferryBase := if count = 0 then 0 else base }
    match openRecord s b with
    | some s1 => (putBerth (giveMaps s1 b base count) b y, some 0)
    | none => (s, some 0x0C)

def execBerthAssign (body : Bytes) (s : State) : Out :=
  whenPilot s (fun s => berthCmd s 0x41 body 5 (decide (8 < leAt body 4 1) || !vfExists s (leAt body 0 2)) (fun y => y.state == .free)
    (fun s b => berthAssign s b (leAt body 2 2) (leAt body 4 1)))

/-! ### Windows (R310, R311) -/

/-- Assignable MiB of a stack, and usable MiB of a port. -/
def unitMib (tier : Nat) : Nat := if tier = 1 then 48896 else 131072

/-- Windows a unit may hold. -/
def unitCap (tier unit : Nat) : Nat := if tier = 2 then 256 else if unit = 0 then 1020 else 1024

/-- What a berth holds or is about to hold: its committed windows, and its staged ones while a commit runs (log entry 50). -/
def heldWindows (y : Berth) (tier : Nat) : List Window :=
  if tier = 1 then windowsOf y.t1 ++ (if y.commit.isSome then windowsOf y.t1Staged else [])
  else windowsOf y.t2 ++ (if y.commit.isSome then windowsOf y.t2Staged else [])

/-- Windows of every other berth that is not FREE on one unit: the committed ones for BERTH_WINDOW (R320); for BERTH_COMMIT those too
that a commit under way is broadcasting. -/
def otherWindows (s : State) (b tier unit : Nat) (staging : Bool) : List Window :=
  let held (y : Berth) : List Window :=
    if staging then if tier = 1 then windowsOf y.t1 else windowsOf y.t2 else (heldWindows y tier).eraseDups
  (s.berths.filter (fun y => y.1 != b && y.2.state != .free)).flatMap (fun y => (held y.2).filter (fun w => w.unit == unit))

def windowsMeet (w v : Window) : Bool := w.unit == v.unit && decide (w.base < v.base + v.size ∧ v.base < w.base + w.size)

/-- The first code that a window meets, beside the berth's own others (R311, R320). -/
def windowCheck (s : State) (b tier : Nat) (w : Window) (own : List Window) (staging : Bool) : Byte :=
  let all := own.filter (fun v => v.unit == w.unit) ++ otherWindows s b tier w.unit staging
  if w.size = 0 ∨ unitMib tier < w.base + w.size then 0x04
  else if all.any (windowsMeet w) then 0x05
  else if unitCap tier w.unit ≤ all.length then 0x08
  else 0

def stagedOf (y : Berth) (tier : Nat) : Tbl Window := if tier = 1 then y.t1Staged else y.t2Staged
def putStaged (y : Berth) (tier : Nat) (t : Tbl Window) : Berth := if tier = 1 then { y with t1Staged := t } else { y with t2Staged := t }

def berthWindow (s : State) (b tier slot : Nat) (w : Window) : State × Option Byte :=
  let y := s.berth b
  let rest := tdel (stagedOf y tier) slot
  if w.size = 0 then (s.setBerth b (putStaged y tier rest), some 0)
  else
    match windowCheck s b tier w (windowsOf rest) true with
    | 0 => (s.setBerth b (putStaged y tier (tset (stagedOf y tier) slot w)), some 0)
    | e => (s, some e)

def execBerthWindow (body : Bytes) (s : State) : Out :=
  let tier := leAt body 2 1
  let slot := leAt body 3 1
  let unit := leAt body 4 1
  let bad := decide (tier = 0 ∨ 2 < tier ∨ 16 ≤ slot ∨ (if tier = 1 then 8 else 16) ≤ unit ∨ 1 < leAt body 5 1)
  whenPilot s (fun s => berthCmd s 0x42 body 14 bad (fun y => y.state == .assigned)
    (fun s b => berthWindow s b tier slot { unit := unit, readOnly := leAt body 5 1 == 1, base := leAt body 6 4, size := leAt body 10 4 }))

/-! ### Sites (R315) -/

/-- A site may be given to a berth. -/
def siteAvailable (s : State) (b k : Nat) : Bool :=
  (s.site k).step == .boarded && !(s.site k).unwiped &&
    s.berths.all (fun y => y.1 == b || y.2.state == .free || !(y.2.sites.getLsbD k || (y.2.commit.isSome && y.2.sitesStaged.getLsbD k)))

def sitesOk (s : State) (b : Nat) (v : BitVec 12) : Bool := (sitesIn v).all (siteAvailable s b)

def execBerthSites (body : Bytes) (s : State) : Out :=
  let v := leAt body 2 2
  whenPilot s (fun s => berthCmd s 0x43 body 4 (decide (4096 ≤ v)) (fun y => y.state == .assigned) (fun s b =>
    if sitesOk s b (BitVec.ofNat 12 v) then (s.setBerth b { s.berth b with sitesStaged := BitVec.ofNat 12 v }, some 0)
    else (s, some 0x06)))

/-! ### BERTH_COMMIT (R313, R314, R316, R321) -/

/-- The first code that the windows of one tier meet, in slot order. -/
def tierCheck (s : State) (b tier : Nat) (t : Tbl Window) : Byte :=
  t.foldl (fun e w => if e ≠ 0 then e else windowCheck s b tier w.2 (windowsOf (tdel t w.1)) false) 0

def commitCheck (s : State) (b : Nat) : Byte :=
  let y := s.berth b
  let e1 := tierCheck s b 1 y.t1Staged
  let e2 := tierCheck s b 2 y.t2Staged
  if e1 ≠ 0 then e1 else if e2 ≠ 0 then e2 else if sitesOk s b y.sitesStaged then 0 else 0x06

/-- Sites a commit drops that must acknowledge a WIPE: a failed one gets none (R317). -/
def droppedSites (s : State) (y : Berth) : List Nat := (sitesIn (y.sites &&& ~~~y.sitesStaged)).filter (fun k => (s.site k).step != .failed)

/-- Tier-1 ranges a commit zeroes: the dirty MiB it adds, and every MiB it removes. -/
def commitZero (s : State) (y : Berth) : List (Nat × Nat × Nat) :=
  rangesLess (rangesLess (windowRanges y.t1Staged) (windowRanges y.t1)) s.cleanMap ++ rangesLess (windowRanges y.t1) (windowRanges y.t1Staged)

/-- Tier-2 ranges a commit removes. -/
def commitUninit (y : Berth) : List (Nat × Nat × Nat) := rangesLess (windowRanges y.t2) (windowRanges y.t2Staged)

/-- Step 2 starts: zeroing and uninitialised marking. -/
def commitZeroing (s : State) (b : Nat) : State :=
  let y := s.berth b
  zeroStep ((uninitAll s (commitUninit y)).setBerth b { y with commit := some .zeroing, toZero := commitZero s y, zeroing := [] }) b

/-- Step 3: the broadcast of the new tables. -/
def commitBroadcast (s : State) (b : Nat) : State :=
  broadcast (s.setBerth b { s.berth b with commit := some .broadcast }) (.tables b)

/-- The commit goes on as far as it can. -/
def commitGo (s : State) (b : Nat) : State :=
  let s1 := match (s.berth b).commit with
    | some .wiping => if (droppedSites s (s.berth b)).any (fun k => (s.site k).wiping) then s else commitZeroing s b
    | some .zeroing => zeroStep s b
    | _ => s
  if (s1.berth b).commit = some .zeroing ∧ zeroOver (s1.berth b) = true then commitBroadcast s1 b else s1

def berthCommit (s : State) (b : Nat) : State × Option Byte :=
  match commitCheck s b with
  | 0 =>
    let y := s.berth b
    let drop := droppedSites s y
    let work := !drop.isEmpty || !(commitZero s y).isEmpty || !(commitUninit y).isEmpty
    let s1 := drop.foldl sendWipe (s.setBerth b { y with commit := some .wiping, wiped := 0, replyDue := !work })
    (commitGo s1 b, if work then some 0x01 else none)
  | e => (s, some e)

def execBerthCommit (body : Bytes) (s : State) : Out :=
  whenPilot s (fun s => berthCmd s 0x44 body 2 false (fun y => y.state == .assigned) berthCommit)

/-- BERTH_COMMIT_CONTINUE (R321). -/
def execBerthCommitContinue (berth : Nat) (s : State) : Out := whenPilot s (commitGo · berth)

/-! ### The acknowledgement of a WIPE (R120, R255, R316, R317, R323) -/

/-- The berth whose commit or rinse waits for a site's WIPE. -/
def wipeBerth (s : State) (k : Nat) : Option Nat :=
  (s.berths.find? (fun y => y.2.sites.getLsbD k && (y.2.state == .rinsing || y.2.commit == some .wiping))).map (·.1)

/-- A site that acknowledges a WIPE: it is cleared, and under Boarding version 3 its record is taken again and its measurement
changes (R255). That record is signed as any other (R259); one whose signature fails fails the site, as a failed signature does
(R122): the WIPE itself stands, and the site has none to make up (DEDUCED, log entry 154). -/
def wipeAck (s : State) (k : Nat) (measurement : Bytes) (signed : Bool) : State :=
  let x := s.site k
  if !x.wiping then s
  else
    let s1 := siteCleared (s.setSite k { x with wiping := false, unwiped := false }) k
    let s2 := match wipeBerth s1 k with
      | some b => s1.setBerth b { s1.berth b with wiped := (s1.berth b).wiped ||| (1#12 <<< k) }
      | none => s1
    if x.version ≠ 3 then (if x.step = .boarded then s2 else siteDone s2 k)
    else if !signed then failSite s2 k 5
    else
      let s3 := s2.setSite k { s2.site k with record := sha384 measurement }
      if x.step = .boarded then siteMeasure s3 k else siteDone s3 k

def execWipeAck (site : Nat) (measurement : Bytes) (s : State) (signed : Bool := true) : Out := whenPilot s (wipeAck · site measurement signed)

/-- WIPE_TIMEOUT (R317): the site is marked failed and loses its binding; it must acknowledge a WIPE after it boards again. -/
def wipeTimeout (s : State) (k : Nat) : State :=
  if !(s.site k).wiping then s
  else
    let s1 := failSite s k 7
    s1.setSite k { s1.site k with unwiped := true }

def execWipeTimeout (site : Nat) (s : State) : Out := whenPilot s (wipeTimeout · site)

/-! ### BERTH_RINSE, BERTH_ROTATE, FERRY_SHARE -/

/-- BERTH_RINSE. On a FREE berth whose memory-only rinse released a site not cleared since, the steps run, the level stays, and the
answer is 0x00 (R329). -/
def berthRinse (s : State) (b : Nat) : State × Option Byte :=
  let y := s.berth b
  if y.state = .rinsing then (s, some 0)
  else if y.state = .free then
    (gate (s.setBerth b { y with levelKept := y.owed != 0 }) b, some (if y.owed = 0 then 0x01 else 0x00))
  else (startRinse s b 0x02, some 0x01)

def execBerthRinse (body : Bytes) (s : State) : Out :=
  whenPilot s (fun s => berthCmd s 0x45 body 2 false
    (fun y => rinsable y || y.state == .rinsing || (y.state == .free && y.level == .memoryOnly)) berthRinse)

def berthRotate (s : State) (b : Nat) (share : BitVec 8) : State × Option Byte :=
  let r := s.record b
  if (s.berth b).t2.isEmpty then (s, some 0x0B)
  else if r.rotating then (s, some 0x0A)
  else if !s.vault.drbgOk then (s, some 0x0C)
  else
    let c : VaultCmd := { field := 0, index := BitVec.ofNat 12 b, typ := 0, space := true }
    let t := rotateOp { s with vault := { s.vault with err := 0, cmd := c, aux := share.setWidth 12 } }
    (t, some (if t.vault.err = 0 then 0 else if t.vault.err = 0x0E then 0x0C else 0x02))

def execBerthRotate (body : Bytes) (s : State) : Out :=
  whenPilot s (fun s => berthCmd s 0x46 body 3 false rinsable (fun s b => berthRotate s b (byteAt body 2)))

/-- FERRY_SHARE (R501). -/
def execFerryShare (body : Bytes) (s : State) : Out :=
  whenPilot s (fun s => berthCmd s 0x48 body 4 (decide ((s.berth (leAt body 0 2)).ferryCount ≤ leAt body 2 1)) rinsable (fun s b =>
    (modCh s ((s.berth b).ferryBase + leAt body 2 1) (fun x => { x with share := byteAt body 3 }), some 0)))

/-! ### A job ends (R308, R392, R416, R463, R486) -/

/-- Sites that failed an idle-slot test are unbound when the job ends, and wait for a WIPE. -/
def unbindFailed (s : State) (b : Nat) : State :=
  let y := s.berth b
  let bad := (sitesIn y.sites).filter (fun k => (s.site k).step == .failed)
  if bad.isEmpty then s
  else
    let y1 := { y with sites := y.sites &&& ~~~siteBits bad, sitesStaged := y.sitesStaged &&& ~~~siteBits bad }
    let s1 := bad.foldl (fun s k => s.setSite k { s.site k with unwiped := true }) (s.setBerth b y1)
    commitAll (stageAll s1 b (windowsOf y1.t1) (windowsOf y1.t2) (berthCodes y1))

/-- The open job closed: every segment settles, the links are dropped and the members told, and the berth is ASSIGNED,
which clears the W1C bits of BERTH_STATUS (R333). -/
def closeJob (s : State) (b : Nat) : State :=
  let x := s.bp b
  let y := settleAll x
  let s1 := endJob (leaveJob (recordLate (s.setBp b y) b (lateSettled x y)) b 0x01) b
  let s2 := unbindFailed s1 b
  holdAgain (putBerth s2 b { s2.berth b with state := .assigned, portFault := false, stackFault := 0, integrity := false }) b

/-- BERTH_RESUME (R308, R483): the DAMP results of a suspended berth are discarded and the job ends. -/
def berthResume (s : State) (b : Nat) : State × Option Byte :=
  let fail (e : HoldEntry) : HoldEntry := if e.state = .damp then { e with state := .failed, cause := 6, left := 0 } else e
  (closeJob (modBp s b (fun x => { x with entries := x.entries.map fail })) b, some 0)

def execBerthResume (body : Bytes) (s : State) : Out :=
  whenPilot s (fun s => berthCmd s 0x47 body 2 false (fun y => y.state == .suspended) berthResume)

end Sys2Proof.Machine
end

