-- ==== Sys2Proof/Machine/Pair.lean ====
section
/-! DEFINITION. Pair (13): points and their cursors, digests, the leader's vote, verdicts and what each role does, members
that leave, and the commands of Line hold and Pair. -/

namespace Sys2Proof.Machine

/-! ### The frame of a VF command (R487, R533) -/

/-- A command of VF n for berth n: not ready, FREE and RINSING are answered before the command is looked at. -/
def vfCmd (s : State) (vf : Nat) (code : Byte) (f : State → State) : State :=
  if !vfExists s vf then s
  else if !s.pilot.ready then replyMs s (.vf vf) code 0x06 []
  else
    match (s.berth vf).state with
    | .free => replyMs s (.vf vf) code 0x04 []
    | .rinsing => replyMs s (.vf vf) code 0x02 []
    | _ => f s

/-! ### Classes and leaders (R473, R480) -/

def classOf (j : Job) (id : Bytes) : Nat := ((j.members.find? (fun m => m.1 == id)).map (·.2)).getD 0

/-- The class members still in the job, in ascending order of identity: V of R482. -/
def classIds (s : State) (j : Job) : List Bytes :=
  idSort ((presentIds j).filter (fun m => classOf j m == classOf j (selfId s)))

def leaderOf (s : State) (j : Job) : Bytes := (classIds s j).headD (selfId s)

/-! ### Bodies (R481) -/

def digestBody (j : Job) (point : Word) (cls : Nat) (v : PairVote) : Bytes :=
  padTo 16 j.jobId ++ toLe 4 point.toNat ++ padTo 16 v.sender ++ toLe 2 cls ++ [v.status, BitVec.ofNat 8 v.entries.length] ++
    v.entries.flatMap (fun e => toLe 4 e.1.toNat ++ zeros 4 ++ toLe 8 e.2.1 ++ toBe 16 e.2.2.toNat)

/-- A digest read; reserved STATUS values read as 0x01. -/
def digestVote (m : Bytes) : PairVote :=
  { sender := slice m 20 16
    status := if 5 ≤ leAt m 38 1 then 1 else byteAt m 38
    entries := (List.range (leAt m 39 1)).map (fun i =>
      (BitVec.ofNat 32 (leAt m (40 + 32 * i) 4), leAt m (48 + 32 * i) 8, BitVec.ofNat 128 (beNat (slice m (56 + 32 * i) 16)))) }

def verdictBody (s : State) (j : Job) (point : Word) (outcome : Byte) (roles : List (Bytes × Byte)) : Bytes :=
  padTo 16 j.jobId ++ toLe 4 point.toNat ++ selfId s ++ toLe 2 (classOf j (selfId s)) ++ [outcome, 0] ++ toLe 2 roles.length ++
    roles.flatMap (fun r => padTo 16 r.1 ++ [r.2])

/-! ### The vote (R482) -/

/-- A member's vote as it can be equal to another: none where its STATUS is not 0 or nothing arrived. -/
def voteKey (vs : List PairVote) (id : Bytes) : Option (List (Word × Nat × BitVec 128)) :=
  ((vs.find? (fun v => v.sender == id)).filter (fun v => v.status == 0)).map (·.entries)

/-- Members whose vote equals that of `id`, itself among them. -/
def equalVotes (vs : List PairVote) (ids : List Bytes) (id : Bytes) : List Bytes :=
  ids.filter (fun m => m == id || ((voteKey vs m).isSome && voteKey vs m == voteKey vs id))

/-- The largest set of equal votes. -/
def largestSet (vs : List PairVote) (ids : List Bytes) : List Bytes :=
  ids.foldl (fun g m => if g.length < (equalVotes vs ids m).length then equalVotes vs ids m else g) []

/-- OUTCOME and the members' roles. -/
def pairDecide (vs : List PairVote) (ids : List Bytes) : Byte × List (Bytes × Byte) :=
  let g := largestSet vs ids
  let all (r : Byte) : List (Bytes × Byte) := ids.map (fun m => (m, r))
  if ids.length ≤ 1 then (5, all 0)
  else if g.length = ids.length then (1, all 0)
  else if ids.length = 2 then (3, all 2)
  else if ids.length < 2 * g.length then
    (2, ids.map (fun m => (m, if g.contains m then 0 else if (vs.any (fun v => v.sender == m)) then 1 else 4)))
  else (4, all 3)

/-! ### A verdict reaches a member (R483) -/

def modPoint (x : BerthPress) (point : Word) (f : PairPoint → PairPoint) : BerthPress :=
  { x with points := x.points.map (fun p => if p.point = point then f p else p) }

/-- Segments that a point gates may no longer dry. -/
def forbidGated (x : BerthPress) (point : Word) : BerthPress :=
  { x with segments := x.segments.map (fun g => if g.gate.contains point then { g with forbid := true } else g) }

/-- The outcome is stored, and the gated segment held or let go. A point already LOST keeps that outcome. -/
def storeVerdict (point : Word) (outcome role : Byte) (roles : List (Bytes × Byte)) (x : BerthPress) : BerthPress :=
  let y := modPoint x point (fun p =>
    { p with outcome := if p.outcome = 6 then 6 else outcome, role := role, others := roles.filter (fun r => r.2 != 0) })
  if role = 0 then y else forbidGated y point

/-- The two-replica disagreement: SUSPENDED, and the job's links HELD, those whose
agreement still runs too (R308, R392, R483). -/
def suspend (s : State) (b : Nat) : State :=
  let s1 := if (s.berth b).state = .running then putBerth s b { s.berth b with state := .suspended } else s
  (jobLinks s1 b).foldl (fun s n => modLink s n (fun x =>
    if x.job = .keyed ∨ x.job = .agreeing then { x with job := .held, offerRetry := false } else x)) s1

/-- Links of a berth's job toward some members dropped. -/
def dropToward (s : State) (b : Nat) (ids : List Bytes) : State :=
  ((jobLinks s b).filter (fun n => ids.contains (peerId (s.link n)))).foldl dropLinkJob s

/-- A member acts on a verdict according to its role. One that names it counts even without a digest of its own. -/
def applyVerdict (s : State) (b : Nat) (point : Word) (outcome : Byte) (roles : List (Bytes × Byte)) : State :=
  match roles.find? (fun r => r.1 == selfId s) with
  | none => s
  | some (_, role) =>
    if (s.bp b).points.any (fun p => p.point == point && p.outcome != 0 && p.outcome != 6) then s
    else
      let s1 := holdSet s b (storeVerdict point outcome role roles)
      match role with
      | 0x00 => if outcome = 2 then dropToward s1 b ((roles.filter (fun r => r.2 != 0)).map (·.1)) else s1
      | 0x01 => startRinse s1 b 0x04
      | 0x04 => startRinse s1 b 0x04
      | 0x02 => suspend s1 b
      | _ => s1

/-! ### The leader votes (R480, R482, R484) -/

/-- The vote on a point with what has arrived: absentees are journalled, and the verdict goes to every member of the class. -/
def castVote (s : State) (b : Nat) (j : Job) (point : Word) : State :=
  let ids := classIds s j
  let vs := ((s.bp b).votes.filter (fun v => v.1 == point)).map (·.2)
  let (outcome, roles) := pairDecide vs ids
  let absent := ids.filter (fun m => !vs.any (fun v => v.sender == m))
  let s1 := if absent.isEmpty then s else record s 0x0403 (BitVec.ofNat 32 b) point
  let s2 := modBp s1 b (fun x => { x with votes := x.votes.filter (fun v => v.1 != point) })
  let s3 := (ids.filter (· != selfId s)).foldl (fun s m => routeFrom s m 0x31 (verdictBody s j point outcome roles)) s2
  applyVerdict s3 b point outcome roles

/-- The leader holds a digest from every member of its class, its own included. -/
def tryVote (s : State) (b : Nat) (point : Word) : State :=
  match openJob (s.bp b) with
  | none => s
  | some j =>
    let ids := classIds s j
    if leaderOf s j ≠ selfId s ∨ !(s.bp b).points.any (fun p => p.point == point && p.sent.isSome && p.outcome == 0) then s
    else if ids.all (fun m => (s.bp b).votes.any (fun v => v.1 == point && v.2.sender == m)) then castVote s b j point
    else s

/-- A digest reaches the leader; a second one of the same member replaces the first. -/
def takeDigest (s : State) (b : Nat) (point : Word) (v : PairVote) : State :=
  match openJob (s.bp b) with
  | none => s
  | some j =>
    if !(classIds s j).contains v.sender ∨ (s.bp b).points.any (fun p => p.point == point && p.outcome != 0) then s
    else
      tryVote (modBp s b (fun x =>
        { x with votes := x.votes.filter (fun w => !(w.1 == point && w.2.sender == v.sender)) ++ [(point, v)] })) b point

/-- A member's digest goes to its class leader. -/
def sendDigest (s : State) (b : Nat) (j : Job) (point : Word) (v : PairVote) : State :=
  if leaderOf s j = selfId s then takeDigest s b point v
  else routeFrom s (leaderOf s j) 0x30 (digestBody j point (classOf j (selfId s)) v)

/-- PAIR_DIGEST (R480-R482). -/
def onDigest (s : State) (m : Bytes) : State :=
  match jobBerthOf s (slice m 0 16) with
  | none => s
  | some b => if m.length ≠ 40 + 32 * leAt m 39 1 then s else takeDigest s b (BitVec.ofNat 32 (leAt m 16 4)) (digestVote m)

def execPairDigest (body : Bytes) (s : State) : Out := whenPilot s (fun s => onDigest (absorb s) body)

/-- PAIR_VERDICT (R483). -/
def onVerdict (s : State) (m : Bytes) : State :=
  match jobBerthOf s (slice m 0 16) with
  | none => s
  | some b =>
    if m.length ≠ 42 + 17 * leAt m 40 2 ∨ leAt m 38 1 = 0 ∨ 6 ≤ leAt m 38 1 then s
    else
      applyVerdict s b (BitVec.ofNat 32 (leAt m 16 4)) (byteAt m 38)
        ((List.range (leAt m 40 2)).map (fun i => (slice m (42 + 17 * i) 16, byteAt m (58 + 17 * i))))

def execPairVerdict (body : Bytes) (s : State) : Out := whenPilot s (fun s => onVerdict (absorb s) body)

/-! ### A digest becomes final (R477-R480) -/

/-- The sum of the partial sums over every Pier of the region at `base`; the regions of a point do not overlap (R475, R479). -/
def regionSum (s : State) (b : Nat) (point : Word) (base : Nat) : BitVec 128 :=
  s.piers.foldl (fun v p => p.2.cursors.foldl (fun v c =>
    if c.2.berth = b ∧ c.2.point = point ∧ c.2.base = base then v + c.2.sum else v) v) 0

/-- The cursors of one point freed. -/
def freePointCursors (s : State) (b : Nat) (point : Word) : State :=
  { s with piers := s.piers.map (fun p => (p.1, { p.2 with cursors := p.2.cursors.filter (fun c => !(c.2.berth == b && c.2.point == point)) })) }

/-- This member's digest as it stands, with STATUS `st`; the digests are zero unless it is valid. -/
def ownVote (s : State) (b : Nat) (p : PairPoint) (st : Byte) : PairVote :=
  { sender := selfId s, status := st
    entries := p.regions.map (fun r => (r.1, r.2.2, if st = 0 then regionSum s b p.point r.2.1 else 0)) }

/-- The digest is final and goes to the leader, unless the verdict is already there. -/
def finishPoint (s : State) (b : Nat) (j : Job) (p : PairPoint) (st : Byte) : State :=
  let v := ownVote s b p st
  let s1 := modBp (freePointCursors s b p.point) b (fun x => modPoint x p.point (fun p => { p with sent := some v, status := st, cursors := [] }))
  if p.outcome = 0 then sendDigest s1 b j p.point v else s1

/-- The cursor of a lane has set DONE for a point, or is no longer there for it. -/
def cursorOver (s : State) (b n i : Nat) (p : PairPoint) : Bool :=
  match tfind (s.pier n).cursors i with
  | none => true
  | some c => c.berth != b || c.point != p.point || c.done

/-- PAIR_CURSOR_DONE (R477): the sampler takes it; the digest that is then final is Pilot's to send, and waits for it (R26). -/
def pairCursorDone (s : State) (n i : Nat) : State :=
  match homeOf s n with
  | none => s
  | some home =>
    s.press.berths.foldl (fun s y =>
      match openJob (s.bp y.1) with
      | none => s
      | some j =>
        (s.bp y.1).points.foldl (fun s p =>
          if !p.closed ∨ !p.cursors.contains (home, i) ∨ !cursorOver s y.1 n i p then s
          else
            let q := { p with cursors := p.cursors.erase (home, i) }
            let s1 := modBp s y.1 (fun x => modPoint x p.point (fun _ => q))
            if pilotUp s1 ∧ q.cursors.isEmpty ∧ q.sent.isNone then finishPoint s1 y.1 j q q.status else s1) s) s

def execPairCursorDone (pier cursor : Nat) (s : State) : Out := whenPress s (pairCursorDone · pier cursor)

/-- Digests that became final while Pilot was away are sent (R26). -/
def finishWaiting (s : State) : State :=
  s.press.berths.foldl (fun s y =>
    match openJob (s.bp y.1) with
    | none => s
    | some j => (s.bp y.1).points.foldl (fun s p =>
      if p.closed ∧ p.cursors.isEmpty ∧ p.sent.isNone then finishPoint s y.1 j p p.status else s) s) s

/-- Points that the job's close comes before are sent with STATUS 0x04; one already closed has its completion reads (R478). -/
def closePoints (s : State) (b : Nat) : State :=
  match openJob (s.bp b) with
  | none => s
  | some j => ((s.bp b).points.filter (fun p => p.sent.isNone && !p.closed)).foldl (fun s p => finishPoint s b j p 0x04) s

/-! ### Limits and departures (R484) -/

/-- PAIR_DIGEST_TIMEOUT: the leader votes with the missing members absent. -/
def execPairDigestTimeout (vf : Nat) (point : Word) (s : State) : Out :=
  whenPilot s (fun s0 =>
    let s := absorb s0
    match openJob (s.bp vf) with
    | none => s
    | some j =>
      if leaderOf s j = selfId s ∧ (s.bp vf).points.any (fun p => p.point == point && p.sent.isSome && p.outcome == 0) then castVote s vf j point
      else s)

/-- PAIR_VERDICT_TIMEOUT: the outcome is LOST and the gated segment FAILED; the berth stays RUNNING. -/
def execPairVerdictTimeout (vf : Nat) (point : Word) (s : State) : Out :=
  whenPilot s (fun s0 =>
    let s := absorb s0
    if (s.bp vf).points.any (fun p => p.point == point && p.sent.isSome && p.outcome == 0) then
      holdSet s vf (fun x => forbidGated (modPoint x point (fun p => { p with outcome := 6 })) point)
    else s)

/-- A member has left the job of a berth: its links are dropped, it leaves V, a new leader gets every digest without a
verdict, and the leader votes where it now can. -/
def memberGone (s : State) (b : Nat) (id : Bytes) : State :=
  match openJob (s.bp b) with
  | none => s
  | some j =>
    if !(presentIds j).contains id ∨ id = selfId s then s
    else
      let lead := leaderOf s j
      let j' := { j with gone := j.gone ++ [id] }
      let s1 := dropToward (modBp s b (fun x => { x with job := some j', votes := x.votes.filter (fun v => v.2.sender != id) })) b [id]
      (s1.bp b).points.foldl (fun s p =>
        match p.sent with
        | none => s
        | some v =>
          if p.outcome ≠ 0 then s
          else if lead = id then sendDigest s b j' p.point v
          else tryVote s b p.point) s1

/-- JOB_LEAVE (R404). -/
def onJobLeave (s : State) (m : Bytes) : State :=
  match jobBerthOf s (slice m 0 16) with
  | some b => if m.length = 36 then memberGone s b (slice m 16 16) else s
  | none => s

def execJobLeave (body : Bytes) (s : State) : Out := whenPilot s (fun s => onJobLeave (absorb s) body)

/-- Members whose packages have left the Crossing without a JOB_LEAVE (R404). -/
def departures (s : State) : State :=
  s.press.berths.foldl (fun s x =>
    match openJob (s.bp x.1) with
    | none => s
    | some j => ((presentIds j).filter (fun m => !s.crossing.members.contains m)).foldl (fun s m => memberGone s x.1 m) s) s

/-! ### PAIR_POINT (R475, R476) -/

/-- A region of the body: REGION_ID, reserved word, BASE, SIZE. -/
def pointRegion (m : Bytes) (i : Nat) : Word × Nat × Nat :=
  (BitVec.ofNat 32 (leAt m (20 + 24 * i) 4), leAt m (28 + 24 * i) 8, leAt m (36 + 24 * i) 8)

def pointRegions (m : Bytes) : List (Word × Nat × Nat) := (List.range (leAt m 16 1)).map (pointRegion m)

/-- A field is out of range, or a reserved one is not 0. -/
def pointMalformed (m : Bytes) : Bool :=
  decide (m.length < 20 ∨ leAt m 16 1 = 0 ∨ 16 < leAt m 16 1 ∨ m.length ≠ 20 + 24 * leAt m 16 1 ∨ leAt m 4 4 ≠ 0 ∨ leAt m 17 3 ≠ 0) ||
    (List.range (leAt m 16 1)).any (fun i => leAt m (24 + 24 * i) 4 != 0) ||
    (pointRegions m).any (fun r => decide (r.2.2 = 0 ∨ r.2.2 % 64 ≠ 0 ∨ 2 ^ 38 < r.2.2))

/-- No two regions overlap. -/
def regionsApart : List (Word × Nat × Nat) → Bool
  | [] => true
  | r :: l => l.all (fun q => !overlaps (r.2.1, r.2.2) (q.2.1, q.2.2)) && regionsApart l

/-- The first code that a PAIR_POINT meets, beside 0x33 (the order is log entry 51). -/
def pointCheck (s : State) (b : Nat) (m : Bytes) : Byte :=
  let x := s.bp b
  if (s.berth b).state ≠ .running then 0x30
  else if pointMalformed m then 0x31
  else if !((openJob x).any (fun j => multi j && !j.closing)) then 0x32
  else if leAt m 0 4 = 0 ∨ x.points.any (fun p => decide (leAt m 0 4 ≤ p.point.toNat)) = true ∨
      (x.anyDecl = true ∧ leAt m 8 8 ≤ x.lastDecl.toNat) then 0x34
  else if (pointRegions m).any (fun r => decide (r.2.1 % 64 ≠ 0) || (inWindow s b r.2.1 r.2.2 false).isNone) || !regionsApart (pointRegions m) then 0x35
  else if 4 ≤ (x.points.filter (fun p => !p.closed)).length then 0x36
  else 0

/-- The lanes, by home, that hold lines of a region, with the cursor each gets. -/
def regionCursors (b : Nat) (point : Word) (u : Nat) (r : Word × Nat × Nat) : List (Nat × Cursor) :=
  let c : Cursor := { berth := b, point := point, region := r.1, base := r.2.1, size := r.2.2, pos := 0, sum := 0, closing := false, done := false }
  ((unitLanes u).map (fun h => (h, { c with pos := cursorNext c h 0 }))).filter (fun q => decide (q.2.pos < r.2.2 / 64))

/-- One cursor armed on the lane of a home, if it has a free one and a pin. -/
def armCursor (b : Nat) (acc : Option (State × List (Nat × Nat))) (q : Nat × Cursor) : Option (State × List (Nat × Nat)) :=
  match acc with
  | none => none
  | some (s, l) =>
    let n := servedBy s q.1
    let x := s.pier n
    match (List.range 4).find? (fun i => (tfind x.cursors i).isNone) with
    | none => none
    | some i =>
      if !laneServes s n ∨ !canPin x b then none
      else
        let s1 := s.setPier n { x with cursors := tset x.cursors i q.2 }
        some (if (keyEntry x b).isNone then vaultMiss s1 (.pier n) b else s1, l ++ [(q.1, i)])

/-- PAIR_POINT: a cursor for each region on every Pier that holds lines of it, or nothing. -/
def pairPoint (s : State) (b : Nat) (m : Bytes) : State :=
  match pointCheck s b m with
  | 0 =>
    let point : Word := BitVec.ofNat 32 (leAt m 0 4)
    let cs := (pointRegions m).flatMap (fun r => match inWindow s b r.2.1 r.2.2 false with
      | some (u, _) => regionCursors b point u r
      | none => [])
    (match cs.foldl (armCursor b) (some (s, [])) with
      | none => reply s (.vf b) 0x64 [0x33]
      | some (t, l) =>
        reply (modBp t b (fun x => { x with points := x.points ++ [{
          point := point, closeDecl := BitVec.ofNat 64 (leAt m 8 8), regions := pointRegions m, cursors := l, closed := false
          status := 0, sent := none, outcome := 0, role := 0, others := [] }] })) (.vf b) 0x64 [0])
  | e => reply s (.vf b) 0x64 [e]

def execPairPoint (vf : Nat) (body : Bytes) (s : State) : Out := whenPilot s (fun s => vfCmd (absorb s) vf 0x64 (pairPoint · vf body))

/-! ### PAIR_STATUS, HOLD_QUERY, JOB_PEERS (R473, R487-R489) -/

def pairStatusBody (s : State) (j : Job) (p : PairPoint) : Bytes :=
  let cls := classOf j (selfId s)
  [0, p.outcome, p.role, 0] ++ toLe 2 cls ++ toLe 2 (j.members.filter (fun m => m.2 == cls)).length ++ toLe 2 p.others.length ++ [0, 0] ++
    ((idSort (p.others.map (·.1))).take 64).flatMap (padTo 16)

def pairStatus (s : State) (b : Nat) (m : Bytes) : State :=
  let x := s.bp b
  let fail (e : Byte) : State := reply s (.vf b) 0x65 (e :: zeros 11)
  if m.length ≠ 4 then fail 0x31
  else
    match x.job with
    | none => fail 0x32
    | some j =>
      if !multi j then fail 0x32
      else
        match x.points.find? (fun p => p.point.toNat == leAt m 0 4) with
        | some p => reply s (.vf b) 0x65 (pairStatusBody s j p)
        | none => fail 0x37

def execPairStatus (vf : Nat) (body : Bytes) (s : State) : Out := whenPilot s (fun s => vfCmd (absorb s) vf 0x65 (pairStatus · vf body))

/-- The reply for a segment: STATE, LATE and GATED, its entries, and the lowest FAILED one. -/
def holdBody (x : BerthPress) (n : Nat) (state : Byte) (g : Option Segment) : Bytes :=
  let mine := x.entries.filter (fun e => e.segment == n && !e.orphan)
  let cnt (st : HoldState) : Bytes := toLe 2 (mine.filter (fun e => e.state == st)).length
  let low := (mine.filter (fun e => e.state == .failed)).foldl (fun (a : Option HoldEntry) e => match a with
    | some f => if e.declId.toNat < f.declId.toNat then some e else a
    | none => some e) none
  let flags := b2n (g.any (·.late)) + 2 * b2n x.sealed + 4 * b2n (g.any (fun g => !g.gate.isEmpty))
  [0, state, BitVec.ofNat 8 flags, 0] ++ cnt .dry ++ cnt .damp ++ cnt .failed ++ toLe 2 (x.entries.filter (isFence x)).length ++
    toLe 8 ((low.map (·.declId.toNat)).getD 0) ++ [BitVec.ofNat 8 ((low.map (·.cause)).getD 0)] ++ zeros 11

/-- HOLD_QUERY; with no job open only SEALED is meaningful. -/
def holdQuery (s : State) (b : Nat) (m : Bytes) : State :=
  let x := s.bp b
  let fail (e : Byte) : State := reply s (.vf b) 0x62 ([e, 0, BitVec.ofNat 8 (2 * b2n x.sealed)] ++ zeros 29)
  let n := leAt m 0 4
  if m.length ≠ 4 then fail 0x31
  else if (openJob x).isNone then fail 0x37
  else
    match findSeg x n, segState x n with
    | _, .old => fail 0x37
    | none, .open_ => fail 0x37
    | g, .dry => reply s (.vf b) 0x62 (holdBody x n 2 g)
    | g, .failed => reply s (.vf b) 0x62 (holdBody x n 3 g)
    | some g, .open_ => reply s (.vf b) 0x62 (holdBody x n (if g.closed then 1 else 0) (some g))

def execHoldQuery (vf : Nat) (body : Bytes) (s : State) : Out := whenPilot s (fun s => vfCmd (absorb s) vf 0x62 (holdQuery · vf body))

/-- JOB_PEERS: entries of the member list staged. -/
def jobPeers (s : State) (b : Nat) (m : Bytes) : State :=
  let i := leAt m 0 2
  let n := leAt m 2 1
  let entry (k : Nat) : Bytes × Nat := (slice m (4 + 18 * k) 16, leAt m (20 + 18 * k) 2)
  if (s.berth b).state ≠ .assigned then reply s (.vf b) 0x63 [0x30]
  else if m.length < 4 ∨ n = 0 ∨ 56 < n ∨ m.length ≠ 4 + 18 * n ∨ leAt m 3 1 ≠ 0 ∨ 1024 < i + n ∨
      (List.range n).any (fun k => decide (1024 ≤ (entry k).2)) = true then reply s (.vf b) 0x63 [0x31]
  else
    reply (modBp s b (fun x => { x with peers := (List.range n).foldl (fun t k => tset t (i + k) (entry k)) x.peers })) (.vf b) 0x63 [0]

def execJobPeers (vf : Nat) (body : Bytes) (s : State) : Out := whenPilot s (fun s => vfCmd s vf 0x63 (jobPeers · vf body))

end Sys2Proof.Machine
end

