-- ==== Sys2Proof/Machine/Jobs.lean ====
section
/-! DEFINITION. Jobs (12, 13): JOB_OPEN with its checks and admission, JOB_CLOSE and its completion, and the idle-slot
tests of the sites. -/

namespace Sys2Proof.Machine

/-! ### The request (R411, R472) -/

structure JobReq where
  kind : Nat
  profiles : Nat
  versions : Nat
  denom : Nat
  floor : Nat
  segTiles : Nat
  periodUs : Nat
  deadlineUs : Nat
  planClocks : Nat
  planT1 : Nat
  planT2 : Nat
  tileMax : Nat
  jobId : Bytes
  members : Nat
  deriving DecidableEq, Repr

def jobReq (m : Bytes) : JobReq :=
  { kind := leAt m 0 1, profiles := leAt m 1 1, versions := leAt m 2 1, denom := leAt m 4 2, floor := leAt m 8 4, segTiles := leAt m 12 4,
    periodUs := leAt m 16 4, deadlineUs := leAt m 20 4, planClocks := leAt m 24 4, planT1 := leAt m 28 4, planT2 := leAt m 32 4,
    tileMax := leAt m 36 4, jobId := slice m 40 16, members := leAt m 56 2 }

/-- An argument is out of range or a reserved field is not 0 (0x26). -/
def jobMalformed (m : Bytes) : Bool :=
  let q := jobReq m
  let fixedOnly := [q.periodUs, q.deadlineUs, q.planClocks, q.planT1, q.planT2, q.tileMax]
  decide (m.length ≠ 64 ∨ 1 < q.kind ∨ 16 ≤ q.profiles ∨ leAt m 3 1 ≠ 0 ∨ leAt m 6 2 ≠ 0 ∨ leAt m 58 6 ≠ 0 ∨ q.denom < 16 ∨
    4096 < q.denom ∨ 65535 < q.floor ∨ (q.segTiles = 0 ↔ q.floor ≠ 0) ∨ (q.members = 0 ∧ allZero q.jobId = false)) ||
    (q.kind == 0 && fixedOnly.any (· != 0)) ||
    (q.kind == 1 && decide (q.floor = 0 ∨ q.periodUs < 1000 ∨ 1000000 < q.periodUs))

/-- MB3 supports declaration format version 1 (R413). -/
def commonVersion (s : State) (q : JobReq) : Option Nat :=
  if nbit q.versions 0 ∧ max 1 ((policyWord s.fuse 2).toNat / 2 ^ 24 % 256) ≤ 1 then some 1 else none

/-- The member list as staged is the job's: indices 0 to MEMBERS - 1 and no other, each identity once, this package's own among
them, in 2-1,024 (R474). -/
def membersOk (s : State) (q : JobReq) (peers : Tbl (Bytes × Nat)) : Bool :=
  decide (2 ≤ q.members ∧ q.members ≤ 1024) && peers.map (·.1) == List.range q.members &&
    (peers.map (·.2.1)).eraseDups.length == peers.length && peers.any (fun p => p.2.1 == selfId s)

/-- The checks of a multi-package job (R474). -/
def multiCheck (s : State) (b : Nat) (q : JobReq) : Byte :=
  let peers := (s.bp b).peers
  if q.members = 0 then 0
  else if !membersOk s q peers then 0x2A
  else if (s.record b).pair.isNone ∨ padTo 16 (s.berth b).pairJob ≠ q.jobId then 0x2B
  else if !peers.all (fun p => s.crossing.members.contains p.2.1) then 0x2C
  else if (s.press.berths.any (fun x => x.1 != b && (openJob x.2).any (fun j => j.jobId == q.jobId && multi j))) then 0x2D
  else 0

/-- A load of the open fixed-rate jobs and of this one. -/
def withLoad (s : State) (q : JobReq) (f : Job → Nat) (own : Nat) : Nat × Nat :=
  let l := loadSum s f
  if q.periodUs = 0 then l else (l.1 * q.periodUs + own * l.2, l.2 * q.periodUs)

/-- KiB of the fixed-rate jobs' captures held twice, with this one's (A4). -/
def basketSum (s : State) (q : JobReq) : Nat :=
  (s.press.berths.filterMap (fun x => openJob x.2)).foldl (fun n j => if j.fixed then n + 2 * (j.planT1 + j.planT2) else n)
    (2 * (q.planT1 + q.planT2))

/-- Conditions A1 to A4 of R450. -/
def admission (s : State) (q : JobReq) : Byte :=
  let t1 := withLoad s q (·.planT1) q.planT1
  let t2 := withLoad s q (·.planT2) q.planT2
  if q.kind = 0 then 0
  else if !a1Holds s (withLoad s q (·.planClocks) q.planClocks) then 0x24
  else if 524800 * t1.2 < t1.1 * 1024 ∨ 153600 * t2.2 < t2.1 * 1024 then 0x25
  else if q.deadlineUs * 1300 < 1500 * 1300 + q.tileMax then 0x27
  else if 1048576 < basketSum s q then 0x28
  else 0

/-- Declaration rings assigned, of 64 (R414). -/
def ringsHeld (s : State) : Nat := (s.press.berths.filter (fun x => x.2.ringHeld)).length

/-- The first code that a JOB_OPEN meets before anything of it is done. -/
def jobCheck (s : State) (b : Nat) (m : Bytes) : Byte :=
  let q := jobReq m
  if (s.berth b).state ≠ .assigned ∨ (s.berth b).commit.isSome then 0x20
  else if jobMalformed m then 0x26
  else if arraysIn s = 0 then 0x22
  else if (commonVersion s q).isNone then 0x23
  else if multiCheck s b q ≠ 0 then multiCheck s b q
  else admission s q

/-- D_EFF (R414). -/
def effDenom (q : JobReq) : Nat := if q.floor = 0 then q.denom else min q.denom (max 1 (q.segTiles / q.floor))

def newJob (q : JobReq) (version : Nat) (peers : Tbl (Bytes × Nat)) : Job :=
  { isOpen := true, fixed := q.kind == 1, profiles := q.profiles, version := version, dEff := effDenom q, floor := q.floor,
    segTiles := q.segTiles, periodUs := q.periodUs, deadlineUs := q.deadlineUs, planClocks := q.planClocks, planT1 := q.planT1,
    planT2 := q.planT2, tileMax := q.tileMax, jobId := q.jobId, members := if q.members = 0 then [] else peers.map (·.2), gone := [],
    closing := false, answer := false, siteBad := false, unavailable := [] }

/-- The berth's page for a new job: the ring's counts at 0, the W1C bits clear, and what was kept of the last job gone. The
fences and the seal stay (R465). -/
def openPage (x : BerthPress) (j : Job) : BerthPress :=
  { x with job := some j, ringHeld := true, ring := [], accepted := 0, acked := 0, err := 0, flags := 0, lastDecl := 0, lastSeg := 0
           anyDecl := false, head := none, armed := [], reserved := 0, segments := [], points := [], votes := []
           entries := x.entries.map (fun e => { e with orphan := true }) }

/-- DESTROY and GENERATE on FIELD 5 (R414), as the vault runs them: the state after them, and 0, or the code of JOB_OPEN for the one
it refuses: 0x29 for DRBG health, 0x20 for any other reason. -/
def freshSeed (s : State) (b : Nat) : State × Byte :=
  if !(s.record b).opened then (s, 0x20)
  else
    let s1 := changeQuiet (samplerInvalidate s (· == b)) b { s.record b with pressSeed := none }
    if (s.record b).unusable then (s1, 0x20)
    else if !s.vault.drbgOk then (s1, 0x29)
    else (changeQuiet (drew s1 48) b { s1.record b with pressSeed := some (drawBytes s1 48) }, 0)

/-- JOB_OPEN (R410-R415, R472, R474): the checks, the seed, a ring, and the berth is RUNNING, in that order (R414). -/
def jobOpen (s : State) (b : Nat) (m : Bytes) : State :=
  let fail (s : State) (e : Byte) : State := reply s (.vf b) 0x60 (e :: zeros 7)
  match jobCheck s b m with
  | 0 =>
    (match freshSeed s b with
      | (s1, 0) =>
        if 64 ≤ ringsHeld s1 then fail s1 0x21
        else
          let q := jobReq m
          let v := (commonVersion s q).getD 0
          let s2 := modBp s1 b (fun x => openPage x (newJob q v x.peers))
          let s3 := assignLinks (putBerth s2 b { s2.berth b with state := .running }) b
          reply s3 (.vf b) 0x60 ([0, BitVec.ofNat 8 v, 0, 0] ++ toLe 4 (effDenom q))
      | (s1, e) => fail s1 e)
  | e => fail s e

def execJobOpen (vf : Nat) (body : Bytes) (s : State) : Out := whenPilot s (fun s => vfCmd (absorb s) vf 0x60 (jobOpen · vf body))

/-! ### JOB_CLOSE (R416) -/

/-- A tile whose operands and result are complete is on its way to its verdict (R416). -/
def tileGoesOn (t : Tile) : Bool := t.operands.isEmpty && t.result.isEmpty

/-- JOB_CLOSE: the ring accepts nothing more, tiles that are not complete are INCOMPLETE, and open Pair points end. -/
def jobClose (s : State) (b : Nat) (m : Bytes) : State :=
  match openJob (s.bp b) with
  | none => reply s (.vf b) 0x61 [0x20]
  | some j =>
    if m ≠ [] then reply s (.vf b) 0x61 [0x26]
    else if (s.berth b).state ≠ .running ∨ j.closing then reply s (.vf b) 0x61 [0x20]
    else
      let s1 := modPress (modBp s b (fun x => { x with job := some { j with closing := true, answer := true }, ring := [], head := none }))
        (fun p => { p with waiting := p.waiting.filter (· != b) })
      let s2 := ((s1.bp b).armed).foldl (fun s a =>
        (a.tiles.filter (fun t => !tileGoesOn t)).foldl (fun s t => plainVerdict s b a t 2) s) s1
      closePoints s2 b

def execJobClose (vf : Nat) (body : Bytes) (s : State) : Out := whenPilot s (fun s => vfCmd (absorb s) vf 0x61 (jobClose · vf body))

/-- Every verdict is in the ledger and applied: no tile is left, and only records of rejected declarations may still be on
their way. A point that closed before the job has its digest (log entry 185). -/
def closeReady (x : BerthPress) : Bool :=
  (x.job.any (fun j => j.isOpen && j.closing)) && x.armed.isEmpty && (x.outbox ++ x.unread).all (fun r => leAt r 0 1 == 5) &&
    x.points.all (fun p => p.sent.isSome)

/-- JOB_CLOSE_COMPLETE. -/
def execJobCloseComplete (vf : Nat) (s : State) : Out :=
  whenPilot s (fun s0 =>
    let s := absorb s0
    if closeReady (s.bp vf) ∧ (s.berth vf).state = .running then
      let t := closeJob s vf
      if (s.bp vf).job.any (·.answer) then reply t (.vf vf) 0x61 [0] else t
    else s)

/-! ### Idle-slot tests (R486) -/

/-- Region 5 word 6: TEST_PERIOD and TEST_BUDGET. -/
def testPeriod (f : Fuse) : Nat := (policyWord f 6).toNat % 256
def testBudget (f : Fuse) : Nat := max 1 ((policyWord f 6).toNat / 256 % 256)

/-- Sites that get an IDLE_TEST: boarded, serving a berth, with Boarding version 2 or higher. -/
def testable (s : State) (k : Nat) : Bool := (s.site k).step == .boarded && siteServes s k && decide (2 ≤ (s.site k).version)

/-- IDLE_TEST to every such site. -/
def idleTests (s : State) : State :=
  let p := testPeriod s.fuse
  if p = 0 then s
  else
    ((List.range 12).filter (testable s)).foldl (fun s k =>
      let id := s.press.testId + 1
      let due := min 65535 (1000 * p)
      sendSide (modPress s (fun p => { p with tests := tmod [] p.tests k (· ++ [id]), testId := id })) k (.idleTest k id (testBudget s.fuse) due)
        (Config.siteMessage [[0x06], toLe 4 id.toNat, toLe 4 (testBudget s.fuse), toLe 4 due])) s

def execIdleTest (s : State) : Out := whenPilot s idleTests

/-- A site fails its test: its berth's entries that are not DRY, and those created later in the job, fail with the cause
SITE; it is unbound when the job ends, or at once with no job open. -/
def idleTestFailed (s : State) (k : Nat) : State :=
  let s1 := failSite s k 0xFF
  let s2 := s1.setSite k { s1.site k with unwiped := true }
  match s2.berths.find? (fun y => y.2.state != .free && y.2.sites.getLsbD k) with
  | none => s2
  | some (b, _) =>
    if (openJob (s2.bp b)).isSome then holdSet s2 b (fun x => { x with job := x.job.map (fun j => { j with siteBad := true }) })
    else if rinsable (s2.berth b) then unbindFailed s2 b
    else s2

/-- A test of a site is over. -/
def testOver (s : State) (k : Nat) (id : Word) : State :=
  modPress s (fun p => { p with tests :=
    if (tget [] p.tests k).filter (· != id) = [] then tdel p.tests k else tset p.tests k ((tget [] p.tests k).filter (· != id)) })

/-- IDLE_TEST_REPORT: passed, failed, or not run, which is journalled and has no other effect (R566 has no KIND for it: log entry 182);
any other RESULT counts as failed. The report of one test may come after the next test has been sent. -/
def execIdleTestReport (site : Nat) (testId : Word) (result : Byte) (_detail : DWord) (s : State) : Out :=
  whenPilot s (fun s0 =>
    let s := absorb s0
    if !(tget [] s.press.tests site).contains testId then s
    else
      let s1 := testOver s site testId
      if result = 0 then s1
      else if result = 2 then
        let r := Config.notRunRecord site
        recordQuiet s1 r.1 r.2.1 r.2.2
      else idleTestFailed s1 site)

/-- IDLE_TEST_TIMEOUT: no report of the oldest test counts as failed. -/
def execIdleTestTimeout (site : Nat) (s : State) : Out :=
  whenPilot s (fun s0 =>
    let s := absorb s0
    match tget [] s.press.tests site with
    | [] => s
    | id :: _ => idleTestFailed (testOver s site id) site)

end Sys2Proof.Machine
end

