-- ==== Sys2Proof/Machine/Links.lean ====
section
/-! DEFINITION. Gangway links and the Crossing (11): opening, attesting and closing a link, received frames and messages,
formation and routing, and the lane's registers and timers. -/

namespace Sys2Proof.Machine

/-! ### A batch of evidence (R381, R384) -/

/-- STATE of LINK_EVIDENCE. -/
def linkState (s : State) : Bytes :=
  [lcByte s] ++ toLe 2 s.lc.grant.toNat ++ [if s.fuse.tacks.isEmpty then 0 else 1] ++ svnBytes s ++
    padTo 48 (tget [] s.pilot.measurements 2) ++ padTo 48 (tget [] s.pilot.measurements 9)

def derField (d : Bytes) : Bytes := toLe 4 d.length ++ d

/-- Links that a batch of evidence names: those whose SID is known and has not been signed. -/
def batchLinks (s : State) : List Nat :=
  (List.range 48).filter (fun n => (s.link n).link == .opening && (s.link n).sid != [] && !(s.link n).signed)

/-- One LINK_EVIDENCE for these links, signed by the alias key, sent on each of them. With slot 4 out of use nothing is signed
(log entry 149). -/
def signBatch (s0 : State) : State :=
  let ls := batchLinks s0
  let s := touchSlot s0 4
  if ls.isEmpty then s0
  else if !slotServes s 4 6 then s
  else
    let body := [2, 0, 0, 0] ++ derField (identityCert s 0) ++ derField (aliasCert s 0) ++ linkState s ++ [BitVec.ofNat 8 ls.length] ++
      ls.flatMap (fun n => [BitVec.ofNat 8 n, (s.link n).peerLink] ++ padTo 48 (s.link n).sid)
    let msg := body ++ hybridSigOf (s.slot 4).material (sha384 body) s.pilot.drawn
    ls.foldl (fun s n => sendMessage (modLink s n (fun x => { x with signed := true })) n 0x22 msg) (drew s 1)

/-- Signing begins at once when every trained link in OPENING has its SID. -/
def batchIfReady (s : State) : State :=
  if (List.range 48).all (fun n => (s.link n).link != .opening || !(s.link n).trained || (s.link n).sid != []) then signBatch s else s

/-! ### Closing (R378, R382, R392) -/

/-- A link's state cleared on entering CLOSED; its counts and errors stay. -/
def closedLink (x : GwLink) : GwLink :=
  { x with link := .closed, job := .none, peerLink := 0xFF, pendLink := false, pendJob := false, maintOld := none, moveDue := false
           jobBerth := none, chCount := 0, chBase := 0, stagedValid := false, stagedBerth := 0, stagedCount := 0, stagedBase := 0
           rxq := [], key := none, refill := false, heldRx := [], heldTx := [], bundles := [], parts := [], hello := []
           peerHello := [], sid := [], evidence := false, finSent := false, finGot := false, signed := false, jobId := [], offers := 0
           offerRetry := false, rekeyBody := [] }

/-- Pilot's part of a close: the slot destroyed, and after the loss of an ATTESTED link a formation. -/
def closePilot (s : State) (n : Nat) (was : Bool) : State :=
  let s1 := if (s.slot (16 + n)).valid then invalidate (emptySlot s (16 + n)) (linkEntry (16 + n)) .quiet else s
  if was then departures (startFormation s1) else s1

/-- The link closes: Ferry's transfers on it fail, an ATTESTED one is journalled, and Pilot does its part, or finds it to do
after a warm restart. -/
def closeLink (s : State) (n : Nat) : State :=
  let x := s.link n
  if x.link ≠ .opening ∧ x.link ≠ .attested then s
  else
    let was : Bool := x.link == .attested
    let s1 := linkFails (s.setLink n (closedLink x)) n
    let s2 := if was then alarm s1 (islandAt (linkLane s n)) 0x0207 (BitVec.ofNat 32 n) (x.lastCause.setWidth 32) else s1
    let s3 := if pilotUp s then closePilot s2 n was else s2
    -- the last link without a SID has left OPENING (R381)
    if pilotUp s ∧ !was ∧ x.sid = [] then batchIfReady s3 else s3

/-- A link closes with a GW_ERR bit and its cause. -/
def closeWith (s : State) (n i : Nat) (cause : Byte) : State := closeLink (modLink s n (fun x => gwErr x i cause)) n

/-! ### Opening (R378, R380) -/

/-- LINK_HELLO's body. -/
def helloBody (s : State) (n : Nat) (keys : Bytes) : Bytes := [1, 0, 0, 0] ++ padTo 16 (selfId s) ++ [BitVec.ofNat 8 n, 0, 0, 0] ++ keys

/-- OPENING: GENERATE and KEYPAIR into slot 16 + n, and LINK_HELLO. A link whose lane does not serve stays as it is (R34). -/
def openLink (s : State) (n : Nat) : State :=
  let x := s.link n
  if !pilotUp s ∨ !s.pilot.ready ∨ x.dead ∨ x.park ∨ !x.trained ∨ !laneServes s (linkLane s n) then s
  else
    let s1 := generateOp { s with vault := { s.vault with err := 0, cmd := { field := 0, index := BitVec.ofNat 12 (16 + n), typ := 0, space := false } } }
    if s1.vault.err ≠ 0 then s1
    else
      let hello := helloBody s n (kemPair (slice (s1.slot (16 + n)).material 0 120))
      let y : GwLink := { closedLink (s1.link n) with
        link := .opening, ctrs := [], genTx := 0, genRx := 0, genKey := 0, genLink := 0, genLinkTx := 0, genLinkRx := 0, refill := true, hello := hello }
      sendMessage (s1.setLink n y) n 0x20 hello

/-- VERSIONS at or above this package's minimum (R380). -/
def linkVersions (s : State) : Byte := if max 1 ((policyWord s.fuse 2).toNat / 2 ^ 16 % 256) ≤ 1 then 1 else 0

/-- LINK_ERROR with its code, and the link closes. -/
def linkError (s : State) (n : Nat) (code : Byte) : State := closeLink (sendMessage s n 0x24 [code, linkVersions s, 0, 0]) n

/-! ### The check of evidence (R381) -/

/-- The parts of a LINK_EVIDENCE. -/
structure Evidence where
  identity : Bytes
  alias_ : Bytes
  state : Bytes
  entries : List (Nat × Nat × Bytes)
  signed : Bytes
  sig : Bytes
  deriving DecidableEq, Repr

def parseEvidence (m : Bytes) : Option Evidence :=
  let l1 := leAt m 4 4
  let l2 := leAt m (8 + l1) 4
  let o := 12 + l1 + l2
  let k := leAt m (o + 104) 1
  let e := o + 105 + 50 * k
  if leAt m 0 1 ≠ 2 ∨ m.length ≠ e + 4723 then none
  else
    some { identity := slice m 8 l1, alias_ := slice m (12 + l1) l2, state := slice m o 104,
           entries := (List.range k).map (fun i => (leAt m (o + 105 + 50 * i) 1, leAt m (o + 106 + 50 * i) 1, slice m (o + 107 + 50 * i) 48)),
           signed := m.take e, sig := m.drop e }

/-- The chain verifies to the Tvedgetex root held, unless it did before, and the alias key signed the evidence. -/
def evidenceSigned (s : State) (e : Evidence) : Bool :=
  let key := certKey e.alias_
  (s.crossing.chains.contains key || (!(rootCert s 0).isEmpty && certSigned (rootCert s 0) e.identity && certSigned e.identity e.alias_)) &&
    hybridOk key (sha384 e.signed) e.sig

/-- The distinct packages that this package's other links lead to. -/
def otherPeers (s : State) (n : Nat) : List Bytes :=
  (((List.range 48).filter (fun k => k != n && ((s.link k).evidence || (s.link k).link == .attested))).map (fun k => peerId (s.link k))).eraseDups

/-- HW_TYPE of this package (R193). -/
def hwType (s : State) : Nat := leAt (unitBytes s.fuse) 0 4

/-- The first check of R381 that fails. -/
def evidenceCheck (s : State) (n : Nat) (e : Evidence) : Byte :=
  let x := s.link n
  let same := nbit (policyWord s.fuse 5).toNat 0
  if !evidenceSigned s e then 0x02
  else if certHw e.identity ≠ hwType s ∨ byteAt e.state 0 ≠ lcByte s ∨ byteAt e.state 3 ≠ 0 ∨
      BitVec.ofNat 10 (leAt e.state 1 2) &&& invasiveMask ≠ 0 then 0x03
  else if x.sid = [] ∨ !e.entries.any (fun q => q.2.1 == n && q.2.2 == x.sid) then 0x04
  else if same = true ∧ slice e.state 56 48 ≠ padTo 48 (tget [] s.pilot.measurements 9) then 0x05
  else if !(otherPeers s n).contains (peerId x) ∧ 8 ≤ (otherPeers s n).length then 0x06
  else if peerId x = selfId s then 0x07
  else 0

/-! ### ATTESTED (R378, R387, R399) -/

/-- LINK_FIN has been checked in both directions. -/
def attest (s : State) (n : Nat) : State :=
  let x := s.link n
  if x.link ≠ .opening ∨ !x.finSent ∨ !x.finGot then s
  else
    let s0 := modLink s n (fun x => { x with link := .attested })
    let s1 := { s0 with press := { s0.press with berths := s0.press.berths.map (fun y =>
      (y.1, { y.2 with job := y.2.job.map (fun j => { j with unavailable := j.unavailable.filter (· != n) }) })) } }
    let s2 := if (List.range 48).any (fun k => (s1.link k).link == .opening && (s1.link k).trained) then s1 else milestone s1 0x1A
    let s3 := if s2.crossing.members.contains (peerId x) then s2 else departures (startFormation s2)
    s3.press.berths.foldl (fun s b => assignLinks s b.1) s3

/-- LINK_HELLO from the peer. -/
def onHello (s : State) (n : Nat) (m : Bytes) : State :=
  let x := s.link n
  if x.link ≠ .opening ∨ x.peerHello ≠ [] ∨ m.length ≠ 1689 then s
  else
    let s1 := s.setLink n { x with peerHello := m, peerLink := byteAt m 20 }
    if peerId (s1.link n) = selfId s then linkError s1 n 0x07
    else if !(byteAt m 0).getLsbD 0 ∨ linkVersions s = 0 then linkError s1 n 0x01
    else if sideHigher s1 n then
      match linkStep s1 n (m ++ x.hello.take 24) maintEncapStep with
      | (s2, false) => closeLink s2 n
      | (s2, true) =>
        batchIfReady (modLink (sendMessage s2 n 0x21 ([BitVec.ofNat 8 n, 0, 0, 0] ++ stepOut s2 1568)) n
          (fun x => { x with sid := (linkCtx s2 (16 + n)).sid }))
    else s1

/-- LINK_KEX at the lower side. -/
def onKex (s : State) (n : Nat) (m : Bytes) : State :=
  let x := s.link n
  if x.link ≠ .opening ∨ x.peerHello = [] ∨ sideHigher s n = true ∨ x.sid ≠ [] ∨ m.length ≠ 1572 then s
  else
    let p := x.peerHello
    match linkStep s n (slice p 24 97 ++ slice m 4 1568 ++ p.take 24 ++ slice p 121 1568 ++ x.hello.take 24) maintDecapStep with
    | (s1, false) => closeLink s1 n
    | (s1, true) => batchIfReady (modLink s1 n (fun x => { x with sid := (linkCtx s1 (16 + n)).sid }))

/-- LINK_EVIDENCE: accepted, and LINK_FIN goes out; or refused with its code. -/
def onEvidence (s : State) (n : Nat) (m : Bytes) : State :=
  if (s.link n).link ≠ .opening ∨ (s.link n).evidence then s
  else
    match parseEvidence m with
    | none => linkError s n 0x02
    | some e =>
      match evidenceCheck s n e with
      | 0 =>
        let key := certKey e.alias_
        let c := s.crossing
        let s1 := { s with crossing := { c with chains := if c.chains.contains key then c.chains else c.chains ++ [key] } }
        let s2 := modLink s1 n (fun x => { x with evidence := true, finSent := true })
        attest (sendMessage s2 n 0x23 (padTo 48 (s.link n).sid)) n
      | code => linkError s n code

/-- LINK_FIN: the peer's SID must be this side's. -/
def onFin (s : State) (n : Nat) (m : Bytes) : State :=
  if (s.link n).link ≠ .opening then s
  else if m ≠ (s.link n).sid then closeLink s n
  else attest (modLink s n (fun x => { x with finGot := true })) n

/-! ### Formation and routing (R399, R402-R404) -/

def onDiscover (s : State) (n : Nat) (m : Bytes) : State :=
  let e := leAt m 0 4
  let cand := slice m 4 16
  if m.length ≠ 20 then s
  else if beats e cand s.crossing then departures (adopt s e cand (some n))
  else if e = s.crossing.epoch ∧ s.crossing.candidate = some cand then sendMessage s n 0x19 (toLe 4 e ++ cand ++ toLe 2 0)
  else s

/-- The identities listed from an offset. -/
def idsAt (m : Bytes) (o k : Nat) : List Bytes := (List.range k).map (fun i => slice m (o + 16 * i) 16)

def onEcho (s : State) (n : Nat) (m : Bytes) : State :=
  let c := s.crossing
  let k := leAt m 20 2
  if m.length ≠ 22 + 16 * k ∨ !c.forming ∨ leAt m 0 4 ≠ c.epoch ∨ c.candidate ≠ some (slice m 4 16) ∨ !c.awaiting.contains n then s
  else
    departures (echoDone { s with crossing := { c with
      awaiting := c.awaiting.filter (· != n)
      children := if k = 0 then c.children else tset c.children n (idsAt m 22 k) } })

def onFormed (s : State) (n : Nat) (m : Bytes) : State :=
  let c := s.crossing
  let k := leAt m 20 2
  if m.length ≠ 22 + 16 * k ∨ !c.forming ∨ c.parent ≠ some n ∨ leAt m 0 4 ≠ c.epoch ∨ c.candidate ≠ some (slice m 4 16) then s
  else departures (takeFormed s c.epoch (slice m 4 16) (idsAt m 22 k))

/-- An inner message of ROUTE reaches this package; other inner KINDs have no meaning (R403, R404). -/
def deliverInner (s : State) (kind : Byte) (body : Bytes) : State :=
  match kind with
  | 0x30 => onDigest (absorb s) body
  | 0x31 => onVerdict (absorb s) body
  | 0x32 => onJobLeave (absorb s) body
  | _ => s

/-- ROUTE received: this hop takes one from HOPS, and a message at 0 goes no further (R402). -/
def onRoute (s : State) (n : Nat) (m : Bytes) : State :=
  let r : HeldRoute := { arrived := some n, dst := slice m 0 16, src := slice m 16 16, hops := leAt m 32 2 - 1, kind := byteAt m 34, body := m.drop 38 }
  if m.length ≠ 38 + leAt m 36 2 then s
  else if r.dst = allMembers then deliverInner (routeOn s r) r.kind r.body
  else if r.dst = selfId s then deliverInner s r.kind r.body
  else routeOn s r

/-! ### Messages and frames (R373-R377, R386) -/

/-- A whole message that Pilot takes from a link. -/
def onMessage (s : State) (n : Nat) (kind : Byte) (m : Bytes) : State :=
  match kind.toNat with
  | 0x11 => onRekey s n m
  | 0x12 => onJobOffer s n m
  | 0x13 => onJobAccept s n m
  | 0x18 => onDiscover s n m
  | 0x19 => onEcho s n m
  | 0x1A => onFormed s n m
  | 0x1B => onRoute s n m
  | 0x20 => onHello s n m
  | 0x21 => onKex s n m
  | 0x22 => onEvidence s n m
  | 0x23 => onFin s n m
  | 0x24 => closeLink s n
  | _ => s

/-- Pilot takes the frame at the head of the receive queue: a fragment is kept, the last one ends its message. -/
def takeHead (s : State) (n : Nat) : State :=
  let x := s.link n
  match x.rxq with
  | [] => s
  | (kind, more, body) :: rest =>
    let whole := tget [] x.parts kind.toNat ++ body
    if more then s.setLink n { x with rxq := rest, parts := tset x.parts kind.toNat whole }
    else onMessage (s.setLink n { x with rxq := rest, parts := tdel x.parts kind.toNat }) n kind whole

/-- Running Pilot firmware takes every frame of the queue. -/
def pilotTakes : Nat → State → Nat → State
  | 0, s, _ => s
  | fuel + 1, s, n => if !pilotUp s ∨ (s.link n).rxq.isEmpty then s else pilotTakes fuel (takeHead s n) n

/-- An inbound bundle goes to the channel its STREAM names, or is discarded with NO_CHANNEL (R377). -/
def takeBundle (s : State) (n stream : Nat) (body : Bytes) : State :=
  let x := s.link n
  if stream < x.chCount then
    assertRequest (modFerry (s.setLink n { x with bundles := x.bundles ++ [{ ch := x.chBase + stream, data := body, order := s.ferry.bundleNo }] })
      (fun f => { f with bundleNo := f.bundleNo + 1 })) (lanePeripheral s n)
  else s.setLink n (gwErr x 5 0x03)

/-- A frame whose trailer has verified. -/
def goodFrame (s : State) (n : Nat) (f : GwFrame) (cls : Nat) (body : Bytes) : State :=
  if cls = 0 ∧ (s.link n).link = .attested then closeLink s n
  else if f.kind = 0x01 then takeBundle s n (f.flags.toNat % 8) body
  else if f.kind = 0x10 then s
  else pilotTakes 17 (modLink s n (fun x => { x with rxq := x.rxq ++ [(f.kind, f.flags.getLsbD 4, body)] })) n

/-- The link's state lets a class of frame in: job-class frames while the job state is KEYED (R378); the rest is discarded. -/
def classIn (x : GwLink) (kind : Byte) (cls : Nat) : Bool :=
  match x.link with
  | .opening => cls == 0 || kind == 0x23
  | .attested => cls != 2 || x.job == .keyed
  | _ => false

/-- A frame arrives at the lane of a link: held while the entry is refilled or the queue is full, else checked and taken. -/
def rxFrame (s : State) (n : Nat) (f : GwFrame) : State :=
  let x := s.link n
  if x.link ≠ .opening ∧ x.link ≠ .attested then s
  else if x.refill ∨ !laneServes s (linkLane s n) ∨ 16 ≤ x.rxq.length then s.setLink n { x with heldRx := x.heldRx ++ [f] }
  else
    match kindClass f.kind with
    | none => s.setLink n { gwCount x 5 with err := x.err ||| (1#7 <<< 4) }  -- log entry 158
    | some cls =>
      if !classIn x f.kind cls then s
      else
        let y := moveRx x f cls
        match openFrame y f.kind f cls with
        | .discard => s
        | .tagFail => closeWith (modLink s n (gwCount · 2)) n 1 0x02
        | .ctrFail => closeWith s n 2 0x06
        | .good body =>
          let i := ctrIx cls true
          let z := if cls = 0 then y else { y with ctrs := tset y.ctrs i (ctr y i + 1) }
          goodFrame (s.setLink n (gwCount z 1)) n f cls body

/-- Frames held are taken once they can be. -/
def drainRx (s : State) (n : Nat) : State :=
  (s.link n).heldRx.foldl (fun s f => rxFrame s n f) (modLink s n (fun x => { x with heldRx := [] }))

/-- A frame of a given KIND reaches a lane. -/
def frameAt (lane : Nat) (kind : Byte) (f : GwFrame) (s : State) : Out :=
  whenRunning s (fun s => match laneLink s lane with
    | some n => rxFrame s n { f with kind := kind }
    | none => s)

def execLinkHello (lane : Nat) (f : GwFrame) (s : State) : Out := frameAt lane 0x20 f s
def execLinkKex (lane : Nat) (f : GwFrame) (s : State) : Out := frameAt lane 0x21 f s
def execLinkEvidence (lane : Nat) (f : GwFrame) (s : State) : Out := frameAt lane 0x22 f s
def execLinkFin (lane : Nat) (f : GwFrame) (s : State) : Out := frameAt lane 0x23 f s
def execLinkError (lane : Nat) (f : GwFrame) (s : State) : Out := frameAt lane 0x24 f s
def execKeepalive (lane : Nat) (f : GwFrame) (s : State) : Out := frameAt lane 0x10 f s
def execRekey (lane : Nat) (f : GwFrame) (s : State) : Out := frameAt lane 0x11 f s
def execJobOffer (lane : Nat) (f : GwFrame) (s : State) : Out := frameAt lane 0x12 f s
def execJobAccept (lane : Nat) (f : GwFrame) (s : State) : Out := frameAt lane 0x13 f s
def execDiscover (lane : Nat) (f : GwFrame) (s : State) : Out := frameAt lane 0x18 f s
def execEcho (lane : Nat) (f : GwFrame) (s : State) : Out := frameAt lane 0x19 f s
def execFormed (lane : Nat) (f : GwFrame) (s : State) : Out := frameAt lane 0x1A f s
def execRoute (lane : Nat) (f : GwFrame) (s : State) : Out := frameAt lane 0x1B f s
def execPayload (lane : Nat) (f : GwFrame) (s : State) : Out := frameAt lane 0x01 f s

/-- A frame of a reserved KIND (R374). -/
def execReservedKindFrame (lane : Nat) (f : GwFrame) (s : State) : Out :=
  whenRunning s (fun s => match laneLink s lane with
    | some n => if (kindClass f.kind).isSome then s else rxFrame s n f
    | none => s)

/-! ### The link layer, timers and registers (R378, R381-R383, R387, R388, R405) -/

/-- An effect on the link a lane serves. -/
def atLink (lane : Nat) (f : State → Nat → State) (s : State) : State :=
  match laneLink s lane with
  | some n => f s n
  | none => s
def onLink (lane : Nat) (s : State) (f : State → Nat → State) : Out := whenRunning s (atLink lane f)

def linkTrainedEvent (s : State) (n : Nat) : State :=
  let s1 := modLink s n (fun x => { x with trained := true })
  if (s1.link n).link = .down ∨ (s1.link n).link = .closed then openLink s1 n else s1

def execLinkTrainedEvent (lane : Nat) (s : State) : Out := onLink lane s linkTrainedEvent

/-- LINK_LAYER_DOWN: an ATTESTED link closes (R382). -/
def linkLayerDown (s : State) (n : Nat) : State :=
  let s1 := modLink s n (fun x => { x with trained := false })
  if (s1.link n).link = .attested then closeLink s1 n
  else if pilotUp s ∧ (s1.link n).link = .opening ∧ (s1.link n).sid = [] then batchIfReady s1
  else s1

def execLinkLayerDown (lane : Nat) (s : State) : Out := onLink lane s linkLayerDown

def execLinkHelloTimeout (lane : Nat) (s : State) : Out :=
  onLink lane s (fun s n => if (s.link n).link = .opening ∧ (s.link n).peerHello = [] then closeLink s n else s)

def execLinkReopenTimer (lane : Nat) (s : State) : Out :=
  onLink lane s (fun s n => if (s.link n).link = .closed then openLink s n else s)

/-- The lane withholds link-layer credit (R377, R383, R386). -/
def withholds (x : GwLink) : Bool := !x.bundles.isEmpty || decide (16 ≤ x.rxq.length) || x.refill

/-- LINK_SILENCE_TIMEOUT: the limit does not run while the lane withholds credit. -/
def execLinkSilenceTimeout (lane : Nat) (s : State) : Out :=
  onLink lane s (fun s n =>
    let x := s.link n
    if x.link = .attested ∧ !withholds x then closeLink (s.setLink n { x with err := x.err ||| (1#7 <<< 3) }) n else s)

def execCreditWithholdTimeout (lane : Nat) (s : State) : Out :=
  onLink lane s (fun s n =>
    let x := s.link n
    if x.link = .attested ∧ withholds x then closeLink (s.setLink n { x with err := x.err ||| (1#7 <<< 3) }) n else s)

/-- KEEPALIVE_TIMER: nothing is sent while the entry is refilled (R386). -/
def execKeepaliveTimer (lane : Nat) (s : State) : Out :=
  onLink lane s (fun s n => if (s.link n).link = .attested ∧ !(s.link n).refill then sendMessage s n 0x10 [] else s)

def execEvidenceBatchTimer (s : State) : Out := whenPilot s signBatch

def execJobOfferRetry (lane : Nat) (s : State) : Out :=
  onLink lane s (fun s n => if pilotUp s ∧ (s.link n).offerRetry then startAgreement s n else s)

def execRekeyThreshold (lane : Nat) (job : Bool) (s : State) : Out := onLink lane s (fun s n => rekeyThreshold s n job)

/-- GW_CTL.CLOSE. -/
def execClose (lane : Nat) (s : State) : Out := whenCommanded s (atLink lane closeLink)

/-- GW_CTL.PARK: 1 closes the link and parks the lane. -/
def gwPark (s : State) (lane : Nat) (park : Bool) : State :=
  if 52 ≤ lane then s
  else
    let k := laneRegs s lane
    let t := modLink s k (fun x => { x with park := park })
    let s1 := if park && decide (k < 48) then closeLink t k else t
    if park then parkIsland s1 (154 + lane) else unpark s1 (154 + lane)

def execGwPark (lane : Nat) (park : Bool) (s : State) : Out := whenCommanded s (gwPark · lane park)

/-- The lanes of a group, its spare last, and those a register write reaches. -/
def groupLanes (g : Nat) : List Nat := if g < 4 then (List.range 12).map (12 * g + ·) ++ [48 + g] else []
def targetLanes : GwTarget → List Nat
  | .lane n => if n < 52 then [n] else []
  | .group g => groupLanes g
  | .all => List.range 52

/-- GW_COMMIT.GO with SEQ: the command goes to each lane; through a group block it clears GGRP_ACK. -/
def gwCommitGo (s : State) (t : GwTarget) (seq : BitVec 16) : State :=
  let ls := reachable s ((targetLanes t).map (154 + ·))
  let s1 := sendCmd s ls (.commit seq)
  match t with
  | .group g => s1.setGgroup g { s1.ggroup g with ack := 0, ackSeq := seq, waiting := ls }
  | _ => s1

def execGwCommitGo (t : GwTarget) (seq : BitVec 16) (s : State) : Out := whenCommanded s (gwCommitGo · t seq)

/-- The state of a link carries a class of frame outward. -/
def classOut (x : GwLink) (kind : Byte) (cls : Nat) : Bool :=
  match x.link with
  | .opening => cls == 0 || kind == 0x23
  | .attested => cls == 1
  | _ => false

/-- LEN of a control frame: 1 to 1,024, or 0 of a KEEPALIVE, whose body is empty (R373, R374). -/
def cfLenOk (x : GwLink) : Bool := decide (x.cfLen.toNat ≤ 1024) && (x.cfLen != 0 || x.cfKind == 0x10)

/-- GW_CF_CTL.SEND: a KIND that may not be sent is refused with cause 0x04, a lane not in service with 0x05; a frame that the
link's state does not carry, or whose LEN no frame has, is not sent (log entry 95). -/
def gwCfSend (s : State) (lane : Nat) : State :=
  if 52 ≤ lane then s
  else
    let n := laneRegs s lane
    let x := s.link n
    match (kindClass x.cfKind).filter (· != 2) with
    | none => s.setLink n (gwErr (gwCount x 4) 0 0x04)
    | some cls =>
      if !laneUp s (154 + lane) then s.setLink n (gwErr (gwCount x 4) 0 0x05)
      else if classOut x x.cfKind cls ∧ cfLenOk x then
        sendFrame s n { kind := x.cfKind, stream := 0, more := x.cfMore, body := mread 0 x.cfTx 0 x.cfLen.toNat }
      else s

def execGwCfSend (lane : Nat) (s : State) : Out := whenCommanded s (gwCfSend · lane)

/-- GW_CF_CTL.RX_READY written 1: the head of the queue is freed, taken by Pilot if it runs, and room is there again. -/
def gwCfRxFree (s : State) (n : Nat) : State :=
  let s1 := if pilotUp s then takeHead s n else modLink s n (fun x => { x with rxq := x.rxq.drop 1 })
  drainRx s1 n

def execGwCfRxFree (lane : Nat) (s : State) : Out := whenCommanded s (atLink lane gwCfRxFree)

end Sys2Proof.Machine
end

