-- ==== Sys2Proof/Machine/Lanes.lean ====
section
/-! DEFINITION. What reaches a lane or array at a line boundary (01): Pilot's commands, the vault's fills and invalidations,
and the acknowledgements; Darn and spot tests (10, 11, 12). -/

namespace Sys2Proof.Machine

/-! ### Commands of Pilot (R28, R42, R343, R387) -/

/-- A Gangway lane acknowledges a COMMIT, for the lane it covers too; its group's bit sets if it is the block's last. -/
def gwAck (s : State) (lane : Nat) (seq : BitVec 16) : State :=
  let g := if lane < 48 then lane / 12 else lane - 48
  let x := s.ggroup g
  let who := ((154 + lane) :: (homeOf s (154 + lane)).toList).eraseDups
  let bit (k : Nat) : BitVec 13 := 1#13 <<< (if k < 202 then (k - 154) - 12 * g else 12)
  let s1 := if seq = x.ackSeq then
      s.setGgroup g { x with ack := (who.filter (x.waiting.contains ·)).foldl (fun v k => v ||| bit k) x.ack
                             waiting := x.waiting.filter (fun k => !who.contains k) }
    else s
  { s1 with lanes := { s1.lanes with acks := s1.lanes.acks ++ who.map (fun k => (k, seq)) } }

/-- The staged GW_JOB and GW_JOB_RUN of a link take effect, once for each sequence number (R134). -/
def gwApply (x : GwLink) (seq : BitVec 16) : GwLink :=
  if x.lastSeq = some seq then x
  else { x with jobBerth := if x.stagedValid then some x.stagedBerth.toNat else none, chCount := x.stagedCount.toNat
                chBase := x.stagedBase.toNat, lastSeq := some seq }

/-- A COMMIT taken by an island. -/
def takeCommit (s : State) (ix : Nat) (seq : BitVec 16) : State :=
  if ix < 154 then pierCommit s ix seq
  else if ix < 206 then
    gwAck (match homeOf s ix with
      | some h => modLink s (h - 154) (gwApply · seq)
      | none => s) (ix - 154) seq
  else { s with lanes := { s.lanes with acks := s.lanes.acks ++ [(ix, seq)] } }

/-- The oldest command waiting at an island is taken. -/
def takeCmd (s : State) (ix : Nat) : State :=
  match tget [] s.lanes.cmds ix with
  | [] => s
  | .commit seq :: rest => takeCommit { s with lanes := { s.lanes with cmds := tset s.lanes.cmds ix rest } } ix seq

/-- LANE_COMMAND_ACCEPT (R42): at a line boundary, one command of Pilot. A lane under test takes none while a spare covers it: the
spare acknowledges for it, and what waits is applied before its traffic returns (R31, R366). -/
def execLaneCommandAccept (isl : Island) (s : State) : Out :=
  whenRunning s (fun s =>
    let ix := islandIx isl
    if holdsKeys s ix && !((tget islandInit s.isl ix).service == .spotTest && servedBy s ix != ix) then takeCmd s ix else s)

/-! ### Fills and invalidations (R42, R228, R346, R386) -/

/-- A fill at the lane of a link: the lane holds the key fields, an agreement with both berths' keys becomes KEYED with its
counters at 0, and what was held goes on. -/
def laneFill (s : State) (n : Nat) (c : Option KeyFill) : State :=
  let x := s.link n
  match c with
  | none => s
  | some k =>
    if x.link ≠ .opening ∧ x.link ≠ .attested then s
    else
      let m := k.link.take 192
      let g := leAt k.link 196 4
      let y : GwLink := { x with key := some m, genKey := leAt k.link 192 4, genLink := g, refill := false
                                 maintOld := if x.genLinkTx = g ∧ x.genLinkRx = g then none else x.maintOld }
      let keyed := x.job == .agreeing && !x.jobId.isEmpty && !allZero (slice m 64 128)
      let z : GwLink := if keyed then
          { y with job := .keyed, genTx := 0, genRx := 0, ctrs := [0, 1, 4, 5].foldl (fun t i => tset t i 0) y.ctrs }
        else y
      drainRx (flushTx (s.setLink n z) n) n

/-- A fill reaches an island. -/
def takeFill (s : State) (ix entry : Nat) (c : Option KeyFill) : State :=
  if ix < 154 then pierFill s ix entry c
  else if ix < 206 then
    (match homeOf s ix with
      | some h => if entry = linkEntry (16 + (h - 154)) then laneFill s (h - 154) c else s
      | none => s)
  else if ix = 206 then samplerFill s entry c
  else if ix = 222 then ferryFillArrive s entry c
  else s

/-- A link's lane drops its entry and asks for it again; the maintenance keys stay for a direction that has not moved yet
(log entry 31). -/
def laneInvalidate (s : State) (lane n : Nat) : State :=
  let x := s.link n
  if x.link ≠ .opening ∧ x.link ≠ .attested then s
  else
    let old : Option Bytes := match x.maintOld with
      | some m => some m
      | none => x.key.map (·.take 64)
    vaultMiss (s.setLink n { x with key := none, refill := true, maintOld := old }) (.gangway lane) (linkEntry (16 + n))

/-- An invalidation reaches an island: the entry is dropped, and acknowledged for `who`, the island it was sent to. -/
def takeInvalidation (s : State) (ix who : Nat) (which : Nat → Bool) : State :=
  let s1 := if ix < 154 then pierInvalidate s ix which
    else if ix < 206 then
      (match homeOf s ix with
        | some h => if which (linkEntry (16 + (h - 154))) then laneInvalidate s (ix - 154) (h - 154) else s
        | none => s)
    else if ix = 206 then samplerInvalidate s which
    else if ix = 222 then ferryInvalidate s which
    else s
  { s1 with vault := { s1.vault with acks := s1.vault.acks ++ [who] } }

/-- A message of the vault to the island `who`, taken by `ix`: itself, or the one that has its state now. -/
def takeLaneMsg (s : State) (ix who : Nat) (m : LaneMsg) : State :=
  match m with
  | .fill e c => takeFill s ix e c
  | .invalidate e _ => takeInvalidation s ix who (· == e)
  | .invalidateAll es => takeInvalidation s ix who (fun e => es.any (fun x => x.1 == e))

/-- The head of an island's vault channel, and the state without it. -/
def channelHead (s : State) (ix : Nat) : Option (LaneMsg × State) :=
  match tget [] s.vault.channels ix with
  | [] => none
  | m :: rest => some (m, { s with vault := { s.vault with channels := tset s.vault.channels ix rest } })

def isFill : LaneMsg → Bool
  | .fill _ _ => true
  | _ => false

/-- KEY_FILL_ARRIVE: Pilot's commands are taken first (R42). -/
def execKeyFillArrive (isl : Island) (s : State) : Out :=
  whenRunning s (fun s =>
    match channelHead s (islandIx isl) with
    | some (m, t) => if isFill m ∧ cacheUp s (islandIx isl) ∧ (tget [] s.lanes.cmds (islandIx isl)).isEmpty then takeLaneMsg t (islandIx isl) (islandIx isl) m else s
    | none => s)

/-- INVALIDATION: taken at the head of the vault's channel whether or not Pilot commands wait. R42 gives an invalidation no place
in its order (DESIGN CHOICE, log entry 144). -/
def execInvalidation (isl : Island) (s : State) : Out :=
  whenRunning s (fun s =>
    match channelHead s (islandIx isl) with
    | some (m, t) => if !isFill m ∧ cacheUp s (islandIx isl) then takeLaneMsg t (islandIx isl) (islandIx isl) m else s
    | none => s)

/-! ### Broadcasts (R28) -/

/-- BROADCAST: the broadcast that a gate or a commit has come to, if it does not run. -/
def execBroadcast (k : BroadcastKind) (s : State) : Out :=
  whenPilot s (fun s =>
    let due : Bool := match k with
      | .gate b => (s.berth b).state == .rinsing && (s.berth b).step == 0
      | .tables b => (s.berth b).commit == some .broadcast
    if due && !bcastRuns s k then broadcast s k else s)

/-- An acknowledgement counts for every broadcast of its sequence number; one that it completes is done. -/
def ackBroadcasts (s : State) (ix : Nat) (seq : BitVec 16) : State :=
  let cut := s.lanes.bcasts.map (fun x => if x.seq = seq then { x with waiting := x.waiting.filter (· != ix) } else x)
  let done := cut.filter (fun x => x.seq == seq && x.waiting.isEmpty)
  done.foldl (fun s x => broadcastDone s x.kind)
    { s with lanes := { s.lanes with bcasts := cut.filter (fun x => !(x.seq == seq && x.waiting.isEmpty)) } }

/-- BROADCAST_ACK: an island's oldest acknowledgement reaches Pilot. A lane that has its GW_JOB begins the agreement (R387). -/
def broadcastAck (s : State) (ix : Nat) : State :=
  match s.lanes.acks.find? (fun a => a.1 == ix) with
  | none => s
  | some (_, seq) =>
    let s1 := ackBroadcasts { s with lanes := { s.lanes with acks := s.lanes.acks.erase (ix, seq) } } ix seq
    if 154 ≤ ix ∧ ix < 206 then
      match homeOf s1 ix with
      | some h => beginAgreement s1 (h - 154)
      | none => s1
    else s1

def execBroadcastAck (isl : Island) (s : State) : Out := whenPilot s (broadcastAck · (islandIx isl))

/-! ### Groups (R33, R366, R371, R407, R455) -/

/-- The lanes of a group of spot tests, spares last, by island number. -/
def testOrder : TestGroup → List Nat
  | .piers g => if g < 8 then (List.range 17).map (17 * g + ·) else if g = 8 then (List.range 18).map (136 + ·) else []
  | .gangway g => if g < 4 then (List.range 12).map (154 + 12 * g + ·) ++ [202 + g] else []
  | .press => (List.range 16).map (206 + ·)

/-- The group of a lane. -/
def groupOf (ix : Nat) : TestGroup :=
  if ix < 136 then .piers (ix / 17)
  else if ix < 154 then .piers 8
  else if ix < 202 then .gangway ((ix - 154) / 12)
  else if ix < 206 then .gangway (ix - 202)
  else .press

/-- What a group's block holds of Darns and spot tests. -/
structure GroupSt where
  hold : Bool
  period : Byte
  darns : Nat
  darnSpare : Byte
  darnLane : Byte
  noSpare : Bool
  test : Option (Nat × Option Nat)
  next : Nat
  deriving DecidableEq, Repr

def getGroup (s : State) : TestGroup → GroupSt
  | .piers g =>
    let x := s.pgroup g
    { hold := x.hold, period := x.period, darns := x.darns, darnSpare := x.darnSpare, darnLane := x.darnLane, noSpare := x.noSpare, test := x.test, next := x.next }
  | .gangway g =>
    let x := s.ggroup g
    { hold := x.hold, period := x.period, darns := x.darns, darnSpare := x.darnSpare, darnLane := x.darnLane, noSpare := x.noSpare, test := x.test, next := x.next }
  | .press =>
    { hold := s.press.hold, period := s.press.period, darns := 0, darnSpare := 0xFF, darnLane := 0xFF, noSpare := false,
      test := s.press.test.map (fun n => (206 + n, none)), next := s.press.next }

def putGroup (s : State) (g : TestGroup) (y : GroupSt) : State :=
  match g with
  | .piers k => s.setPgroup k { s.pgroup k with darns := y.darns, darnSpare := y.darnSpare, darnLane := y.darnLane, noSpare := y.noSpare, test := y.test, next := y.next }
  | .gangway k => s.setGgroup k { s.ggroup k with darns := y.darns, darnSpare := y.darnSpare, darnLane := y.darnLane, noSpare := y.noSpare, test := y.test, next := y.next }
  | .press => modPress s (fun p => { p with test := y.test.map (fun t => t.1 - 206), next := y.next })

def modGroup (s : State) (g : TestGroup) (f : GroupSt → GroupSt) : State := putGroup s g (f (getGroup s g))

/-! ### Moving a lane's state (R362, R395) -/

/-- Misses that wait at the vault for a lane wait for another. -/
def moveMisses (s : State) (from_ target : Nat) : State :=
  let ren (l : List Nat) : List Nat := l.map (fun i => if i = from_ then target else i)
  { s with vault := { s.vault with ports := s.vault.ports.map (fun p => (p.1, p.2.map (fun e => (e.1, ren e.2)))) } }

/-- The state R362 lists, from one Pier to another, with the COMMITs whose lines move; tables and registers stay. -/
def pierMove (a b : PierSt) : PierSt :=
  { b with keys := a.keys, missQ := a.missQ, outs := a.outs, held := a.held, capture := a.capture, ranges := a.ranges, coverage := a.coverage
           capBuf := a.capBuf, cursors := a.cursors, scrub := a.scrub, metaCache := a.metaCache, ready := a.ready, fill := a.fill
           sweep := a.sweep, sweepDone := a.sweepDone, sweepDue := a.sweepDue, sweepBerth := a.sweepBerth, zero := a.zero
           drain := b.drain ++ a.drain }

/-- A Pier without that state. -/
def pierEmptied (a : PierSt) : PierSt := pierMove pierInit { a with drain := [] }

/-- A COMMIT that Darn held is applied to the lane that has the state now: one that lane had applied already only waits for the
lines that moved (R31, R343, R344). -/
def heldCommit (s : State) (home target : Nat) (seq : BitVec 16) : State :=
  let own := tget [] s.lanes.cmds target
  let s1 := { s with lanes := { s.lanes with cmds := tset s.lanes.cmds target (own.filter (fun c => c != .commit seq)) } }
  if 154 ≤ home then takeCommit s1 target seq
  else
    let x := s1.pier target
    let applied := x.seqSeen && !own.contains (.commit seq) && decide ((x.lastSeq - seq).toNat < 32768)
    s1.setPier target (if applied then drainFrom x seq else applyStaged x target seq)

/-- The commands held for a lane are applied, in order, before its traffic goes on (R31). -/
def applyHeld (s : State) (home from_ target : Nat) : State :=
  let held := tget [] s.lanes.cmds from_
  held.foldl (fun s c => match c with
    | .commit seq => heldCommit s home target seq) { s with lanes := { s.lanes with cmds := tset s.lanes.cmds from_ [] } }

/-- What the vault had sent to a lane is taken by the lane that has its state now (R42). -/
def moveMessages (s : State) (from_ target : Nat) : State :=
  let msgs := tget [] s.vault.channels from_
  msgs.foldl (fun s m => takeLaneMsg s target from_ m) { s with vault := { s.vault with channels := tset s.vault.channels from_ [] } }

/-- A lane's state moved to another lane of its group, which takes over its channel, port or link under the cover given: the
state first, then the commands held, which are those of lane `waits`, then the vault's messages (R31, R42, R362). A link's state is
the link's: the multiplexers alone move it. -/
def moveLane (s : State) (home from_ target waits : Nat) (cover : Tbl Nat) : State :=
  let s1 := moveMisses { s with cover := cover } from_ target
  let s2 := if from_ < 154 then
      (s1.setPier target (pierMove (s1.pier from_) (s1.pier target))).setPier from_
        (let e := pierEmptied (s1.pier from_); if isSpare from_ then { e with drain := (s1.pier from_).drain } else e)
    else s1
  moveMessages (applyHeld s2 home waits target) from_ target

/-- After a hand-off the lane that serves takes what was held. -/
def resumeLane (s : State) (home : Nat) : State :=
  if 154 ≤ home ∧ home < 202 then drainRx (flushTx s (home - 154)) (home - 154) else s

/-! ### Out of service (R34, R364) -/

/-- What a lane held of captures and cursors is reported lost: a range that still lacks a line, or has lines that have not reached
the Basket, and every cursor (R27, R359, R364). -/
def reportLost (s : State) (ix : Nat) : State :=
  let x := s.pier ix
  let tiles := (x.ranges.filter (fun r => !r.2.done || rangeBuffered x r.2)).map (fun r => tileOf r.2)
  let bad := x.cursors.map (fun c => (c.2.berth, c.2.point, (0x03 : Byte)))
  { s.setPier ix { pierEmptied x with err := if tiles.isEmpty then x.err else x.err ||| (1#7 <<< 5) } with
    reports := { s.reports with lost := s.reports.lost ++ tiles, pairBad := s.reports.pairBad ++ bad } }

/-- A lane that serves a home is lost, and with it the channel, port or link. -/
def laneLost (s : State) (ix home : Nat) : State :=
  let s1 := if ix < 154 then reportLost s ix else closeLink s (home - 154)
  homeLost (outOfService { s1 with cover := tdel s1.cover ix } ix) home

/-! ### Spot tests (R366-R368, R397, R446) -/

/-- Some broadcast or COMMIT awaits acknowledgement in the group. -/
def groupWaits (s : State) (g : TestGroup) : Bool :=
  let l := testOrder g
  s.lanes.bcasts.any (fun x => x.waiting.any l.contains) ||
    (match g with
      | .piers k => (s.pgroup k).waiting.any (holdsKeys s)
      | .gangway k => (s.ggroup k).waiting.any (holdsKeys s)
      | .press => false)

/-- The next instance to test: the first from the group's place that is in service. -/
def nextTest (s : State) (g : TestGroup) : Option (Nat × Nat) :=
  let l := testOrder g
  let n := l.length
  ((List.range n).map (fun k => ((getGroup s g).next + k) % n)).find? (fun i =>
    let ix := l.getD i 0
    if isSpare ix then spareFree s ix && laneUp s ix else laneUp s ix) |>.map (fun i => (i, l.getD i 0))

/-- An island in spot test, or back in service. -/
def setService (s : State) (ix : Nat) (v : Service) : State := s.setIsland (islandAt ix) { tget islandInit s.isl ix with service := v }

/-- A test of an array: it is taken when it is idle and the queue is not saturated. -/
def pressTestStart (s : State) : State :=
  let y := getGroup s .press
  if y.period = 0 ∨ y.hold ∨ y.test.isSome ∨ groupWaits s .press ∨ saturated s then s
  else
    match nextTest s .press with
    | none => s
    | some (i, ix) =>
      if (s.array (ix - 206)).run.isSome then s
      else markSaturated (setService (modGroup s .press (fun y => { y with test := some (ix, none), next := (i + 1) % 16 })) ix .spotTest)

/-- SPOT_TEST_START: a lane hands its state to the idle spare; a spare is tested in place. -/
def spotTestStart (s : State) (g : TestGroup) : State :=
  let y := getGroup s g
  let l := testOrder g
  if g = .press then pressTestStart s
  else if y.period = 0 ∨ y.hold ∨ y.test.isSome ∨ groupWaits s g ∨ s.cover.any (fun c => l.contains c.1) then s
  else
    match nextTest s g with
    | none => s
    | some (i, ix) =>
      let step (s : State) (sp : Option Nat) : State := modGroup s g (fun y => { y with test := some (ix, sp), next := (i + 1) % l.length })
      if isSpare ix then setService (step s none) ix .spotTest
      else
        match (sparesOf ix).find? (fun sp => spareFree s sp && laneUp s sp) with
        | none => s
        | some sp =>
          resumeLane (setService (step (moveLane s ix ix sp ix (tset s.cover sp ix)) (some sp)) ix .spotTest) ix

def execSpotTestStart (g : TestGroup) (s : State) : Out := whenPress s (spotTestStart · g)

/-- A Darn noted in its group's block, with its alarm (R361, R371). -/
def darnNote (s : State) (lane spare : Nat) : State :=
  let inst (ix : Nat) : Nat := instOf (islandAt ix)
  alarm (modGroup s (groupOf lane) (fun y => { y with darns := y.darns + 1, darnSpare := BitVec.ofNat 8 (inst spare)
                                                      darnLane := BitVec.ofNat 8 (inst lane) }))
    (islandAt lane) 0x0200 (BitVec.ofNat 32 (inst lane)) (BitVec.ofNat 32 (inst spare))

/-- The state goes back to the lane that was under test. -/
def testReturn (s : State) (g : TestGroup) (ix sp : Nat) : State :=
  let s1 := moveLane (setService s ix .inService) ix sp ix ix (tdel s.cover sp)
  resumeLane (modGroup s1 g (fun y => { y with test := none })) ix

/-- SPOT_TEST_END: a lane that passed takes its channel back; one that failed stays failed with the spare covering it. -/
def spotTestEnd (s : State) (g : TestGroup) (pass : Bool) : State :=
  match (getGroup s g).test with
  | none => s
  | some (ix, sp) =>
    let fail (s : State) : State := alarm s (islandAt ix) 0x0201 (BitVec.ofNat 32 (instOf (islandAt ix))) 0
    let ended (s : State) : State := modGroup s g (fun y => { y with test := none })
    match pass, sp with
    | true, some p => testReturn s g ix p
    | true, none => setService (ended s) ix .inService
    | false, some p => darnNote (fail (s.setIsland (islandAt ix) { tget islandInit s.isl ix with service := .failed, parked := true } |> ended)) ix p
    | false, none =>
      if g = .press then arrayLost (fail (modArray (ended s) (ix - 206) (fun x => { x with err := x.err ||| 4#3 }))) (ix - 206)
      else outOfService (fail (ended s)) ix

def execSpotTestEnd (g : TestGroup) (pass : Bool) (s : State) : Out := whenPress s (spotTestEnd · g pass)

/-- A test that a Darn cuts short counts as neither passed nor failed (R367, R368). -/
def testAbort (s : State) (g : TestGroup) : State :=
  match (getGroup s g).test with
  | some (ix, some sp) => testReturn s g ix sp
  | some (ix, none) => setService (modGroup s g (fun y => { y with test := none })) ix .inService
  | none => s

/-! ### Darn (R361-R368, R395) -/

/-- The spare a Darn takes: an idle one, the lower-numbered first; else one under its own test, or covering a test, which is
aborted (R361, R367, R368). -/
def darnSpareFor (s : State) (ix : Nat) : State × Option Nat :=
  match (sparesOf ix).find? (fun sp => sp != ix && spareFree s sp) with
  | some sp => (s, some sp)
  | none =>
    match (getGroup s (groupOf ix)).test with
    | some (t, none) => if t ≠ ix ∧ (sparesOf ix).contains t then (testAbort s (groupOf ix), some t) else (s, none)
    | some (_, some sp) => if sp ≠ ix then (testAbort s (groupOf ix), some sp) else (s, none)
    | none => (s, none)

/-- Broadcasts that wait for a spare wait for the lane that takes its state: that one acknowledges once the lines that moved have
completed (R31, R343). -/
def ackThrough (s : State) (from_ target : Nat) : State :=
  let ren (l : List Nat) : List Nat := (l.map (fun i => if i = from_ then target else i)).eraseDups
  { s with lanes := { s.lanes with bcasts := s.lanes.bcasts.map (fun x => { x with waiting := ren x.waiting }) } }

/-- A lane faults that serves a home, its own or as a spare: the group's next spare takes its state, or the channel, port or link is
lost (R34, R361, R364, R365). -/
def darnLane (s : State) (ix home : Nat) (readable spareOk : Bool) : State :=
  match darnSpareFor s ix with
  | (s1, none) => laneLost (modGroup s1 (groupOf ix) (fun y => { y with noSpare := true })) ix home
  | (s1, some sp) =>
    if !readable then laneLost s1 ix home
    else if !spareOk then laneLost (outOfService s1 sp) ix home
    else
      let s2 := moveLane (if ix = home then s1 else ackThrough s1 ix sp) home ix sp ix (tset (tdel s1.cover ix) sp home)
      let s3 := s2.setIsland (islandAt ix) { tget islandInit s2.isl ix with service := .failed, parked := true }
      resumeLane (darnNote s3 ix sp) home

/-- The spare that covers a spot test faults: the lane under test takes its place, a Darn like any other (R367); with its state
unreadable the channel, port or link is lost with both lanes (R364). -/
def darnOfCover (s : State) (g : TestGroup) (t sp : Nat) (readable : Bool) : State :=
  if readable then outOfService (darnNote (testReturn s g t sp) sp t) sp
  else laneLost (outOfService (modGroup s g (fun y => { y with test := none })) t) sp t

/-- A spare faults: under its own test, while it covers a test, while it covers a failed lane, which another idle spare then takes
(DEDUCED, log entry 157), or idle. -/
def darnOfSpare (s : State) (ix : Nat) (readable spareOk : Bool) : State :=
  let g := groupOf ix
  match (getGroup s g).test, tfind s.cover ix with
  | some (t, some sp), some h => if sp = ix then darnOfCover s g t ix readable else darnLane s ix h readable spareOk
  | _, some h => darnLane s ix h readable spareOk
  | some (t, none), none => if t = ix then spotTestEnd s g false else outOfService s ix
  | _, none => outOfService s ix

/-- A fault of a Pier or Gangway lane. One under spot test has failed its test. -/
def darnAt (s : State) (ix : Nat) (cause : DarnCause) (readable spareOk : Bool) : State :=
  let x := tget islandInit s.isl ix
  if 206 ≤ ix ∨ x.service = .failed ∨ x.test ≠ .passed ∨ !s.power.domUp.getLsbD (domainOf (islandAt ix)) then s
  else
    let s1 := if cause = .pllLoss then s.setIsland (islandAt ix) { x with pll := false } else s
    match isSpare ix, (getGroup s1 (groupOf ix)).test with
    | true, _ => darnOfSpare s1 ix readable spareOk
    | false, some (t, _) => if t = ix then spotTestEnd s1 (groupOf ix) false else darnLane s1 ix ix readable spareOk
    | false, none => darnLane s1 ix ix readable spareOk

/-- DARN: STATE_READABLE says whether every word of the lane's state could be read, SPARE_OK whether the spare passed its
known-answer pass. -/
def execDarn (isl : Island) (cause : DarnCause) (stateReadable spareOk : Bool) (s : State) : Out :=
  whenPress s (fun s => darnAt s (islandIx isl) cause stateReadable spareOk)

/-- BROADCAST_ACK_TIMEOUT (R361): a lane that has not acknowledged a broadcast starts a Darn, here one whose state can be read and
whose spare is good. -/
def execBroadcastAckTimeout (isl : Island) (s : State) : Out :=
  whenPress s (fun s =>
    if s.lanes.bcasts.any (fun x => x.waiting.contains (islandIx isl)) then darnAt s (islandIx isl) .noAck true true else s)

end Sys2Proof.Machine
end

