-- ==== Sys2Proof/Machine/Power.lean ====
section
/-! DEFINITION. The switched power domains (01) and the end of startup (03): requests to switch a domain on or off, what a
domain loses, its islands' return, and the package becoming ready for berths. -/

namespace Sys2Proof.Machine

/-- The islands of a domain among the 232 of R106, by number. -/
def domainIslands (pd : Nat) : List Nat := (List.range 232).filter (fun ix => domainOf (islandAt ix) == pd)

/-- A domain never switched off (R43). -/
def alwaysOn (pd : Nat) : Bool := pd == 0 || pd == 1 || pd == 19

/-- Windows that a berth holds, those of a commit in progress among them (log entry 50). -/
def domainWindows (y : Berth) (tier2 : Bool) : List Window :=
  if tier2 then windowsOf y.t2 ++ (if y.commit.isSome then windowsOf y.t2Staged else [])
  else windowsOf y.t1 ++ (if y.commit.isSome then windowsOf y.t1Staged else [])

/-- The Basket slice of a stack holds nothing: no captured area, no ledger record, and for stack 0 no image for Boarding. -/
def basketEmpty (s : State) (k : Nat) : Bool :=
  (usedAreas s k).isEmpty &&
    s.press.berths.all (fun x => x.1 % 8 != k || (x.2.ledger.isEmpty && x.2.outbox.isEmpty && !x.2.ringHeld)) &&
    (k != 0 || s.board.slot.isNone)

/-- R43: the domain may be switched off. -/
def offAllowed (s : State) (pd : Nat) : Bool :=
  if alwaysOn pd then false
  else if pd < 10 then s.berths.all (fun x => (domainWindows x.2 false).all (fun w => w.unit != pd - 2)) && basketEmpty s (pd - 2)
  else if pd = 10 then s.berths.all (fun x => (domainWindows x.2 true).isEmpty)
  else if pd < 15 then
    (List.range 12).all (fun k => (s.link (12 * (pd - 11) + k)).job != .keyed && (s.link (12 * (pd - 11) + k)).job != .held)
  else (List.range 4).any (fun g => 15 + g != pd && s.power.domOn.getLsbD (15 + g))

/-- A request that R43 forbids (R47, R49). -/
def refuseDomain (s : State) (pd : Nat) : State :=
  { s with power := { s.power with refused := true, lastDom := BitVec.ofNat 5 pd } }

/-- What an island loses with its power: its tables, caches and buffers, its link's state, or its running tile. -/
def islandDark (s : State) (ix : Nat) : State :=
  let s1 := { retire s ix with cover := tdel (retire s ix).cover ix }
  let s2 := s1.setIsland (islandAt ix) islandInit
  if ix < 154 then s2.setPier ix pierInit else s2

/-- The block of a group whose domain goes off: its count of Darns and its test end. -/
def groupDark (s : State) (pd : Nat) : State :=
  if 2 ≤ pd ∧ pd ≤ 10 then
    s.setPgroup (pd - 2) { s.pgroup (pd - 2) with darns := 0, darnSpare := 0xFF, darnLane := 0xFF, noSpare := false, test := none, waiting := [] }
  else if 11 ≤ pd ∧ pd < 15 then
    s.setGgroup (pd - 11) { s.ggroup (pd - 11) with darns := 0, darnSpare := 0xFF, darnLane := 0xFF, noSpare := false, test := none, waiting := [] }
  else
    match s.press.test with
    | some n => if 15 + n / 4 = pd then modPress s (fun p => { p with test := none }) else s
    | none => s

/-- The links of a group close, and stay closed (R43). -/
def closeGroup (s : State) (g : Nat) : State :=
  (List.range 12).foldl (fun s k => modLink (closeLink s (12 * g + k)) (12 * g + k) (fun x => { x with link := .closed })) s

/-- The tiles of a Press group's arrays move to the remaining groups. -/
def requeueGroup (s : State) (g : Nat) : State :=
  (List.range 4).foldl (fun s k =>
    modFerry (requeue s (4 * g + k)) (fun f => { f with requests := f.requests.filter (· != .press (4 * g + k)) })) s

/-- The domain switches off. -/
def domainOff (s : State) (pd : Nat) : State :=
  let s1 := if 11 ≤ pd ∧ pd < 15 then closeGroup s (pd - 11) else if 15 ≤ pd then requeueGroup s (pd - 15) else s
  let s2 := groupDark s1 pd
  let p := s2.power
  let s3 := { s2 with power := { p with domOn := p.domOn &&& ~~~(1#20 <<< pd), domUp := p.domUp &&& ~~~(1#20 <<< pd), switching := p.switching &&& ~~~(1#20 <<< pd) } }
  let s4 := (domainIslands pd).foldl islandDark s3
  if 15 ≤ pd then markSaturated (checkCommit s4) else s4

/-- PWR_DOMAIN_OFF (R43, R47): refused where R43 forbids, or the domain goes dark. -/
def execPwrDomainOff (pd : Nat) (s : State) : Out :=
  whenPressCommanded s (fun s =>
    if 20 ≤ pd then s
    else if alwaysOn pd then refuseDomain s pd
    else if !s.power.domOn.getLsbD pd then s
    else if offAllowed s pd then domainOff s pd
    else refuseDomain s pd)

/-- The state of a domain's lanes at power-up: counts and errors at zero; a link stays closed until it is opened again. -/
def domainFresh (s : State) (pd : Nat) : State :=
  if 11 ≤ pd ∧ pd < 15 then
    (List.range 12).foldl (fun s k => modLink s (12 * (pd - 11) + k) (fun x =>
      { gwInit with trained := x.trained, dead := x.dead, link := x.link })) s
  else if 15 ≤ pd ∧ pd < 19 then (List.range 4).foldl (fun s k => modArray s (4 * (pd - 15) + k) (fun x => { arrayInit with noFeed := x.noFeed })) s
  else s

/-- A stack or port that memory training did not name stays out of service (R97). -/
def untrained (s : State) (ix : Nat) : Bool :=
  s.pilot.memTrained && !isSpare ix &&
    (if ix < 136 then !s.pilot.stackMap.getLsbD (ix / 17) else if ix < 152 then !s.pilot.ports.getLsbD (ix - 136) else false)

/-- PWR_DOMAIN_ON (R45, R47, R112): the islands come back untested and parked, without microcode. -/
def domainOn (s : State) (pd : Nat) : State :=
  let p := s.power
  let s1 := { s with power := { p with domOn := p.domOn ||| (1#20 <<< pd), switching := p.switching ||| (1#20 <<< pd) } }
  domainFresh ((domainIslands pd).foldl (fun s ix => s.setIsland (islandAt ix)
    { islandInit with pll := true, strap := true, service := if untrained s ix then .failed else .inService }) s1) pd

def execPwrDomainOn (pd : Nat) (s : State) : Out :=
  whenCommanded s (fun s => if 20 ≤ pd ∨ s.power.domOn.getLsbD pd then s else domainOn s pd)

/-- The islands of a domain have reported, and those that passed hold their microcode, if they are of a kind that has any. -/
def domainReady (s : State) (pd : Nat) : Bool :=
  (pd != 0 || s.pilot.coreTest == .passed) && (pd != 1 || s.pilot.vaultTest == .passed) &&
    (domainIslands pd).all (fun ix =>
      let x := tget islandInit s.isl ix
      x.service == .failed || x.test == .failed || (x.test == .passed && (x.ucOk || decide (230 ≤ ix))))

/-- The tables of the berths staged again on a domain's Piers and committed to its lanes. -/
def restage (s : State) (pd : Nat) : State :=
  let ps := reachable s ((domainIslands pd).filter (· < 154))
  let target := reachable s ((domainIslands pd).filter (· < 222))
  let one (s : State) (x : Nat × Berth) : State :=
    if x.2.state = .free then s
    else ps.foldl (fun s n => modPier s n (fun p => stageBerth p n x.1 (windowsOf x.2.t1) (windowsOf x.2.t2)
      (if x.2.state = .rinsing then [] else berthCodes x.2))) s
  let s1 := s.berths.foldl one s
  let seq := s1.lanes.seq
  if target.isEmpty then s1
  else
    let s2 := sendCmd { s1 with lanes := { s1.lanes with seq := seq + 1 } } target (.commit seq)
    { s2 with lanes := { s2.lanes with bcasts := s2.lanes.bcasts ++ [{ kind := none, seq := seq, waiting := target }] } }

/-- A lane or array leaves its park unless its PARK bit holds it. -/
def releasePark (s : State) (ix : Nat) : State :=
  let x := tget islandInit s.isl ix
  let held : Bool := if ix < 154 then (s.pier ix).park
    else if ix < 206 then (s.link (laneRegs s (ix - 154))).park
    else if ix < 222 then (s.array (ix - 206)).park else false
  if x.service = .failed ∨ held then s
  else if 230 ≤ ix then s.setIsland (islandAt ix) { x with parked := false }
  else unpark s ix

/-- DOMAIN_POWER_UP_DONE (R48, R112): an island that failed its test is treated under R109; DOM_UP sets, and the lanes unpark. -/
def domainDone (s : State) (pd : Nat) : State :=
  if 20 ≤ pd ∨ !s.power.switching.getLsbD pd ∨ !s.power.domOn.getLsbD pd ∨ !domainReady s pd then s
  else
    let late := (domainIslands pd).filter (fun ix => (tget islandInit s.isl ix).test == .failed && (tget islandInit s.isl ix).service == .inService)
    let s1 := late.foldl failTested s
    let p := s1.power
    let s2 := { s1 with power := { p with domUp := p.domUp ||| (1#20 <<< pd), switching := p.switching &&& ~~~(1#20 <<< pd) } }
    let s3 := (domainIslands pd).foldl releasePark s2
    if 2 ≤ pd ∧ pd < 19 ∧ s3.pilot.ready then restage s3 pd else s3

def execDomainPowerUpDone (pd : Nat) (s : State) : Out := whenPilot s (domainDone · pd)

/-! ### Ready for berths (step 5.6 of R96) -/

/-- The Piers of the trained stacks zero the Basket slices, each its channel's share of MiB 48,896-49,151 (R99, R5). -/
def zeroBasket (s : State) : State :=
  ((List.range 136).filter (fun h => h % 17 < 16 && s.pilot.stackMap.getLsbD (h / 17) && laneServes s (servedBy s h))).foldl
    (fun s h => emit s (.memZero (servedBy s h) 48896 256)) s

/-- A trained link at package ready: it opens if its lane serves, and is closed while it does not (R34, R43, R108). -/
def readyLink (s : State) (n : Nat) : State :=
  if laneServes s (linkLane s n) then openLink s n else modLink s n (fun x => { x with link := .closed })

/-- PACKAGE_READY (R96, R99, R378, R399): the Basket slices are zeroed, every Tier-2 region uninitialised, every berth FREE, 0x19
shown; trained links open, those whose lane does not serve are closed (R34, R43, R108), and a formation starts. -/
def packageReady (s : State) : State :=
  if s.pilot.ready ∨ !s.board.logClosed then s
  else
    let s1 := (List.range 18).foldl (fun s k => modPier s (136 + k) (fun x => { x with ready := [], metaCache := [] })) (zeroBasket s)
    let s2 := milestone { s1 with pilot := { s1.pilot with ready := true } } 0x19
    let s3 := (List.range 48).foldl (fun s n => if s.pilot.links.getLsbD n || (s.link n).trained then
      readyLink (modLink s n (fun x => { x with trained := true })) n else s) s2
    departures (startFormation s3)

def execPackageReady (s : State) : Out := whenPilot s packageReady

end Sys2Proof.Machine
end

