-- ==== Sys2Proof/Machine/HostGuard.lean ====
section
/-! DEFINITION. The host guard (15): unsupported requests, the mailbox and its message slots, MSI-X, Bus Master Enable, resets
of functions, and address translation with its page requests and invalidations. -/

namespace Sys2Proof.Machine

/-! ### Unsupported requests (R528) -/

/-- What the function's configuration says of a reason: Memory Space Enable or ATS Enable is 0. -/
def urHolds (s : State) (f : Func) : UrReason → Bool
  | .memorySpaceOff => !(s.fn f).mse
  | .atsOff => !(s.fn f).ats
  | _ => true

/-- HOST_UNSUPPORTED_REQUEST: UR status for a non-posted request; a posted one is dropped and reported, a vendor-defined Type 1
message dropped without report. -/
def execHostUnsupportedRequest (fn : Func) (posted : Bool) (r : UrReason) (s : State) : Out :=
  whenHost s (fun s =>
    if r = .vendorType1 ∨ !urHolds s fn r then s else if posted then aer s fn 0 else emit s (.hostUr fn))

/-! ### Events for Pilot (R557) -/

/-- An event queued; one of the same function and kind takes it in. -/
def hostEvent (s : State) (kind slot : Nat) (f : Func) : State :=
  let e : HostEvent := { kind := kind, slot := slot, func := fnIx f }
  modHost s (fun h =>
    if h.events.any (fun x => x.kind == kind && x.func == fnIx f) then
      { h with events := h.events.map (fun x => if x.kind = kind ∧ x.func = fnIx f then e else x) }
    else { h with events := h.events ++ [e] })

def execHgPPop (s : State) : Out := whenCommanded s (fun s => modHost s (fun h => { h with events := h.events.drop 1 }))

/-! ### Message slots (R532) -/

/-- What a slot's owner reads while Pilot still works on a message whose mailbox has been discarded. -/
def goneFn : Nat := 4098

def State.hslot (s : State) (k : Nat) : HostSlot := tget hostSlotInit s.host.slots k
def setHslot (s : State) (k : Nat) (x : HostSlot) : State := modHost s (fun h => { h with slots := tset h.slots k x })

/-- The slot a function can take: PF0's own, PF1's own, or the first free of the VFs' 62. -/
def openSlot (s : State) (f : Func) : Option Nat :=
  let free (k : Nat) : Bool := (s.hslot k).owner.isNone
  match f with
  | .pf0 => if free 0 then some 0 else none
  | .pf1 => if free 1 then some 1 else none
  | .vf _ => ((List.range 62).map (2 + ·)).find? free

/-- A function's slot freed, or while Pilot serves the message left to it until it sends (R557). -/
def dropSlot (s : State) (f : Func) : State :=
  match (s.fn f).slot with
  | none => s
  | some k => setHslot s k (if (s.fn f).mbx = .serving then { s.hslot k with owner := some goneFn } else hostSlotInit)

/-- The mailbox in IDLE with nothing in hand. -/
def mbxIdle (x : HostFn) : HostFn :=
  { x with mbx := .idle, txBusy := false, slot := none, got := 0, sent := 0, rxLen := 0, rxLast := false, rxReady := false }

/-! ### Responses (R531) -/

/-- A response fragment shown: `m` is the message, `off` the bytes shown before it. -/
def showFragment (s : State) (f : Func) (m : Bytes) (off : Nat) : State :=
  let n := min 256 (m.length - off)
  msix (modFn s f (fun x => { x with
    mbx := .responding, buf := mwrite 0 x.buf 0 (slice m off n), rxLen := BitVec.ofNat 9 n, rxLast := decide (off + n = m.length)
    rxReady := true, sent := off + n })) f 0

/-- The message a slot holds, by its LENGTH. -/
def slotMessage (s : State) (k : Nat) : Bytes :=
  let m := (s.hslot k).msg
  mread 0 m 0 (8 + leNat (mread 0 m 4 4))

/-- An answer that Pilot does not give: a header with MSTATUS and the body, in the slot or in the buffer alone. -/
def answerWith (s : State) (f : Func) (mstatus : Byte) (head body : Bytes) : State :=
  let m := [byteAt head 0, mstatus, byteAt head 2, byteAt head 3] ++ toLe 4 body.length ++ body
  let s1 := emit (match (s.fn f).slot with
    | some k => setHslot s k { s.hslot k with msg := mOf m }
    | none => s) (.reply f (byteAt head 0) mstatus body)
  showFragment s1 f m 0

/-- The host guard's own answer, of LENGTH 0. -/
def guardAnswer (s : State) (f : Func) (mstatus : Byte) (head : Bytes) : State := answerWith s f mstatus head []

/-- A Prirdo message (R261). -/
def prirdoMsg (version typ : Byte) (vf : Nat) (session : Bytes) (body : Bytes) : Bytes :=
  [0x50, 0x52, 0x44, 0x4F, version, typ] ++ toLe 2 vf ++ padTo 4 session ++ toLe 4 body.length ++ body

/-- The open session of a berth that a message names. -/
def findSession (s : State) (vf : Nat) (m : Bytes) : Option (Nat × Session) :=
  s.sessions.find? (fun x => x.2.berth == vf && x.2.session.toNat == leAt m 8 4)

/-- VERSION of a message of MB3's: the session's (R261). A HELLO has none yet, and gets 0; a message that names no session gets its
own back (log entry 55). -/
def replyVersion (s : State) (vf : Nat) (m : Bytes) : Byte :=
  if byteAt m 5 = 0x01 then 0
  else
    match findSession s vf m with
    | some (_, x) => BitVec.ofNat 8 x.version
    | none => byteAt m 4

/-- An ERROR to a message (R271). SESSION is the message's, 0 for a HELLO (log entry 55). -/
def prirdoError (s : State) (vf : Nat) (m : Bytes) (code supported : Byte) : Bytes :=
  prirdoMsg (replyVersion s vf m) 0x05 vf (if byteAt m 5 = 0x01 then zeros 4 else slice m 8 4) [code, 0, supported, 0]

/-- What a Prirdo message gets from a warm restart: ERROR 0x0B; an END gets no message (R533). -/
def prirdoRetry (s : State) (vf : Nat) (m : Bytes) : Bytes := if byteAt m 5 = 0x06 then [] else prirdoError s vf m 0x0B 0

/-- A request answered because a warm restart runs or struck it (R533, R536). -/
def retryAnswer (s : State) (f : Func) (head body : Bytes) : State :=
  match f with
  | .vf n => if byteAt head 0 = 0x70 then answerWith s f 0 head (prirdoRetry s n body) else guardAnswer s f 0x01 head
  | _ => guardAnswer s f 0x01 head

/-! ### Requests (R531, R533, R536) -/

/-- Commands that need step 5.6 (R533): the berth commands of PF1 and every command of a VF. -/
def needsReady (f : Func) (code : Byte) : Bool :=
  match f with
  | .pf0 => false
  | .pf1 => decide (0x40 ≤ code.toNat ∧ code.toNat ≤ 0x48)
  | .vf _ => true

/-- What the host guard answers itself, if anything, to a complete request. -/
def guardStatus (s : State) (f : Func) (code : Byte) : Option Byte :=
  if s.pilot.phase = .halted then some 0x07
  else if s.pilot.phase = .warm then some 0x01
  else if s.pilot.phase ≠ .firmware ∨ (needsReady f code && !s.pilot.ready) then some 0x06
  else
    match f with
    | .vf n =>
      (match (s.berth n).state with
        | .free => some 0x04
        | .rinsing => if code = 0x70 then none else some 0x02
        | _ => none)
    | _ => none

/-- A complete request: answered, or handed to Pilot. -/
def requestDone (s : State) (f : Func) (k : Nat) : State :=
  let head := mread 0 (s.hslot k).msg 0 8
  match guardStatus s f (byteAt head 0) with
  | some 0x01 => retryAnswer s f head ((slotMessage s k).drop 8)
  | some st => guardAnswer s f st head
  | none => hostEvent (modFn s f (fun x => { x with mbx := .serving })) 6 k f

/-- A fragment that breaks the shape of R531: a length outside 1-256, a fragment before the last that is not full, a request
that is not 8 + LENGTH bytes long, a LENGTH above 32,768, or a reserved header byte that is not 0. -/
def fragmentBad (x : HostFn) (m : Bytes) : Bool :=
  let n := x.txLen.toNat
  let len := leAt m 4 4
  n == 0 || decide (256 < n) || (!x.txLast && decide (n ≠ 256)) || decide (m.length < 8) || byteAt m 1 != 0 || decide (32768 < len) ||
    (if x.txLast then decide (m.length ≠ 8 + len) else decide (8 + len ≤ m.length))

/-- A fragment taken: the last one ends its request; after any other TX_BUSY is 1 (R531). -/
def mbxTake (s : State) (f : Func) : State :=
  let x := s.fn f
  let frag := mread 0 x.buf 0 (min 256 x.txLen.toNat)
  let m := (match x.slot with
    | some k => mread 0 (s.hslot k).msg 0 x.got
    | none => []) ++ frag
  if fragmentBad x m then guardAnswer s f 0x05 (padTo 8 m)
  else
    match (match x.slot with
      | some k => some k
      | none => openSlot s f) with
    | none => guardAnswer s f 0x01 (padTo 8 m)
    | some k =>
      let s1 := setHslot (s.setFn f { x with mbx := .receiving, slot := some k, got := m.length, txBusy := !x.txLast }) k
        { owner := some (fnIx f), msg := mwrite 0 (if x.got = 0 then [] else (s.hslot k).msg) x.got frag }
      if x.txLast then requestDone s1 f k else s1

/-- MBX_CTL.GO (R531): ignored with PROTO while TX_BUSY is 1, or in SERVING or RESPONDING. -/
def mbxGo (s0 : State) (f : Func) : State :=
  let s := fragmentLook s0 f
  let x := s.fn f
  if x.mbx = .serving ∨ x.mbx = .responding ∨ (x.mbx = .receiving ∧ x.txBusy = true) then s.setFn f { x with proto := true }
  else mbxTake s f

def execMbxGo (fn : Func) (s : State) : Out := whenBar s fn (mbxGo · fn)

/-- MBX_CTL.NEXT (R531): after the last fragment the mailbox is IDLE and its slot free. -/
def mbxNext (s : State) (f : Func) : State :=
  let x := s.fn f
  if !x.rxReady then s.setFn f { x with proto := true }
  else if x.rxLast then modFn (dropSlot s f) f mbxIdle
  else
    match x.slot with
    | some k => showFragment s f (slotMessage s k) x.sent
    | none => modFn s f mbxIdle

def execNext (fn : Func) (s : State) : Out := whenBar s fn (mbxNext · fn)

/-- A command of a function that Pilot has begun runs on, and its response is discarded (R532, R540): nothing answers it later. -/
def forget (s : State) (f : Func) : State :=
  if (s.fn f).mbx ≠ .serving then s
  else
    match f with
    | .pf0 => { s with
        board := { s.board with sites := s.board.sites.map (fun x => (x.1, { x.2 with answer := false })) }
        pilot := { s.pilot with settings := { s.pilot.settings with answer := false } } }
    | .pf1 => { s with berths := s.berths.map (fun x => (x.1, { x.2 with replyDue := false })) }
    | .vf n => { s with press := { s.press with
        berths := tmod berthPressInit s.press.berths n (fun x => { x with job := x.job.map (fun j => { j with answer := false }) }) } }

/-- The message in hand discarded, and Pilot told (R532, R557). -/
def discard (s : State) (f : Func) : State := hostEvent (modFn (dropSlot (forget s f) f) f mbxIdle) 7 0 f

def execMbxAbort (fn : Func) (s : State) : Out :=
  whenBar s fn (fun s => if (s.fn fn).mbx ≠ .idle then discard s fn else s)

/-- MBX_EXPIRY (R532): RECEIVING without GO, or RESPONDING without NEXT, for 1 s. -/
def execMbxExpiry (fn : Func) (s : State) : Out :=
  whenRunning s (fun s =>
    if fnExists s fn ∧ ((s.fn fn).mbx = .receiving ∨ (s.fn fn).mbx = .responding) then
      msix (modFn (discard s fn) fn (fun x => { x with expired := true })) fn 0
    else s)

/-- HG_P_RESP.SEND (R557): the response in SLOT is presented; for a discarded mailbox the slot is freed. -/
def respSend (s0 : State) (slot : BitVec 6) : State :=
  let k := slot.toNat
  let s := modHost s0 (fun h => { h with respSlot := slot })
  match (s.hslot k).owner with
  | none => s
  | some i =>
    let f := fnAt i
    if i = goneFn then setHslot s k hostSlotInit
    else if (s.fn f).mbx = .serving ∧ (s.fn f).slot = some k then showFragment s f (slotMessage s k) 0
    else s

def execHgPRespSend (slot : BitVec 6) (s : State) : Out := whenCommanded s (respSend · slot)

/-! ### Commands of no chapter of their own (R533, R534) -/

/-- The codes a function carries. -/
def carries (f : Func) (code : Nat) : Bool :=
  match f with
  | .pf0 => decide (0x10 ≤ code ∧ code ≤ 0x14) || decide (0x20 ≤ code ∧ code ≤ 0x25) || decide (0x30 ≤ code ∧ code ≤ 0x33)
  | .pf1 => decide (0x40 ≤ code ∧ code ≤ 0x48)
  | .vf _ => decide (0x60 ≤ code ∧ code ≤ 0x65) || code == 0x70

/-- MAILBOX_UNKNOWN_CODE: MSTATUS 0x03, once the host guard has passed the request. -/
def execMailboxUnknownCode (fn : Func) (code : Byte) (s : State) : Out :=
  whenPilot s (fun s =>
    if !fnExists s fn ∨ carries fn code.toNat = true then s
    else
      match guardStatus s fn code with
      | some st => replyMs s fn code st []
      | none => replyMs s fn code 0x03 [])

/-- The fields of GET_UNIT_STATUS in the order R84 names them (log entry 54). -/
def unitStatusBody (s : State) : Bytes :=
  [s.pins.stat, BitVec.ofNat 8 (b2n (s.pilot.phase == .halted)), BitVec.ofNat 8 (b2n s.pins.haltSeen), lcByte s, s.pilot.milestone,
    s.ring.position, BitVec.ofNat 8 (b2n (s.lc.grant &&& invasiveMask != 0)), 0]

/-- UNIT_STATUS (R534). -/
def execUnitStatus (body : Bytes) (s : State) : Out :=
  whenPilot s (fun s => if body ≠ [] then replyMs s .pf0 0x11 0x05 [] else reply s .pf0 0x11 (unitStatusBody s))

/-! ### MSI-X and configuration (R526, R539, R554) -/

/-- MSIX_MASK_CHANGE (R526). -/
def execMsixMaskChange (fn : Func) (vector : Nat) (masked enable : Bool) (s : State) : Out :=
  whenHost s (fun s =>
    if !fnExists s fn then s
    else
      let n := match fn with
        | .vf _ => 10
        | _ => 2
      msixRelease (modFn s fn (fun x => { x with
        msixEn := enable
        msixMask := if n ≤ vector then x.msixMask else if masked then x.msixMask ||| (1#10 <<< vector) else x.msixMask &&& ~~~(1#10 <<< vector) })) fn)

/-- PRI_ENABLE_CHANGE (R554): set again, it lifts the block of a Response Failure. -/
def execPriEnableChange (fn : Func) (enable : Bool) (s : State) : Out :=
  whenHost s (fun s =>
    match fn with
    | .vf n => if vfExists s n then modFn s fn (fun x => { x with pri := enable, prgFailed := x.prgFailed && !(enable && !x.pri) }) else s
    | _ => s)

/-- BUS_MASTER_SET (R539). -/
def execBusMasterSet (fn : Func) (s : State) : Out :=
  whenHost s (fun s =>
    if !fnExists s fn then s
    else hostEvent (msixRelease (modHost (modFn s fn (fun x => { x with bme := true })) (fun h => { h with linkUp := true })) fn) 3 0 fn)

/-- Translation requests of a function abandoned. -/
def abandonTrans (s : State) (fn : Nat) : State :=
  let mine (r : HostReq) : Bool := r.fn == fn && (match r.use with
    | .trans _ _ => true
    | _ => false)
  let s1 := (s.host.reqs.filter mine).foldl (fun s r => reqQuarantine s { r with abandoned := true }) s
  modHost s1 (fun h => { h with failed := h.failed.filter (fun r => !mine r) })

/-- BUS_MASTER_CLEAR (R512, R539). A message that waits for a translation is pending again (R526). -/
def busMasterClear (s : State) (f : Func) : State :=
  let s1 := modFn s f (fun x => { x with bme := false, msixPend := x.msixPend ||| x.msixWait, msixWait := 0 })
  hostEvent (match f with
    | .vf n => abandonTrans (masterCleared s1 n) (n + 2)
    | _ => s1) 2 0 f

def execBusMasterClear (fn : Func) (s : State) : Out :=
  whenHost s (fun s => if fnExists s fn then busMasterClear s fn else s)

/-! ### Function Level Reset (R540-R542) -/

/-- Step 5: the function's translations dropped, its requests abandoned, and each Invalidate Request answered. -/
def dropTrans (s : State) (fn : Nat) : State :=
  let s1 := abandonTrans s fn
  let s2 := (s1.host.invals.filter (fun v => v.fn == fn)).foldl (fun s v => emit s (.invalidateCompletion fn v.itag)) s1
  modHost s2 (fun h => { h with
    atc := h.atc.filter (fun e => e.fn != fn)
    pages := h.pages.map (fun p => if p.fn = fn then { p with dead := true } else p)
    invals := h.invals.filter (fun v => v.fn != fn) })

/-- Step 6: the mailbox in IDLE, its slot freed, and the function's registers and configuration at reset. -/
def resetFn (s : State) (f : Func) : State := (dropSlot (forget s f) f).setFn f fnInit

/-- The table of R540 for VF n; the berth's rinse goes on after it. -/
def flrVf (s : State) (n : Nat) : State :=
  let s1 := hostEvent (abandonTrans s (n + 2)) 1 0 (.vf n)
  let s2 := startRinse s1 n 0x03
  resetFn (dropTrans s2 (n + 2)) (.vf n)

/-- The mailbox of a PF reset (R541). -/
def resetMbx (s : State) (f : Func) : State :=
  modFn (dropSlot (forget s f) f) f (fun x => { mbxIdle x with txLen := 0, txLast := false, expired := false, proto := false, buf := [] })

/-- Staged items of every berth discarded. -/
def dropStaged (s : State) : State :=
  { s with berths := s.berths.map (fun x => (x.1, if x.2.commit.isSome then x.2 else
      { x.2 with t1Staged := x.2.t1, t2Staged := x.2.t2, sitesStaged := x.2.sites })) }

/-- VF Enable and NumVFs change: every VF that ceases to exist is reset. -/
def vfChange (s : State) (enable : Bool) (num : Nat) : State :=
  let after (n : Nat) : Bool := enable && decide (n < num)
  let gone := (List.range 4096).filter (fun n => vfExists s n && !after n)
  let s1 := gone.foldl flrVf s
  let changed := (List.range 4096).any (fun n => vfExists s n != after n)
  let s2 := modHost s1 (fun h => { h with vfEnable := enable, numVfs := num })
  if changed then msix s2 .pf1 1 else s2

/-- FLR (R540, R541); one of PF1 that clears VF Enable queues that event too (R557). -/
def flr (s : State) (f : Func) : State :=
  match f with
  | .pf0 => hostEvent (resetMbx s .pf0) 1 0 .pf0
  | .pf1 =>
    let s1 := dropStaged (vfChange (resetMbx s .pf1) false s.host.numVfs)
    hostEvent (if s.host.vfEnable then hostEvent s1 4 0 .pf1 else s1) 1 0 .pf1
  | .vf n => if vfExists s n then flrVf s n else s

def execFlr (fn : Func) (s : State) : Out := whenHost s (flr · fn)

/-- VF_ENABLE_CHANGE (R521, R541). -/
def execVfEnableChange (enable : Bool) (numVfs : Nat) (s : State) : Out :=
  whenHost s (fun s =>
    hostEvent (modHost (vfChange s enable (min numVfs 4096)) (fun h => { h with linkUp := true })) 4 0 .pf1)

/-- CONVENTIONAL_RESET (R542): an FLR of PF0 and PF1 together. -/
def execConventionalReset (s : State) : Out :=
  whenHost s (fun s => hostEvent (modHost (flr (flr s .pf0) .pf1) (fun h => { h with linkUp := false })) 5 0 .pf0)

/-! ### Translation (R548-R551) -/

/-- An entry cached at the front; one of the same place goes, and the last of 4,096 others. -/
def atcInsert (h : HostGuard) (e : AtcEntry) : HostGuard :=
  { h with atc := (e :: h.atc.filter (fun x => !(x.fn == e.fn && x.big == e.big && x.base == e.base))).take 4096 }

/-- The entry a completion gives for the address that was asked about (R549). -/
def atcOf (fn addr : Nat) (c : TransCpl) : AtcEntry :=
  let n := if 1073741824 ≤ c.size then 1073741824 else 2097152
  let base := addr / n * n
  { fn := fn, big := decide (1073741824 ≤ c.size), base := base, target := c.target / c.size * c.size + base % c.size, canRead := c.canRead, canWrite := c.canWrite }

/-- The waiters of a range to which nothing is permitted: each asks for a page, or fails. -/
def denyRange (s : State) (fn addr : Nat) : State :=
  let e : AtcEntry := { fn := fn, big := false, base := rangeOf addr * 2097152, target := 0, canRead := false, canWrite := false }
  let s1 := wakeFn (modHost s (fun h => { h with atc := e :: h.atc })) fn none
  modHost s1 (fun h => { h with atc := h.atc.filter (· != e) })

/-- TRANSLATION_COMPLETION. Its own tag is free again before what waits goes on. -/
def transCompletion (s : State) (fn tag : Nat) (c : TransCpl) : State :=
  match s.host.quarantine.find? (fun r => r.fn == fn && r.tag == tag) with
  | some r => lateCompletion s r { status := c.status, data := [], byteCount := 0, lowerAddr := 0 }
  | none =>
    match findReq s fn tag with
    | none => unexpected s fn false
    | some r =>
      match r.use with
      | .trans range w =>
        let s1 := reqDone s fn tag
        if r.stale then askTrans s1 fn r.ch range w r.tries
        else
          (match c.status with
            | .ur => failRange s1 fn range 0x0E
            | .ca => failRange s1 fn range 0x0E
            | .poisoned => hostError s1 r
            | .ok =>
              if !c.canRead && !c.canWrite then denyRange s1 fn r.addr
              else if c.size < 2097152 then failRange (hgCount s1 fn 1) fn range 0x0E
              else if c.untransOnly then wakeFn s1 fn (some (fn, range))
              else wakeFn (modHost s1 (fun h => atcInsert h (atcOf fn r.addr c))) fn none)
      | _ => unexpected s fn false

def execTranslationCompletion (fn : Func) (tag : Nat) (c : TransCpl) (s : State) : Out :=
  whenHost s (withTags (fnIx fn) (transCompletion · (fnIx fn) tag c))

/-- INVALIDATE_REQUEST (R551): matching entries go; the completion waits for the requests that used one. With ATS Enable 0 it
is unsupported (R528). -/
def invalidateReq (s : State) (f : Func) (itag base size : Nat) : State :=
  let fn := fnIx f
  let hits (b n : Nat) : Bool := decide (b < base + size ∧ base < b + n)
  let uses (r : HostReq) : Bool := r.fn == fn && r.used.any (fun u => hits u.1 u.2)
  if !(s.fn f).ats then aer s f 0
  else
    modHost s (fun h => { h with
      atc := h.atc.filter (fun e => !(e.fn == fn && hits e.base (atcSize e)))
      reqs := h.reqs.map (fun r => match r.use with
        | .trans g _ => if r.fn = fn ∧ hits (g * 2097152) 2097152 then { r with stale := true } else r
        | _ => r)
      invals := h.invals ++ [{ fn := fn, itag := itag, waiting := ((h.reqs.filter uses) ++ h.quarantine.filter (fun r => uses r && !r.timedOut)).map (·.tag) }] })

def execInvalidateRequest (fn : Func) (itag : Nat) (base size : Nat) (s : State) : Out :=
  whenHost s (fun s => match fn with
    | .vf n => if vfExists s n then invalidateReq s fn itag base size else s
    | _ => s)

/-- INVALIDATE_COMPLETION: the oldest of the function, once nothing it waits for is left. -/
def execInvalidateCompletion (fn : Func) (s : State) : Out :=
  whenHost s (fun s =>
    match s.host.invals.find? (fun v => v.fn == fnIx fn) with
    | some v =>
      if v.waiting = [] then
        emit (modHost s (fun h => { h with invals := h.invals.erase v })) (.invalidateCompletion (fnIx fn) v.itag)
      else s
    | none => s)

/-! ### Page requests (R552-R554) -/

/-- The page request with an index. -/
def findPage (s : State) (fn index : Nat) : Option PageReq := s.host.pages.find? (fun p => p.fn == fn && p.index == index)
def dropPage (s : State) (p : PageReq) : State := modHost s (fun h => { h with pages := h.pages.erase p })

/-- Entries over a range that lack a permission: a retranslation asks again (R553). -/
def dropLacking (s : State) (fn range : Nat) : State :=
  modHost s (fun h => { h with atc := h.atc.filter (fun e =>
    !(e.fn == fn && decide (e.base ≤ range * 2097152 ∧ range * 2097152 < e.base + atcSize e) && !(e.canRead && e.canWrite))) })

/-- PRG_RESPONSE: one after the group's 100 ms is discarded; one that names no group is unsupported (R528). -/
def prgResponse (s : State) (f : Func) (index : Nat) (r : PrgCode) : State :=
  let fn := fnIx f
  match findPage s fn index with
  | none => aer s f 0
  | some p =>
    let s1 := dropPage s p
    if p.dead then wakeFn s1 fn none
    else
      match r with
      | .success => wakeFn (dropLacking s1 fn p.range) fn none
      | .invalid => wakeFn (failRange s1 fn p.range 0x0E) fn none
      | .failure => wakeFn (failRange (modFn s1 f (fun x => { x with prgFailed := true })) fn p.range 0x0E) fn none

def execPrgResponse (fn : Func) (index : Nat) (r : PrgCode) (s : State) : Out := whenHost s (prgResponse · fn index r)

/-- PAGE_REQUEST_TIMEOUT: the waiters fail; the index stays in use. -/
def execPageRequestTimeout (fn : Func) (index : Nat) (s : State) : Out :=
  whenRunning s (fun s =>
    match findPage s (fnIx fn) index with
    | some p =>
      if p.dead then s
      else failRange (modHost s (fun h => { h with pages := h.pages.map (fun q => if q = p then { p with dead := true } else q) })) (fnIx fn) p.range 0x0E
    | none => s)

/-- PAGE_REQUEST_INDEX_RELEASE: 200 ms without a response. -/
def execPageRequestIndexRelease (fn : Func) (index : Nat) (s : State) : Out :=
  whenRunning s (fun s =>
    match findPage s (fnIx fn) index with
    | some p => if p.dead then wakeFn (dropPage s p) (fnIx fn) none else s
    | none => s)

end Sys2Proof.Machine
end

