-- ==== Sys2Proof/Machine/Prirdo.lean ====
section
/-! DEFINITION. Prirdo (07): HELLO and its evidence certificate, RELEASE of keys into a berth's record, and the end of a
session. -/

namespace Sys2Proof.Machine

/-! ### The evidence certificate (R239, R242, R246-R250) -/

/-- tvx-config (R246). -/
def tvxConfig (s : State) : Bytes :=
  derSeq [derEnum s.lc.state.toNat, derBool s.lc.doneThisBoot, derNat (lcTarget s).toNat, derBits 10 (s.lc.grant.getLsbD ·),
    derBool (!s.fuse.tacks.isEmpty), derBits 6 (s.fuse.alarmEver.getLsbD ·), derBool s.fuse.compat, derOctets (policyDigest s.fuse),
    derOctets (minVersions s.fuse), svnDer s]

/-- The bytes of a berth's windows on a tier. -/
def windowBytes (t : Tbl Window) : Nat := t.foldl (fun n w => n + w.2.size * 1048576) 0

/-- tvx-berth (R247, R415): with no job open the denominator reads 4096 and the floor 0. -/
def tvxBerth (s : State) (b version : Nat) (hello : Bytes) : Bytes :=
  let y := s.berth b
  let rate := match openJob (s.bp b) with
    | some j => (j.dEff, j.floor)
    | none => (4096, 0)
  derSeq [derOctets (slice hello 20 48), derOctets (sha384 hello), derNat version, derNat b, derEnum (stateCode y.state).toNat,
    derEnum (levelNo y.level), derBits 12 (y.sites.getLsbD ·), derNat (windowBytes y.t1), derNat (windowBytes y.t2), derOctets (padTo 48 y.binding),
    derOctets (padTo 16 (if version < 2 then [] else y.pairJob)), derBits 4 (fun _ => arraysIn s != 0), derNat rate.1, derNat rate.2]

/-- A lane, array or engine is out of service, or its domain is not up. -/
def partOut (s : State) (ix : Nat) : Bool :=
  let l := servedBy s ix
  (tget islandInit s.isl l).service == .failed || !s.power.domUp.getLsbD (domainOf (islandAt l))

/-- tvx-lanes (R248). No Darn runs while evidence is built: it is one step here. -/
def tvxLanes (s : State) : Bytes :=
  let chOut (k : Nat) (c : Nat) : Bool := partOut s (17 * k + c)
  derSeq [derBits 8 (fun k => !s.pilot.stackMap.getLsbD k || (List.range 16).all (chOut k)),
    derBits 16 (fun p => !s.pilot.ports.getLsbD p || partOut s (136 + p)),
    derBits 128 (fun i => chOut (i / 16) (i % 16)),
    derBits 48 (fun n => partOut s (154 + n)),
    derBits 16 (fun n => partOut s (206 + n) || (s.array n).noFeed),
    derBits 8 (fun e => partOut s (222 + e)),
    derBits 14 (fun i => (tfind s.cover (if i < 8 then 17 * i + 16 else if i < 10 then 144 + i else 192 + i)).isSome),
    derBool false]

/-- The tbsCertificate of berth evidence for an exchange slot's key (R242, R244): the DiceTcbInfo of layer 0 copied from the device
identity certificate and those of layer 1 from the alias, and a MultiTcbInfo of the layer 2 entries. -/
def evidenceTbs (s : State) (b version : Nat) (key hello : Bytes) : Bytes :=
  let issuer := aliasCert s 0
  let entries := ((measured s).filter (fun m => decide (4 ≤ m.1))).map (fun m => derTcb (tcbEntry s m.1 m.2))
  derTbs (orEmptySeq (certSubject issuer)) (orEmptySeq (certValidity issuer))
    (tvxName (ascii "MB3 Berth Evidence") (some (decimal b)) (unitSerial s)) oidHybridKem key
    (derUsual none [4] key (certKey issuer) ++
      [derExt oidTvxConfig false (tvxConfig s), derExt oidTvxBerth true (tvxBerth s b version hello), derExt oidTvxLanes false (tvxLanes s)] ++
      (certExts (identityCert s 0) oidTcbInfo ++ certExts issuer oidTcbInfo).map (derExt oidTcbInfo false) ++ [derExt oidMultiTcbInfo false (derSeq entries)])

/-- The berth evidence certificate, signed by the alias key. -/
def evidenceCert (s : State) (b version : Nat) (key hello : Bytes) : Bytes :=
  let tbs := evidenceTbs s b version key hello
  derSigned tbs (hybridSigOf (s.slot 4).material (sha384 tbs) s.pilot.drawn)

/-! ### HELLO (R262-R266) -/

/-- Versions 1 and 2, those at or above the minimum of region 5 word 2 [15:8]. -/
def prirdoSupported (s : State) : List Nat :=
  [1, 2].filter (fun v => decide (max 1 ((policyWord s.fuse 2).toNat / 256 % 256) ≤ v))
def versionBits (l : List Nat) : Byte := BitVec.ofNat 8 (l.foldl (fun n v => n + 2 ^ (v - 1)) 0)

/-- The version chosen for a VERSIONS byte. -/
def prirdoVersion (s : State) (versions : Byte) : Option Nat :=
  (prirdoSupported s).reverse.find? (fun v => versions.getLsbD (v - 1))

/-- The header holds MAGIC, the berth and the length of what follows. -/
def prirdoHeaderOk (vf : Nat) (m : Bytes) : Bool :=
  decide (16 ≤ m.length) && m.take 4 == [0x50, 0x52, 0x44, 0x4F] && leAt m 6 2 == vf && leAt m 12 4 == m.length - 16

/-- A well-formed HELLO: 2,741 bytes of body, reserved bytes 0, a known PURPOSE, and no keys in one that only attests. -/
def helloOk (vf : Nat) (m : Bytes) : Bool :=
  let p := byteAt m 17
  prirdoHeaderOk vf m && byteAt m 4 == 0 && byteAt m 5 == 0x01 && leAt m 8 4 == 0 && leAt m 12 4 == 2741 && (p == 1 || p == 2) &&
    leAt m 18 2 == 0 && (p == 2 || allZero (slice m 68 2689))

/-- No evidence is given: an invasive right is open, or was (R198). -/
def evidenceClosed (s : State) : Bool := s.lc.grant &&& invasiveMask != 0 || s.pilot.assignClosed

/-- The keys of slot 4 and of the identity serve. An UNUSABLE one leaves the chain unsigned; R264 gives no code for it, and MB3
answers 0x07 (DESIGN CHOICE, log entry 149). -/
def evidenceKeys (s : State) : Bool := slotServes s 4 6 && s.pilot.enrolled.1

/-- The checks of R264 in their order: 0, or the ERROR. -/
def helloCheck (s : State) (vf : Nat) (m : Bytes) : Byte :=
  if !helloOk vf m then 0x01
  else if evidenceClosed s then 0x08
  else if !evidenceKeys s then 0x07
  else if (prirdoVersion s (byteAt m 16)).isNone then 0x02
  else if (s.berth vf).state = .rinsing then 0x05
  else if !(s.record vf).opened then 0x04
  else if byteAt m 17 = 2 ∧ s.lc.doneThisBoot then 0x04
  else if (List.range 4).all (fun i => (s.slot (8 + i)).valid) then 0x03
  else if !s.vault.drbgOk then 0x0C
  else 0

/-- Pilot's reply to a PRIRDO command. -/
def prirdoReply (s : State) (vf : Nat) (m : Bytes) : State := reply s (.vf vf) 0x70 m

/-- An accepted HELLO (R266): GENERATE and KEYPAIR in the first empty exchange slot, the certificate, and EVIDENCE. -/
def helloAccept (s : State) (vf : Nat) (m : Bytes) (version : Nat) : State :=
  let i := ((List.range 4).find? (fun i => !(s.slot (8 + i)).valid)).getD 0
  let c : VaultCmd := { field := 0, index := BitVec.ofNat 12 (8 + i), typ := 0, space := false }
  let s1 := generateOp { s with vault := { s.vault with err := 0, aux := BitVec.ofNat 12 vf, cmd := c } }
  let s2 := keypairOp s1
  let key := kemPair (s2.slot (8 + i)).material
  let sid := drawBytes s2 4
  let s3 := drew s2 4
  let certs := [identityCert s3 0, aliasCert s3 0, evidenceCert s3 vf version key m]
  let e := prirdoMsg (BitVec.ofNat 8 version) 0x02 vf sid ([3, 0, 0, 0] ++ certs.flatMap derField)
  let s4 := drew s3 1
  let x : Session := { berth := vf, session := BitVec.ofNat 32 (leNat sid), version := version, ksKeys := slice m 68 2689, transcript := sha384 (m ++ e) }
  let s5 := if byteAt m 17 = 1 then emptySlot s4 (8 + i) else { s4 with sessions := tset s4.sessions i x }
  prirdoReply s5 vf e

/-- HELLO. -/
def prirdoHello (s0 : State) (vf : Nat) (m : Bytes) : State :=
  let s := touchSlot s0 4
  match helloCheck s vf m, prirdoVersion s (byteAt m 16) with
  | 0, some v => helloAccept s vf m v
  | 0, none => s
  | e, _ => prirdoReply s vf (prirdoError s vf m e (if e = 0x02 then versionBits (prirdoSupported s) else 0))

/-- A PRIRDO command reaches Pilot unless the host guard answers it (R533). -/
def prirdoCmd (vf : Nat) (s : State) (f : State → State) : State :=
  if !vfExists s vf then s
  else if !s.pilot.ready then replyMs s (.vf vf) 0x70 0x06 []
  else if (s.berth vf).state = .free then replyMs s (.vf vf) 0x70 0x04 []
  else f s

def execHello (vf : Nat) (msg : Bytes) (s : State) : Out := whenPilot s (fun s => prirdoCmd vf s (prirdoHello · vf msg))

/-! ### Sessions (R269, R272) -/

/-- The header of a message of a session: MAGIC, the session's VERSION, the TYPE, the berth, and the length (R261). -/
def sessionHeader (x : Session) (vf : Nat) (m : Bytes) (typ : Byte) : Bool :=
  prirdoHeaderOk vf m && byteAt m 4 == BitVec.ofNat 8 x.version && byteAt m 5 == typ

/-- A session ends and its exchange slot is destroyed. -/
def endSession (s : State) (i : Nat) : State := { emptySlot s (8 + i) with sessions := tdel s.sessions i }

/-! ### RELEASE (R268-R270) -/

def entryAt (m : Bytes) (i : Nat) : Bytes := slice m (36 + 1729 * i) 1729
def entriesOf (m : Bytes) : List Bytes := (List.range (leAt m 16 1)).map (entryAt m)

/-- The body's shape: COUNT 1 to 3, its length, reserved bytes 0, a JOB_ID only with a PAIR entry of version 2, and no FIELD
twice. -/
def releaseOk (x : Session) (m : Bytes) : Bool :=
  let n := leAt m 16 1
  let fields := (entriesOf m).map (fun e => byteAt e 0)
  decide (1 ≤ n ∧ n ≤ 3) && m.length == 36 + 1729 * n + 4723 && leAt m 17 3 == 0 &&
    (allZero (slice m 20 16) || (decide (2 ≤ x.version) && fields.contains 0x04)) &&
    (entriesOf m).all (fun e => leAt e 1 3 == 0) && decide (fields.eraseDups.length = fields.length)

/-- A field of the record holds a key. -/
def fieldValid (r : BerthRecord) (f : Nat) : Bool :=
  match f with
  | 2 => r.weight.isSome
  | 3 => r.bounce.isSome
  | _ => r.pair.isSome

/-- The vault RELEASE of an entry (R226), and its error. -/
def vaultRelease (s : State) (i vf : Nat) (transcript e : Bytes) : State × Byte :=
  let c : VaultCmd := { field := BitVec.ofNat 3 (byteAt e 0).toNat, index := BitVec.ofNat 12 vf, typ := 0, space := true }
  let d := mOf (slice e 4 1665 ++ padTo 48 transcript ++ slice e 1669 60)
  let s2 := releaseOp { s with vault := { s.vault with err := 0, aux := BitVec.ofNat 12 (8 + i), cmd := c, data := d } }
  (s2, s2.vault.err)

/-- One entry (step 6): its status, or none where the vault finds the berth closed to releases. -/
def releaseEntry (i vf : Nat) (x : Session) (acc : State × List (Option Byte)) (e : Bytes) : State × List (Option Byte) :=
  let s := acc.1
  let f := (byteAt e 0).toNat
  if !(f = 2 ∨ f = 3 ∨ (f = 4 ∧ 2 ≤ x.version)) then (s, acc.2 ++ [some 0x03])
  else if fieldValid (s.record vf) f then (s, acc.2 ++ [some 0x02])
  else
    match vaultRelease s i vf x.transcript e with
    | (t, 0) => (t, acc.2 ++ [some 0x00])
    | (t, 0x0A) => (t, acc.2 ++ [some 0x01])
    | (t, _) => (t, acc.2 ++ [none])

/-- Steps 6 to 8: the entries, the binding, and RESULT. A vault that refuses the berth itself gives ERROR 0x04 (R271, log
entry 56), and an alias key that does not serve 0x07 (log entry 149). -/
def releaseRun (s : State) (i vf : Nat) (x : Session) (m : Bytes) : State :=
  let es := entriesOf m
  let (s1, sts) := es.foldl (releaseEntry i vf x) (s, [])
  let y := s1.berth vf
  let done := sts.any (· == some 0)
  let y1 := if done && y.binding.isEmpty then { y with binding := sha384 x.ksKeys } else y
  let pair := (es.zip sts).any (fun p => byteAt p.1 0 == 0x04 && p.2 == some 0)
  let s2 := touchSlot (s1.setBerth vf (if pair then { y1 with pairJob := slice m 20 16 } else y1)) 4
  if sts.any Option.isNone then prirdoReply s2 vf (prirdoError s2 vf m 0x04 0)
  else if !slotServes s2 4 6 then prirdoReply s2 vf (prirdoError s2 vf m 0x07 0)
  else
    let body := [BitVec.ofNat 8 es.length] ++ padTo 3 (sts.map (·.getD 0)) ++ sha384 m
    let head := (prirdoMsg (BitVec.ofNat 8 x.version) 0x04 vf (slice m 8 4) (zeros (52 + 4723))).take 16
    let sig := hybridSigOf (s2.slot 4).material (sha384 (x.transcript ++ head ++ body)) s2.pilot.drawn
    prirdoReply (drew s2 1) vf (head ++ body ++ sig)

/-- RELEASE: the checks of R269 in their order. -/
def prirdoRelease (s : State) (vf : Nat) (m : Bytes) : State :=
  let err (t : State) (e : Byte) : State := prirdoReply t vf (prirdoError s vf m e 0)
  if m.length < 16 then err s 0x01
  else
    match findSession s vf m with
    | none => err s 0x06
    | some (i, x) =>
      if !sessionHeader x vf m 0x03 ∨ !releaseOk x m then err s 0x01
      else if (s.berth vf).state = .rinsing then err (endSession s i) 0x05
      else if !hybridOk x.ksKeys (sha384 (x.transcript ++ m.take (m.length - 4723))) (m.drop (m.length - 4723)) then err s 0x09
      else if (s.berth vf).binding ≠ [] ∧ (s.berth vf).binding ≠ sha384 x.ksKeys then err s 0x0A
      else releaseRun s i vf x m

def execPrirdoRelease (vf : Nat) (msg : Bytes) (s : State) : Out := whenPilot s (fun s => prirdoCmd vf s (prirdoRelease · vf msg))

/-! ### END, other types, and the limit (R261, R272, R533) -/

/-- END: no Prirdo reply, a response of LENGTH 0. One of no session, or of one that has ended, gets ERROR 0x06, and one whose
header does not match ERROR 0x01. -/
def prirdoEnd (s : State) (vf : Nat) (m : Bytes) : State :=
  let err (e : Byte) : State := prirdoReply s vf (prirdoError s vf m e 0)
  if m.length < 16 then err 0x01
  else
    match findSession s vf m with
    | some (i, x) => if sessionHeader x vf m 0x06 then prirdoReply (endSession s i) vf [] else err 0x01
    | none => err 0x06

def execPrirdoEnd (vf : Nat) (msg : Bytes) (s : State) : Out := whenPilot s (fun s => prirdoCmd vf s (prirdoEnd · vf msg))

/-- A message whose TYPE is none of HELLO, RELEASE and END: ERROR 0x01. -/
def execPrirdoReservedType (vf : Nat) (msg : Bytes) (s : State) : Out :=
  whenPilot s (fun s => prirdoCmd vf s (fun s =>
    if byteAt msg 5 ∈ [0x01, 0x03, 0x06] ∧ 16 ≤ msg.length then s else prirdoReply s vf (prirdoError s vf msg 0x01 0)))

/-- PRIRDO_SESSION_TIMEOUT: 10 s with no message of the key service; SLOT is the exchange slot 8-11. -/
def execPrirdoSessionTimeout (slot : Nat) (s : State) : Out :=
  whenPilot s (fun s =>
    if 8 ≤ slot ∧ slot < 12 ∧ (tfind s.sessions (slot - 8)).isSome then endSession s (slot - 8) else s)

end Sys2Proof.Machine
end

