-- ==== Sys2Proof/Machine/Restart.lean ====
section
/-! DEFINITION. Lockstep mismatches, the warm restart, Pilot's halts and access faults (03, 17), and the island restarts of
the fault chapter (16). -/

namespace Sys2Proof.Machine

/-! ### The mismatch (R133, R135-R137) -/

/-- A mailbox whose command is in progress is answered "retry" (R135, R533). -/
def strikeMailbox (s : State) (f : Func) : State :=
  match (s.fn f).mbx, (s.fn f).slot with
  | .serving, some k =>
    let head := mread 0 (s.hslot k).msg 0 8
    retryAnswer s f head ((slotMessage s k).drop 8)
  | _, _ => s

/-- Exchanges with outside parties are dropped: mailbox commands, SPDM exchanges, and Prirdo sessions with their exchange slots. -/
def strike (s : State) : State :=
  let s1 := (s.fns.map (fun x => fnAt x.1)).foldl strikeMailbox s
  let s2 := (s1.sessions.map (·.1)).foldl endSession s1
  { s2 with
    berths := s2.berths.map (fun x => (x.1, { x.2 with replyDue := false }))
    board := { s2.board with sites := s2.board.sites.map (fun x => (x.1, { x.2 with answer := false })) }
    press := { s2.press with berths := s2.press.berths.map (fun x =>
      (x.1, { x.2 with job := x.2.job.map (fun j => { j with answer := false }) })) }
    pilot := { s2.pilot with
      spdmRing := spdmReset
      spdmPf0 := spdmReset
      settings := { s2.pilot.settings with answer := false } } }

/-- LOCKSTEP_MISMATCH: before firmware entry MB3 halts with 0x83; in a warm restart, or within 100 ms of one, with 0xA5; else a
warm restart begins, MB_STAT shows 0x20 and CRING_CTL.READY clears (R586). -/
def mismatch (s : State) : State :=
  match s.pilot.phase with
  | .rom => halt s 0x83
  | .hold => halt s 0x83
  | .warm => firmwareHalt s 0xA5
  | .firmware =>
    if s.pilot.warmGuard then firmwareHalt s 0xA5
    else
      let s1 := strike s
      { s1 with
        pilot := { s1.pilot with phase := .warm }
        pins := { s1.pins with stat := 0x20 }
        ring := { s1.ring with ready := false } }
  | _ => s

def execLockstepMismatch (s : State) : Out := whenRunning s mismatch

/-! ### The return (steps 4 to 7 of R133) -/

/-- Every broadcast still lacking acknowledgements is issued again with its number (R134). -/
def rebroadcast (s : State) : State := s.lanes.bcasts.foldl (fun s x => sendCmd s x.waiting (.commit x.seq)) s

/-- Berths that hardware gated while Pilot was away leave their jobs (R323). -/
def regate (s : State) : State :=
  (s.berths.map (·.1)).foldl (fun s b =>
    if (s.berth b).state = .rinsing ∧ ((openJob (s.bp b)).isSome ∨ jobLinks s b ≠ []) then gateJob s b 0x03 else s) s

/-- Links that closed while Pilot was away lose their slots, and a formation starts if there is one (R378, R399). -/
def recloseLinks (s : State) : State :=
  let gone := (List.range 48).filter (fun n => (s.link n).link == .closed && (s.slot (16 + n)).valid)
  let s1 := batchIfReady (gone.foldl (fun s n => closePilot s n false) s)
  if gone.isEmpty then s1 else departures (startFormation s1)

/-- The faults that Pilot owes the berths of channels and ports lost while it was away (R34). -/
def raiseDue (s : State) : State :=
  s.pilot.lostHomes.foldl raiseLost { s with pilot := { s.pilot with lostHomes := [] } }

/-- What waited for Pilot is taken in (R26). -/
def takeWaiting (s : State) : State :=
  mgmtAct <| finishWaiting ((List.range 48).foldl (fun s n => pilotTakes 16 s n) (wipeUnwiped (recloseLinks (regate (raiseDue s)))))

/-! ### The drain (R207, R566) -/

/-- JRN_AQ_POP: Pilot takes the next entry. One that reports a failed tag has every berth whose record is UNUSABLE rinsed: the entries
of several records coalesce, and only the first is named (R208, R308, R565). -/
def aqPop (s : State) : State :=
  let lost : Bool := match drainHead s with
    | some i => (match tget [] s.jrn.queues i with
      | e :: _ => e.kind == 0x0302
      | [] => false)
    | none => false
  if lost then
    ((s.vault.records.filter (fun x => x.2.unusable && decide (x.1 < 4096))).map (·.1)).foldl (fun s b => startRinse s b 0x05) (popAlarm s)
  else popAlarm s

/-- The alarms that waited are taken in, each island's in its order (R26, R566). -/
def takeAlarms (s : State) : State :=
  (List.range ((s.jrn.queues.map (fun q => q.2.length)).foldl (· + ·) 0)).foldl (fun s _ => aqPop s) s

/-- WARM_RESTART_RESUME: steps 5 to 7. A code digest that differs from the one saved halts with 0xA4; else Pilot is back in service. -/
def warmResume (s : State) (codeDigest : Bytes) : State :=
  if s.pilot.phase ≠ .warm then s
  else if codeDigest ≠ s.pilot.restartDigest then firmwareHalt s 0xA4
  else
    let s1 := { s with
      pilot := { s.pilot with phase := .firmware, warmGuard := true }
      ring := { s.ring with ready := true } }
    let s2 := takeWaiting (takeAlarms (rebroadcast s1))
    record (if s2.pilot.phase = .firmware then showStat s2 s2.pilot.milestone else s2) 0x0300 0 0

def execWarmRestartGuardExpiry (s : State) : Out :=
  whenRunning s (fun s => { s with pilot := { s.pilot with warmGuard := false } })

/-! ### Halts (R131, R132) -/

/-- The codes of the ROM's own halts, and those of firmware (R131). -/
def romHaltCode (c : Byte) : Bool := decide (0x81 ≤ c.toNat ∧ c.toNat ≤ 0x95)
def firmwareHaltCode (c : Byte) : Bool := decide (0xA0 ≤ c.toNat ∧ c.toNat ≤ 0xA6)

/-- PILOT_HALT: a check of the ROM or of firmware fails. A code R131 does not list for it shows as 0xFF or 0xA6. -/
def pilotHalts (s : State) (c : Byte) : State :=
  match s.pilot.phase with
  | .rom => halt s (if romHaltCode c then c else 0xFF)
  | .hold => halt s (if romHaltCode c then c else 0xFF)
  | .firmware => pilotHalt s (if firmwareHaltCode c then c else 0xA6)
  | .warm => pilotHalt s (if firmwareHaltCode c then c else 0xA6)
  | _ => s

def execPilotHalt (code : Byte) (s : State) : Out := whenRunning s (pilotHalts · code)

/-- Pilot's cores run. -/
def coresRun (s : State) : Bool := s.pilot.phase != .reset && s.pilot.phase != .halted && s.pilot.phase != .stopped

/-! ### Island restarts (R563, R564) -/

/-- The Boarding messages to which a site owes its reply: a WIPE, what SEND sent, those of its step while their reply is awaited, and
IDLE_TESTs whose report is awaited. -/
def inFlight (s : State) (k : Nat) : List SiteMsg :=
  let x := s.site k
  (if x.wiping then [.wipe]
   else if x.txBusy then [.raw (mread 0 x.txBuf 0 x.txLen.toNat)]
   else if x.step = .d then
     (match x.load, siteImage s k with
       | some a, some e => [.load a (pLength e - 64) (pHash e)]
       | _, _ => [])
   else if x.awaiting then stepAsks x.step
   else []) ++ (tget [] s.press.tests k).map .selfTest

/-- ISLAND_RESTART of the host guard or the Boarding agent: its state is read back whole; a Boarding message in flight is sent
again, and its reply limit starts anew. -/
def islandRestart (s : State) (i : Island) : State :=
  let note_ (s : State) : State := alarm s i 0x0203 ((srcKindOf i).setWidth 32) 0
  match i with
  | .hostGuard => note_ s
  | .boarding =>
    note_ ((List.range 12).foldl (fun s k => (inFlight s k).foldl (fun s m => sendSite s k m) s) s)
  | _ => s

def execIslandRestart (isl : Island) (s : State) : Out := whenRunning s (islandRestart · isl)

/-- An island's clock stops; a lane or array fails closed (R74). -/
def pllStop (s : State) (i : Island) : State :=
  let x := s.island i
  s.setIsland i { x with
    pll := false
    parked := match i with
      | .pier _ => true
      | .gangway _ => true
      | .press _ => true
      | _ => x.parked }

/-- Pilot's cores stand: the phase they were in is kept. A halted Pilot stays halted. -/
def standCores (s : State) : State :=
  if s.pilot.phase = .halted ∨ s.pilot.phase = .stopped then s
  else { s with pilot := { s.pilot with phase := .stopped, stoppedIn := s.pilot.phase } }

/-- Stopped cores go on where they were, once PD0 has its clock (R74, R192). -/
def resumeCores (s : State) : State :=
  if s.pilot.phase = .stopped ∧ clocked s .trustCore = true then { s with pilot := { s.pilot with phase := s.pilot.stoppedIn } } else s

/-- PLL_LOCK_LOSS (R74): the loss of a lane is a lane fault, which Darn handles (R361); an array faults (R444); an engine leaves
service (R562); the host guard and the Boarding agent restart, and their clock with them (R563). The Trust Core's loss stops
Pilot's cores and PD0 with them, and that of the vault and fuse island its commands, until a reset: R74 names nothing more for
these two (log entry 167). -/
def pllLoss (s : State) (i : Island) (readable spareOk : Bool) : State :=
  if !islandExists i then s
  else
    match i with
    | .pier _ => pllStop (darnAt s (islandIx i) .pllLoss readable spareOk) i
    | .gangway _ => pllStop (darnAt s (islandIx i) .pllLoss readable spareOk) i
    | .press n => pllStop (arrayFault s n .pllLoss) i
    | .ferry e => pllStop (engineFault s e) i
    | .hostGuard => islandRestart s i
    | .boarding => islandRestart s i
    | .trustCore => standCores (pllStop s i)
    | .vaultFuse => pllStop s i

def execPllLockLoss (isl : Island) (s : State) (stateReadable spareOk : Bool := true) : Out :=
  whenPress s (pllLoss · isl stateReadable spareOk)

/-- VAULT_ISLAND_RESTART (R564): the vault keeps its entries and ends its command as it would have; a fuse operation stops as a reset
would stop it, its pulse cut at `cutLevel` (R160), and reads 0x0A; a transition stops with ERR 0x07. -/
def execVaultIslandRestart (s : State) (cutLevel : BitVec 3 := 0) : Out :=
  whenRunning s (fun s =>
    let s1 := if s.fuse.op.isSome then { s with fuse := pulseArray s.fuse cutLevel } else s
    alarm (fuseCut s1 0x0A) .vaultFuse 0x0203 1 0)

/-- JRN_AQ_POP.POP (R578): Pilot's firmware takes the head entry; while none runs, the write removes the entry and no more. -/
def execJrnAqPop (s : State) : Out :=
  whenCommanded s (fun s => if pilotUp s then aqPop s else (drainOne s).1)

end Sys2Proof.Machine
end

