-- ==== Sys2Proof/Machine/Debug.lean ====
section
/-! DEFINITION. Debug authorisation (05): the DEBUG request of the JTAG mailbox, LC_DBG_REQ.GRANT, and what an invasive right
destroys before it takes effect; and the rows after which a mailbox request that waited is served. -/

namespace Sys2Proof.Machine

/-- The rights a state's ceiling allows (R189, R194). -/
def debugCeiling (lc : BitVec 4) : BitVec 10 :=
  if lc = 3 then 0x328 else if lc = 1 ∨ lc = 2 ∨ lc = 4 then 0x3FF else 0

/-- Every Gangway link closes until reset (R198, R378). -/
def closeForDebug (s : State) : State :=
  (List.range 48).foldl (fun s n => modLink (closeLink s n) n (fun x => { x with link := .closed, dead := true })) s

/-- Step 3 of R198: DESTROY_ALL, after which the links close, the sessions are gone and every use of slots 0-3 is refused;
an ENROL_INSTALL that waits for its settings write is answered with 0x03 (R199). -/
def destroyForDebug (s : State) : State :=
  let s1 := { destroyAllNow s with sessions := [] }
  installRefused (closeForDebug { s1 with vault := { s1.vault with invOpen := true } })

/-- The mailbox's own DEBUG request drives the grant in hand. -/
def mboxGrant (s : State) : Bool := s.lc.mboxDrives && s.lc.mboxReq == 2

/-- A grant made: the rights take effect, a new nonce is drawn, and it is journalled. The mailbox request behind it ends. -/
def grantMade (s : State) (mbox : Bool) (rights : BitVec 10) : State :=
  let invasive : Bool := rights &&& invasiveMask != 0
  let s1 := { s with
    lc := { s.lc with grant := s.lc.grant ||| rights, reqRights := rights, err := 0, done := true }
    vault := { s.vault with invOpen := s.vault.invOpen || invasive } }
  let s2 := drawNonce s1
  note (if mbox then mboxEnd s2 0 else s2) 0x0501 (rights.setWidth 32) 0

/-- A request refused by Pilot, or by the block with its code in ERR: the mailbox request behind it ends, a refused
certificate draws a new nonce (R196; in Maker there is none), and it is journalled. LC_XFER_STAT.ERR shows the block's
codes and not Pilot's 0x0A to 0x0D, which go to RESULT (DESIGN CHOICE, log entry 146). -/
def requestRefused (s : State) (mbox : Bool) (code : Byte) : State :=
  let s1 := if s.lc.state = 1 then s else drawNonce s
  note (if mbox then mboxEnd s1 code else s1) 0x0501 0 1

/-- A grant refused by the block. -/
def grantRefused (s : State) (mbox : Bool) (code : Byte) : State :=
  requestRefused { s with lc := { s.lc with err := code } } mbox code

/-- Steps 1 to 3 of R198 begin: every berth that is not FREE is rinsed and assignment closes; with every berth FREE the
vault is emptied at once. While VAULT_EMPTY is 0 ERR shows 0x09 (R203). -/
def invasiveBegin (s : State) (mbox : Bool) (rights : BitVec 10) : State :=
  let s1 := ((s.berths.filter (fun x => rinsable x.2)).map (·.1)).foldl (fun s b => startRinse s b 0x06) s
  let s2 := { s1 with
    pilot := { s1.pilot with assignClosed := true }
    lc := { s1.lc with
      grantPending := some rights, reqRights := rights, mboxDrives := s1.lc.mboxDrives || mbox
      err := if s1.lc.vaultEmpty then s1.lc.err else 0x09 } }
  if allBerthsFree s2 then destroyForDebug s2 else s2

/-- GRANT of rights, Pilot's own or for the mailbox's request (R192, R198, R203). An invasive right waits for R198's steps;
one asked for while another waits is refused with 0x09. -/
def grantGo (s : State) (mbox : Bool) (rights : BitVec 10) : State :=
  let s1 := { s with lc := { s.lc with reqRights := rights } }
  if s.lc.busy then grantRefused s1 mbox 0x01
  else if rights &&& ~~~debugCeiling s.lc.state ≠ 0 then grantRefused s1 mbox 0x05
  else if rights &&& invasiveMask = 0 then grantMade s mbox rights
  else if s.lc.grantPending.isSome then grantRefused s1 mbox 0x09
  else invasiveBegin s mbox rights

def execGrant (rights : BitVec 10) (s : State) : Out := whenPressCommanded s (grantGo · false rights)

/-- The vault is carrying out a DESTROY_ALL. -/
def destroying (s : State) : Bool :=
  (match s.vault.awaiting with
    | some (_, .destroyAll) => true
    | _ => false) || s.vault.afterQueue.any (fun x => x.2 == .destroyAll)

/-- INVASIVE_GRANT_COMPLETE (R198, R203): Pilot sets GRANT for the rights that wait. With every berth FREE at last and the
vault not yet being emptied, step 3 begins. The block grants only with VAULT_EMPTY at 1: asked before the rinses or
DESTROY_ALL have ended it refuses the request with 0x09. -/
def invasiveComplete (s : State) : State :=
  match s.lc.grantPending with
  | none => s
  | some rights =>
    let s1 := { s with lc := { s.lc with grantPending := none } }
    if allBerthsFree s && s.vault.invOpen && s.lc.vaultEmpty then grantMade s1 (mboxGrant s) rights
    else if allBerthsFree s && !destroying s then destroyForDebug { s with lc := { s.lc with err := 0x09 } }
    else grantRefused s1 (mboxGrant s) 0x09

def execInvasiveGrantComplete (s : State) : Out := whenPressCommanded s invasiveComplete

/-- A DEBUG request as Pilot or the ROM serves it: the state and the byte count, the nonce, the certificate, then the block's
checks of its rights. -/
def serveDebug (s : State) : State :=
  let msg := mboxBytes s
  let lc := s.lc.state
  if lc = 0 ∨ 5 ≤ lc.toNat then mboxEnd s 0x0C
  else if lc = 1 then
    if msg.length ≠ 4 then mboxEnd s 0x0C
    else if 1024 ≤ leAt msg 0 4 then grantRefused s true (if s.lc.busy then 0x01 else 0x05)
    else grantGo s true (BitVec.ofNat 10 (leAt msg 0 4))
  else if msg.length ≠ 7540 then mboxEnd s 0x0C
  else
    match s.lc.nonce with
    | none => requestRefused s true 0x0A
    | some nonce =>
      if !tokenOk s msg 2 lc.toNat 0 (if lc = 3 then 1 else 3) nonce then requestRefused s true 0x0B
      else if 1024 ≤ leAt msg 32 4 then grantRefused s true (if s.lc.busy then 0x01 else 0x05)
      else grantGo s true (BitVec.ofNat 10 (leAt msg 32 4))

/-- LC_MBOX_CMD.REQ 0x2 DEBUG (R191). -/
def execDebug (s : State) : Out :=
  whenPress s (fun s =>
    if mboxOpen s then (let s1 := mboxSubmit s 2; if mboxServed s1 then serveDebug s1 else s1) else s)

/-! ### A request that waited (R191) -/

/-- A request submitted while nobody served the mailbox is still in hand: it drives no transition, wipe or grant. -/
def mboxWaits (s : State) : Bool := s.lc.mboxBusy && !s.lc.mboxDrives && mboxServed s

/-- Pilot or the boot ROM begins to serve the mailbox, sees BUSY, and serves the request that waits (R191). -/
def takeMbox (s : State) : State :=
  if !mboxWaits s then s
  else
    match s.lc.mboxReq.toNat with
    | 1 => serveTransition s
    | 2 => serveDebug s
    | 3 => serveResumeWipe s
    | _ => mboxEnd s 0x0C

/-- A nonzero LC_MBOX_CMD.REQ written by Pilot submits the request in LC_MBOX as JTAG's write does; ignored while BUSY (R202). -/
def mboxCommand (s : State) (req : BitVec 4) : State :=
  if req = 0 ∨ s.lc.mboxBusy then s
  else if 3 < req then mboxEnd (mboxSubmit s req) 0x0C
  else takeMbox (mboxSubmit s req)

def execRomPolicy (s : State) : Out := whenRunning s (fun s => takeMbox (romPolicy s))

def execEntropyStartupDone (pass : Bool) (s : State) : Out := whenRunning s (fun s => takeMbox (entropyStartup s pass))

def execFlashSfdpDone (answers octal : Bool) (sectors : Nat) (s : State) : Out :=
  whenRunning s (fun s => takeMbox (sfdpDone s answers octal sectors))

def execFirmwareEntry (s : State) : Out := whenRunning s (fun s => takeMbox (firmwareEntry s))

def execWarmRestartResume (codeDigest : Bytes) (s : State) : Out := whenRunning s (fun s => takeMbox (warmResume s codeDigest))

end Sys2Proof.Machine
end

