-- ==== Sys2Proof/Machine/Regs.lean ====
section
/-! DEFINITION. The Pilot address map as a load reads it (17): the registers of every block (01, 03-06, 10-12, 14-17), by the
addresses of R580. -/

namespace Sys2Proof.Machine

/-! ### Fields and buffers -/

/-- A word from its fields: lowest bit, width and value. -/
def fields (l : List (Nat × Nat × Nat)) : Word := BitVec.ofNat 32 (l.foldl (fun n f => n + f.2.2 % 2 ^ f.2.1 * 2 ^ f.1) 0)

def lowHalf (v : DWord) : Word := v.setWidth 32
def highHalf (v : DWord) : Word := v.extractLsb' 32 32

/-- Element k of a register array at `base` with `count` elements of `stride` bytes, and the offset inside it. -/
def inArray (base count stride o : Nat) : Option (Nat × Nat) :=
  if base ≤ o ∧ o < base + count * stride then some ((o - base) / stride, (o - base) % stride) else none

/-- The word at an offset of a byte string held as consecutive registers (R590). -/
def bytesWord (b : Bytes) (o : Nat) : Word := BitVec.ofNat 32 (leAt b o 4)

/-! ### The state a lane shows (R369, R371, R405) -/

/-- PIER_STAT.STATE, with which GW_STAT.STATE agrees. -/
def laneCode (s : State) (ix : Nat) : Nat :=
  let x := tget islandInit s.isl ix
  if x.test = .failed ∨ x.service = .failed then 6
  else if x.test ≠ .passed then 0
  else if x.service = .spotTest then 5
  else if x.service = .inDarn then 4
  else if x.parked then 1
  else if (homeOf s ix).isNone then 3
  else 2

/-- The island number of the channel, port or link a lane serves now. -/
def laneCovers (s : State) (ix : Nat) : Option Nat :=
  match homeOf s ix with
  | some h => if laneCode s ix = 2 ∧ servedBy s h = ix then some h else none
  | none => none

/-- PIER_ID.COVERS: the channel of the stack, or the port; GW_ID.COVERS: the link. -/
def coversCode (s : State) (ix : Nat) : Nat :=
  match laneCovers s ix with
  | some h => if h < 136 then h % 17 else if h < 154 then h - 136 else h - 154
  | none => 0xFF

/-- The cover a group's block shows (R371): the spare that covers, for a failed lane or for a spot test, and the lane covered, by
instance; where both Tier-2 spares cover, the last Darn's (DESIGN CHOICE, log entry 184). -/
def coverShown (s : State) (spare lane : Byte) (members : List Nat) : Byte × Byte :=
  let inst (c : Nat × Nat) : Byte × Byte := (BitVec.ofNat 8 (instOf (islandAt c.1)), BitVec.ofNat 8 (instOf (islandAt c.2)))
  let cs := (s.cover.filter (fun c => members.contains c.1)).map inst
  (cs.find? (· == (spare, lane))).getD (cs.head?.getD (0xFF, 0xFF))

/-- PGRP_DARN and GGRP_DARN. -/
def darnWord (s : State) (spare lane : Byte) (test : Bool) (noSpare : Bool) (members : List Nat) : Word :=
  let running : Bool := members.any (fun ix => (tget islandInit s.isl ix).service == .inDarn)
  let c := coverShown s spare lane members
  fields [(16, 8, c.1.toNat), (8, 8, c.2.toNat), (0, 3, if running then 2 else if test then 1 else if noSpare then 3 else 0)]

/-- PRESS_STAT.STATE. -/
def arrayCode (s : State) (n : Nat) : Nat :=
  let x := tget islandInit s.isl (206 + n)
  if x.test = .failed ∨ x.service = .failed ∨ (s.array n).noFeed then 6
  else if x.test ≠ .passed then 0
  else if x.service = .spotTest ∨ s.press.test = some n then 5
  else if x.parked then 1
  else if (s.array n).run.isSome then 3
  else 2

/-! ### Blocks -/

/-- A domain that is switching or runs its power-up self-test (R48): one that only waits for its microcode is neither. -/
def domainBusy (s : State) (pd : Nat) : Bool :=
  let open_ (t : TestState) : Bool := t == .pending || t == .running
  s.power.switching.getLsbD pd &&
    ((pd == 0 && open_ s.pilot.coreTest) || (pd == 1 && open_ s.pilot.vaultTest) ||
      (domainIslands pd).any (fun ix => open_ (tget islandInit s.isl ix).test))

/-- Power (R47-R50). -/
def powerRead (s : State) (o : Nat) : Word :=
  if o = 0 then s.power.domOn.setWidth 32
  else if o = 4 then
    fields [(20, 1, b2n ((List.range 20).any (domainBusy s))), (0, 20, s.power.domUp.toNat)]
  else if o = 8 then fields [(1, 5, s.power.lastDom.toNat), (0, 1, b2n s.power.refused)]
  else 0

/-- The Boarding agent (R125-R129). -/
def boardRead (s : State) (o : Nat) : Word :=
  if o = 0 then fields [(3, 1, b2n s.board.outGo), (2, 1, b2n s.board.inFull), (1, 1, b2n s.board.loadEn), (0, 1, b2n s.board.mgmtRun)]
  else if 0x40 ≤ o ∧ o < 0x80 then mword s.board.mgmtIn (o - 0x40)
  else if 0x80 ≤ o ∧ o < 0xC0 then mword s.board.mgmtOut (o - 0x80)
  else match inArray 0x100 12 4 o, inArray 0x140 12 4 o, inArray 0x10000 12 0x4000 o with
    | some (k, _), _, _ => fields [(16, 14, (s.site k).txLen.toNat)]
    | _, some (k, _), _ =>
      let x := s.site k
      fields [(16, 14, x.rxLen.toNat), (8, 8, x.err.toNat), (3, 1, b2n x.rxReady), (2, 1, b2n x.txBusy), (1, 1, b2n x.sbUp),
        (0, 1, b2n x.present)]
    | _, _, some (k, i) => if i < 0x2000 then mword (s.site k).txBuf i else mword (s.site k).rxBuf (i - 0x2000)
    | _, _, _ => 0

/-- FUSE_REGION_STAT_r (R174). -/
def regionStat (s : State) (r : Nat) : Word :=
  let ws := regionWords s.fuse r
  if !s.fuse.sensed then 0 else fields [(24, 8, if regionKind r = .step then stepCount s.fuse r else 0), (16, 8, (ws.filter (·.cls == .torn)).length),
    (8, 8, (ws.filter (·.cls == .marginal)).length), (7, 1, b2n (s.fuse.tacks.any (fun t => t.1 / 128 == r))),
    (6, 1, b2n (regionSecret r && regionState s.fuse r != 0 && !regionUsable s.fuse r)), (5, 1, b2n (regionSecret r)),
    (4, 1, b2n (rlocked s.fuse r)), (3, 1, b2n (wlocked s.fuse r)), (0, 3, (regionState s.fuse r).toNat)]

/-- FUSE_SHADOW_w (R175): tacks apply; a Torn, Wiped, secret or read-locked word reads 0. R166 gives every reader the tack value and R175
has such a word read 0: for a tack on one the model reads 0 here (DESIGN CHOICE, log entry 173). -/
def shadowRead (s : State) (w : Nat) : BitVec 64 :=
  let x := s.shadow w
  if regionSecret (w / 128) ∨ rlocked s.fuse (w / 128) ∨ x.cls = .torn ∨ x.cls = .wiped then 0 else fuseValue s.fuse w

/-- The fuse controller (R169-R176). -/
def fuseRead (s : State) (o : Nat) : Word :=
  let f := s.fuse
  if o = 0 then fields [(16, 8, f.lastErr.toNat), (11, 1, b2n f.compat), (10, 1, b2n f.vppOk), (9, 1, b2n (!f.tacks.isEmpty)),
    (8, 1, b2n f.sensed), (1, 1, b2n f.done), (0, 1, b2n f.busy)]
  else if o = 4 then fields [(16, 12, f.cmdWord.toNat)]
  else if o = 8 then lowHalf f.wdata
  else if o = 0xC then highHalf f.wdata
  else if o = 0x10 then f.alarm.setWidth 32
  else if o = 0x14 then f.query.setWidth 32
  else if o = 0x18 then
    let w := f.query.toNat
    let x := s.shadow w
    let c : Nat := match x.cls with
      | .blank => 0
      | .clean => 1
      | .marginal => 2
      | .torn => 3
      | .wiped => 4
    fields [(8, 8, if regionSecret (w / 128) ∨ rlocked f (w / 128) then 0 else x.rawCheck.toNat), (3, 1, b2n x.marg), (0, 3, c)]
  else match inArray 0x100 32 4 o, inArray 0x200 16 0x10 o, inArray 0x1000 4096 8 o with
    | some (r, _), _, _ => regionStat s r
    | _, some (t, i), _ =>
      let e := tget tackInit f.tackStaged t
      if i = 0 then fields [(31, 1, b2n e.en), (0, 12, e.word.toNat)]
      else if i = 4 then lowHalf e.value
      else if i = 8 then highHalf e.value
      else 0
    | _, _, some (w, i) => if i = 0 then lowHalf (shadowRead s w) else highHalf (shadowRead s w)
    | _, _, _ => 0

/-- Life cycle and debug (R202-R204). -/
def lcRead (s : State) (o : Nat) : Word :=
  let x := s.lc
  if o = 0 then fields [(12, 1, b2n x.doneThisBoot), (8, 4, (lcTarget s).toNat), (0, 4, x.state.toNat)]
  else if o = 4 then fields [(4, 4, x.xferTo.toNat)]
  else if o = 8 then fields [(8, 8, x.err.toNat), (2, 1, b2n x.vaultEmpty), (1, 1, b2n x.done), (0, 1, b2n x.busy)]
  else if 0x40 ≤ o ∧ o < 0x70 then mword x.digest (o - 0x40)
  else if 0x80 ≤ o ∧ o < 0xB0 then bytesWord (x.nonce.getD []) (o - 0x80)
  else if o = 0xC0 then x.grant.setWidth 32
  else if o = 0xC4 then x.reqRights.setWidth 32
  else if o = 0xC8 then x.mboxLen.setWidth 32
  else if o = 0xCC then x.mboxReq.setWidth 32
  else if o = 0xD0 then fields [(8, 8, x.mboxResult.toNat), (1, 1, b2n x.mboxDone), (0, 1, b2n x.mboxBusy)]
  else if o = 0xD4 then x.resultCode.setWidth 32
  else if 0x4000 ≤ o ∧ o < 0x8000 then mword x.mbox (o - 0x4000)
  else 0

/-- The vault (R234-R237). -/
def vaultRead (s : State) (o : Nat) : Word :=
  let v := s.vault
  let q := v.queryIndex.toNat
  if o = 0 then fields [(16, 8, v.err.toNat), (5, 1, b2n v.invOpen), (4, 1, b2n v.drbgOk), (3, 1, b2n v.tagFail), (2, 1, b2n v.rotDone),
    (1, 1, b2n v.done), (0, 1, b2n v.busy)]
  else if o = 4 then fields [(28, 3, v.cmd.field.toNat), (16, 12, v.cmd.index.toNat), (9, 4, v.cmd.typ.toNat), (8, 1, b2n v.cmd.space)]
  else if o = 8 then v.attr
  else if o = 0xC then v.len.setWidth 32
  else if o = 0x10 then v.aux.setWidth 32
  else if o = 0x14 then fields [(12, 1, b2n v.querySpace), (0, 12, q)]
  else if o = 0x18 then
    if v.querySpace then
      fields [(16, 16, (s.record q).epoch.toNat), (8, 8, (recordFlags (s.record q)).toNat), (0, 1, b2n (s.record q).opened)]
    else if q < 64 then fields [(16, 16, (s.slot q).epoch.toNat), (8, 8, (s.slot q).typ.toNat), (0, 1, b2n (s.slot q).valid)]
    else 0
  else if o = 0x1C then if v.querySpace ∨ 64 ≤ q then 0 else attrWord (s.slot q)
  else if o = 0x20 then v.rotBerth.setWidth 32
  else if 0x1000 ≤ o ∧ o < 0x2000 then mword v.data (o - 0x1000)
  else 0

/-- The crypto engines (R238). -/
def cryptoRead (s : State) (o : Nat) : Word :=
  let c := s.crypto
  if o = 0 then fields [(8, 8, c.err.toNat), (2, 1, b2n c.pass), (1, 1, b2n c.done), (0, 1, b2n c.busy)]
  else if o = 4 then fields [(16, 6, c.keysel.toNat)]
  else if o = 8 then c.len.setWidth 32
  else if 0x2000 ≤ o ∧ o < 0x4000 then mword c.inBuf (o - 0x2000)
  else if 0x4000 ≤ o ∧ o < 0x6000 then mword c.outBuf (o - 0x4000)
  else 0

/-- The entry at the head of the drain (R565). -/
def drainEntry (s : State) : Option AlarmEntry := (drainHead s).bind (fun i => (tget [] s.jrn.queues i).head?)

/-- The journal block (R578, R579). The head entry is laid out as bytes 8-39 of R570, with byte 11 reading 0. -/
def jrnRead (s : State) (o : Nat) : Word :=
  let waiting := (s.jrn.queues.filter (fun q => !q.2.isEmpty)).length
  if o = 0 then fields [(8, 1, b2n (drainEntry s).isSome), (0, 8, min waiting 255)]
  else if 0x40 ≤ o ∧ o < 0x60 then
    match drainEntry s with
    | some e =>
      let r := recordBytes s 0 e
      bytesWord (slice r 8 3 ++ [0] ++ slice r 12 28) (o - 0x40)
    | none => 0
  else if 0x100 ≤ o ∧ o < 0x140 then mword s.jrn.post (o - 0x100)
  else 0

/-- The staged entry that PIER_WIN_IDX addresses. -/
def winEntry (x : PierSt) (n : Nat) : WinEntry :=
  match winKey n x.winPort.toNat x.winIndex.toNat with
  | some k => tget winNone x.winStaged k
  | none => winNone

/-- A Pier (R369, R372). -/
def pierRead (s : State) (n o : Nat) : Word :=
  let x := s.pier n
  let e := winEntry x n
  let i := x.bindIndex.toNat
  if o = 0 then fields [(20, 8, coversCode s n), (16, 4, pierGroup n), (8, 1, b2n (isSpare n)), (0, 8, n)]
  else if o = 4 then fields [(1, 1, b2n x.refuseAlarm), (0, 1, b2n x.park)]
  else if o = 8 then fields [(16, 8, x.keys.length), (8, 8, x.missQ.length), (7, 1, b2n (decide (64 ≤ x.capBuf.length))),
    (6, 1, b2n x.fill.isSome), (5, 1, b2n x.zero.isSome), (4, 1, b2n x.sweep.isSome), (0, 3, laneCode s n)]
  else if o = 0xC then fields [(16, 12, x.lastBerth), (8, 8, x.lastCause.toNat), (0, 7, x.err.toNat)]
  else if o = 0x14 then fields [(16, 1, b2n (winApplied n x.winStaged != x.win || x.bindStaged != x.bind)), (0, 16, x.lastSeq.toNat)]
  else if o = 0x20 then fields [(10, 4, x.winPort.toNat), (0, 10, x.winIndex.toNat)]
  else if o = 0x24 then fields [(0, 17, e.base)]
  else if o = 0x28 then fields [(0, 17, e.size)]
  else if o = 0x2C then fields [(20, 1, b2n e.board), (16, 4, e.site), (12, 1, b2n e.readOnly), (0, 12, e.berth)]
  else if o = 0x30 then fields [(0, 10, i)]
  else if o = 0x34 then
    if !bindable i then 0
    else match tfind x.bindStaged i with
      | some b => fields [(12, 1, 1), (0, 12, b)]
      | none => fields [(0, 12, tget 0 x.bindOff i)]
  else if o = 0x40 then x.zeroBase.setWidth 32
  else if o = 0x44 then x.zeroSize.setWidth 32
  else if o = 0x50 then fields [(13, 1, b2n x.sweepDone), (12, 1, b2n x.sweep.isSome),
    (0, 12, match x.sweep with
      | some (b, _) => b
      | none => x.sweepBerth)]
  else match inArray 0x60 7 4 o, inArray 0x100 4 0x20 o with
    | some (k, _), _ => BitVec.ofNat 32 (tget 0 x.counts k)
    | _, some (k, j) =>
      match tfind x.cursors k with
      | some c =>
        if j = 0 then fields [(13, 1, b2n c.done), (12, 1, 1), (0, 12, c.berth)]
        else if 0x10 ≤ j then c.sum.extractLsb' (8 * (j - 0x10)) 32
        else 0
      | none => 0
    | _, _ => 0

/-- A Pier group's block: only its own registers are read (R371, R372). -/
def pierGroupRead (s : State) (g o : Nat) : Word :=
  let x := s.pgroup g
  if o = 0x800 then x.ack.setWidth 32
  else if o = 0x804 then darnWord s x.darnSpare x.darnLane x.test.isSome x.noSpare (groupPiers g)
  else if o = 0x808 then fields [(8, 1, b2n x.hold), (0, 8, x.period.toNat)]
  else if o = 0x80C then BitVec.ofNat 32 x.darns
  else 0

/-- A Gangway lane (R405, R409): its own identity and state, and the registers of the link it serves, or its own. -/
def gwRead (s : State) (n o : Nat) : Word :=
  let ix := 154 + n
  let x := s.link (laneRegs s n)
  if o = 0 then fields [(20, 8, coversCode s ix), (16, 4, if n < 48 then n / 12 else n - 48), (8, 1, b2n (decide (48 ≤ n))), (0, 8, n)]
  else if o = 4 then fields [(0, 1, b2n x.park)]
  else if o = 8 then
    let j : Nat := match x.job with
      | .none => 0
      | .agreeing => 1
      | .keyed => 2
      | .held => 3
    let l : Nat := match x.link with
      | .down => 0
      | .opening => 1
      | .attested => 2
      | .closed => 3
    fields [(16, 8, x.peerLink.toNat), (10, 2, j), (8, 2, l), (7, 1, b2n x.pendLink), (6, 1, b2n x.pendJob), (5, 1, x.genTx),
      (0, 3, laneCode s ix)]
  else if o = 0xC then fields [(8, 8, x.lastCause.toNat), (0, 7, x.err.toNat)]
  else if o = 0x10 then fields [(12, 1, b2n x.stagedValid), (0, 12, x.stagedBerth.toNat)]
  else if o = 0x18 then fields [(9, 4, x.stagedCount.toNat), (0, 9, x.stagedBase.toNat)]
  else if o = 0x80 then fields [(16, 11, x.cfLen.toNat), (8, 8, x.cfKind.toNat), (3, 1, b2n x.cfMore), (2, 1, b2n (!x.rxq.isEmpty)),
    (1, 1, b2n (cfBusy x))]
  else if o = 0x84 then
    match x.rxq.head? with
    | some (k, m, b) => fields [(16, 11, b.length), (8, 8, k.toNat), (0, 1, b2n m)]
    | none => 0
  else if 0x400 ≤ o ∧ o < 0x800 then mword x.cfTx (o - 0x400)
  else if 0x800 ≤ o ∧ o < 0xC00 then
    match x.rxq.head? with
    | some (_, _, b) => bytesWord b (o - 0x800)
    | none => 0
  else match inArray 0x20 8 4 o, inArray 0x40 6 4 o with
    | some (k, _), _ => BitVec.ofNat 32 (tget 0 x.ctrs (k / 2) / 2 ^ (32 * (k % 2)))
    | _, some (k, _) => BitVec.ofNat 32 (tget 0 x.counts k)
    | _, _ => 0

def gwGroupRead (s : State) (g o : Nat) : Word :=
  let x := s.ggroup g
  if o = 0x800 then x.ack.setWidth 32
  else if o = 0x804 then darnWord s x.darnSpare x.darnLane x.test.isSome x.noSpare ((groupLanes g).map (154 + ·))
  else if o = 0x808 then fields [(8, 1, b2n x.hold), (0, 8, x.period.toNat)]
  else if o = 0x80C then BitVec.ofNat 32 x.darns
  else 0

/-- A Press array (R454, R456). -/
def arrayRead (s : State) (n o : Nat) : Word :=
  let x := s.array n
  if o = 0 then fields [(4, 2, n / 4), (0, 4, n)]
  else if o = 4 then fields [(0, 1, b2n x.park)]
  else if o = 8 then fields [(8, 8, if x.run.isSome then x.fmt.toNat else 0), (0, 3, arrayCode s n)]
  else if o = 0xC then x.err.setWidth 32
  else match inArray 0x20 4 4 o with
    | some (k, _) => BitVec.ofNat 32 (if k = 1 then min (x.clocks / 1024) 0xFFFFFFFF else tget 0 x.counts k)
    | none => 0

/-- The sampler (R455, R456). -/
def samplerRead (s : State) (o : Nat) : Word :=
  if o = 0 then fields [(16, 8, (s.press.berths.filter (fun x => x.2.ringHeld)).length), (5, 1, b2n (saturated s)), (0, 5, arraysIn s)]
  else if o = 4 then BitVec.ofNat 32 (queueClocks s / 1024)
  else if o = 0x40 then fields [(8, 1, b2n s.press.hold), (0, 8, s.press.period.toNat)]
  else if o = 0x44 then fields [(0, 5, s.press.test.getD 0x1F)]
  else match inArray 0x10 8 4 o with
    | some (k, _) => BitVec.ofNat 32 (basketFree s k)
    | none => 0

/-- An engine's service path has a burst in flight: a feed of array 2e or 2e + 1 (R515), or a record of a berth that it serves
(R515, R562). -/
def serviceBusy (s : State) (e : Nat) : Bool :=
  s.ferry.bursts.any (fun p => match p with
    | .press n => n / 2 == e
    | .sampler b => recordEngine s b == some e
    | _ => false)

/-- Ferry's Pilot side (R518, R519). -/
def ferryRead (s : State) (o : Nat) : Word :=
  if o = 0x1000 then
    fields [(8, 8, (List.range 8).foldl (fun n e => n + b2n (serviceBusy s e) * 2 ^ e) 0),
      (0, 8, (List.range 8).foldl (fun n e => n + b2n (tfind s.ferry.engs e).isSome * 2 ^ e) 0)]
  else match inArray 0 8 0x100 o, inArray 0x2000 512 4 o, inArray 0x3000 512 4 o with
    | some (p, i), _, _ =>
      let x := s.pch p
      if i = 0 then fields [(3, 3, x.retry.toNat), (2, 1, b2n x.digestEn)]
      else if i = 4 then fields [(16, 8, x.cause.toNat), (2, 1, b2n x.done), (1, 1, b2n x.halted), (0, 1, b2n x.busy)]
      else if i = 8 then fields [(0, 25, x.bytes)]
      else if 0x40 ≤ i ∧ i < 0x78 then mword x.desc (i - 0x40)
      else if 0x80 ≤ i ∧ i < 0xB0 then mword x.digest (i - 0x80)
      else 0
    | _, some (c, _), _ =>
      if c < 8 then 0
      else
        let m := tget chMapInit s.ferry.mapsStaged c
        fields [(16, 1, b2n m.valid), (12, 4, m.rel.toNat), (0, 12, m.berth.toNat)]
    | _, _, some (c, _) => if c < 8 then 0 else (s.ch c).share.setWidth 32
    | _, _, _ => 0

/-- The host guard's Pilot side (R557, R558). -/
def hostRead (s : State) (o : Nat) : Word :=
  let h := s.host
  if o = 0 then fields [(16, 13, if h.vfEnable then h.numVfs else 0), (1, 1, b2n h.vfEnable), (0, 1, b2n h.linkUp)]
  else if o = 4 then
    match h.events.head? with
    | some e => fields [(31, 1, 1), (27, 4, e.kind), (21, 6, e.slot), (0, 13, e.func)]
    | none => 0
  else if o = 0xC then h.respSlot.setWidth 32
  else if o = 0x10 then fields [(0, 11, h.quarantine.length)]
  else if o = 0x14 then fields [(0, 13, h.atc.length)]
  else match inArray 0x100000 64 0x8400 o with
    | some (k, i) => mword (s.hslot k).msg i
    | none => 0

/-- The Cable ring agent (R586, R588). -/
def cringRead (s : State) (o : Nat) : Word :=
  let r := s.ring
  if o = 0 then fields [(16, 8, r.eid.toNat), (8, 8, r.position.toNat), (3, 1, b2n s.pins.haltSeen), (2, 1, b2n r.held.isSome),
    (1, 1, b2n r.enumerated), (0, 1, b2n (bypHigh s))]
  else if o = 4 then fields [(1, 1, b2n r.ready)]
  else if o = 8 then fields [(16, 14, r.txLen.toNat), (8, 8, r.dstEid.toNat), (1, 1, b2n r.txBusy)]
  else if o = 0xC then fields [(16, 14, r.rxLen.toNat), (8, 8, r.srcEid.toNat), (1, 1, b2n r.busySent), (0, 1, b2n r.rxReady)]
  else if 0x2000 ≤ o ∧ o < 0x4000 then mword r.txBuf (o - 0x2000)
  else if 0x4000 ≤ o ∧ o < 0x6000 then mword r.rxBuf (o - 0x4000)
  else 0

/-! ### The map (R580, R581) -/

/-- A register block of the map, with its number where there are several. -/
inductive Block where
  | vault | fuse | lc | crypto | journal | power
  | pier (n : Nat) | pierGroup (g : Nat) | allPiers | gw (n : Nat) | gwGroup (g : Nat) | array (n : Nat) | sampler
  | ferry | host | board | ring
  deriving DecidableEq, Repr

/-- The block that holds an address at or above 0x2000_0000, and the offset. -/
def blockAt (a : Nat) : Option (Block × Nat) :=
  let o := a % 0x1000000
  match a / 0x1000000 with
  | 0x20 => some (.vault, o)
  | 0x21 => some (.fuse, o)
  | 0x22 => some (.lc, o)
  | 0x23 => some (.crypto, o)
  | 0x24 => some (.journal, o)
  | 0x25 => some (.power, o)
  | 0x30 =>
    if o < 154 * 0x1000 then some (.pier (o / 0x1000), o % 0x1000)
    else match inArray 0x100000 9 0x1000 o with
      | some (g, i) => some (.pierGroup g, i)
      | none => if 0x110000 ≤ o ∧ o < 0x111000 then some (.allPiers, o - 0x110000) else none
  | 0x31 =>
    if o < 52 * 0x1000 then some (.gw (o / 0x1000), o % 0x1000)
    else (inArray 0x100000 4 0x1000 o).map (fun x => (.gwGroup x.1, x.2))
  | 0x32 =>
    if o < 0x100000 then some (.array (o / 0x10000), o % 0x10000)
    else if o < 0x110000 then some (.sampler, o - 0x100000)
    else none
  | 0x33 => some (.ferry, o)
  | 0x34 => some (.host, o)
  | 0x35 => some (.board, o)
  | 0x36 => some (.ring, o)
  | _ => none

/-- A register of a block as a load reads it. Write-only and W1S fields and reserved offsets read 0; so do the broadcast
offsets of the group blocks. -/
def regRead (s : State) : Block → Nat → Word
  | .vault, o => vaultRead s o
  | .fuse, o => fuseRead s o
  | .lc, o => lcRead s o
  | .crypto, o => cryptoRead s o
  | .journal, o => jrnRead s o
  | .power, o => powerRead s o
  | .pier n, o => pierRead s n o
  | .pierGroup g, o => pierGroupRead s g o
  | .allPiers, _ => 0
  | .gw n, o => gwRead s n o
  | .gwGroup g, o => gwGroupRead s g o
  | .array n, o => arrayRead s n o
  | .sampler, o => samplerRead s o
  | .ferry, o => ferryRead s o
  | .host, o => hostRead s o
  | .board, o => boardRead s o
  | .ring, o => cringRead s o

/-- A 32-bit load of a block register (R582): aligned; an address in no block reads 0. -/
def pilotRead (s : State) (a : Nat) : Word :=
  if a % 4 ≠ 0 then 0
  else match blockAt a with
    | some (b, o) => regRead s b o
    | none => 0

end Sys2Proof.Machine
end

