-- ==== Sys2Proof/Machine/BarRead.lean ====
section
/-! DEFINITION. Registers as a reader outside Pilot finds them: the host at BAR0 of PF0, PF1 and the VFs (09, 12, 14-16), by the
layouts of R522 and R523, and JTAG at the life-cycle mailbox (05). A read changes nothing. -/

namespace Sys2Proof.Machine

/-! ### Fields -/

/-- The identity page (R524): KIND and BERTH; the versions of declarations (R413), Prirdo (R265) and mailbox framing; where MB3
stands; and the counters of a VF. -/
def identRead (s : State) (f : Func) (o : Nat) : Word :=
  let x := s.fn f
  if o = 0 then
    match f with
    | .pf0 => 0
    | .pf1 => fields [(24, 2, 1)]
    | .vf n => fields [(24, 2, 2), (0, 12, n)]
  else if o = 4 then
    match f with
    | .vf _ => fields [(16, 8, if max 1 ((policyWord s.fuse 2).toNat / 2 ^ 24 % 256) ≤ 1 then 1 else 0),
        (8, 8, (versionBits (prirdoSupported s)).toNat), (0, 8, 1)]
    | _ => 1
  else if o = 8 then
    fields [(2, 1, b2n (s.pilot.phase == .warm)), (1, 1, b2n (s.pilot.phase == .halted)), (0, 1, b2n s.pilot.ready)]
  else
    match inArray 0x10 5 4 o, f with
    | some (i, _), .vf _ => BitVec.ofNat 32 (tget 0 x.counts i)
    | _, _ => 0

def mbxCode : MbxState → Nat
  | .idle => 0
  | .receiving => 1
  | .serving => 2
  | .responding => 3

/-- The mailbox (R537). -/
def mbxRead (s : State) (f : Func) (o : Nat) : Word :=
  let x := s.fn f
  if o = 0x104 then fields [(9, 1, b2n x.txLast), (0, 9, x.txLen.toNat)]
  else if o = 0x108 then fields [(16, 9, x.rxLen.toNat), (9, 1, b2n x.expired), (8, 1, b2n x.proto), (7, 1, b2n x.rxLast),
    (6, 1, b2n x.rxReady), (5, 1, b2n (x.mbx == .receiving && x.txBusy)), (0, 3, mbxCode x.mbx)]
  else if 0x200 ≤ o ∧ o < 0x300 then mword x.buf (o - 0x200)
  else 0

def chCode : ChState → Nat
  | .idle => 0
  | .fetching => 1
  | .waiting => 2
  | .running => 3
  | .halted => 4
  | .silenced => 5

/-- A channel's block of the doorbell page (R517). -/
def chRead (x : FerryCh) (i : Nat) : Word :=
  if i = 4 then lowHalf x.head
  else if i = 8 then highHalf x.head
  else if i = 0xC then fields [(3, 3, x.retry.toNat)]
  else if i = 0x10 then fields [(16, 8, x.cause.toNat), (7, 1, b2n x.irqPend), (0, 3, chCode x.state)]
  else if i = 0x14 then lowHalf x.cur &&& ~~~(0x3F#32)
  else if i = 0x18 then highHalf x.cur
  else if i = 0x1C then fields [(0, 25, x.done)]
  else if i = 0x20 then x.dbcount
  else if i = 0x24 then x.share.setWidth 32
  else if i = 0x28 then x.descCnt
  else 0

/-- The declaration page (R452): a region slot reads as it is staged (R9). -/
def declRead (x : BerthPress) (o : Nat) : Word :=
  if o = 0x2000 then
    match openJob x with
    | some j => fields [(24, 2, if j.fixed then 2 else 1), (16, 8, j.version), (0, 9, 256 - x.ring.length)]
    | none => 0
  else if o = 0x2004 then x.accepted
  else if o = 0x2008 then x.acked
  else if o = 0x200C then fields [(8, 8, x.lastReject.toNat), (0, 3, x.err.toNat)]
  else if o = 0x2010 then x.flags.setWidth 32
  else if o = 0x2014 then x.prod
  else if o = 0x2018 then x.cons
  else match inArray 0x2100 64 0x10 o, inArray 0x2800 64 0x20 o with
    | some (k, i), _ =>
      let r := tget (0, 0) x.regionsStaged k
      let v := if i < 8 then r.1 else r.2
      BitVec.ofNat 32 (v / 2 ^ (if i % 8 = 4 then 32 else 0))
    | _, some (r, i) => bytesWord (tget [] x.window r) i
    | _, _ => 0

/-- BERTH_STATUS (R333); every other offset of its page reads 0 (R334). -/
def berthPageRead (y : Berth) (o : Nat) : Word :=
  if o = 0x3000 then fields [(25, 1, b2n y.portFault), (17, 8, y.stackFault.toNat), (16, 1, b2n y.integrity),
    (12, 4, rinseStepCode y), (8, 2, (levelCode y.level).toNat), (0, 8, (stateCode y.state).toNat)]
  else 0

/-- The MSI-X table and pending bit array (R522, R523, R526; PCIe). -/
def msixRead (x : HostFn) (entries o : Nat) : Word :=
  match inArray 0x8000 entries 16 o with
  | some (k, i) => if i < 12 then mword x.msixTab (16 * k + i) else fields [(0, 1, b2n (x.msixMask.getLsbD k))]
  | none => if o = 0x9000 then x.msixPend.setWidth 32 else 0

/-- HG_BERTH_n (R525). -/
def berthSummary (s : State) (n : Nat) : Word :=
  let y := s.berth n
  fields [(11, 1, b2n (vfExists s n)), (10, 1, b2n (s.record n).rotating), (8, 2, (levelCode y.level).toNat), (0, 8, (stateCode y.state).toNat)]

/-- The fault window (R568). -/
def faultRead (s : State) (o : Nat) : Word :=
  if o = 0x100000 then s.jrn.fltProd
  else if o = 0x100004 then s.jrn.fltCons
  else if o = 0x100008 then fields [(1, 1, b2n s.jrn.down), (0, 1, b2n s.jrn.overrun)]
  else match inArray 0x101000 256 0x40 o with
    | some (r, i) => bytesWord (tget [] s.jrn.fltRecs r) i
    | none => 0

/-! ### BAR0 (R522, R523) -/

/-- A 4-byte read of the host of BAR0 of a function; none where the port is closed (R90) or the request is unsupported: the shape (R527),
the function does not exist, or its Memory Space Enable is 0 (R528). Write-only and W1S fields and reserved offsets read 0. -/
def barRead (s : State) (f : Func) (o : Nat) : Option Word :=
  if !accepts s ∨ s.pins.boundaryControls ∨ o % 4 ≠ 0 ∨ !fnExists s f ∨ !(s.fn f).mse then none
  else if o < 0x100 then some (identRead s f o)
  else if o < 0x1000 then some (mbxRead s f o)
  else
    some (match f with
    | .vf n =>
      (match inArray 0x1000 8 0x40 o with
        | some (k, i) => (match runCh s n k with
          | some c => chRead (s.ch c) i
          | none => 0)
        | none =>
          if 0x2000 ≤ o ∧ o < 0x3000 then declRead (s.bp n) o
          else if 0x3000 ≤ o ∧ o < 0x4000 then berthPageRead (s.berth n) o
          else msixRead (s.fn f) 10 o)
    | .pf0 => if 0x100000 ≤ o then faultRead s o else msixRead (s.fn f) 2 o
    | .pf1 =>
      (match inArray 0x10000 4096 4 o with
        | some (n, _) => berthSummary s n
        | none => msixRead (s.fn f) 2 o))

/-- The ranges that take reads of up to 64 B within one aligned 64-byte block: the mailbox buffer and the verdict window (R527). -/
def wideAt (f : Func) (o len : Nat) : Bool :=
  decide (1 ≤ len ∧ o / 64 = (o + len - 1) / 64) && (decide (0x200 ≤ o ∧ o + len ≤ 0x300) || (match f with
    | .vf _ => decide (0x2800 ≤ o ∧ o + len ≤ 0x3000)
    | _ => false))

/-- The shapes of a read (R527): 4 bytes, 8 bytes over two registers, or any within a block of those ranges. -/
def readShape (f : Func) (o len : Nat) : Bool := (len == 4 && o % 4 == 0) || (len == 8 && o % 8 == 0) || wideAt f o len

/-- A read of `len` bytes of BAR0, the lower offset first; none where the request is unsupported. -/
def barReadBytes (s : State) (f : Func) (o len : Nat) : Option Bytes :=
  if !readShape f o len ∨ (barRead s f (o / 4 * 4)).isNone then none
  else some ((List.range len).map (fun i => byteAt (toLe 4 ((barRead s f ((o + i) / 4 * 4)).getD 0).toNat) ((o + i) % 4)))

/-- A host's read of BAR0 (R529): its completion carries no Relaxed Ordering and follows every earlier posted write of MB3's; an
unsupported one gets UR status (R528). A read of MBX_STAT is a look at TX_BUSY (R531). -/
def barReadGo (s : State) (f : Func) (o len : Nat) : State :=
  if !fnExists s f then s
  else if (barReadBytes s f o len).isNone then emit s (.hostUr f)
  else
    let t := if o = 0x108 then fragmentLook s f else s
    emit t (.hostCpl f ((barReadBytes t f o len).getD []))

/-! ### JTAG (R191) -/

/-- What JTAG reads through LC_MBOX: the mailbox's registers and the nonce, and nothing else; none while its instruction or the
chain does not select the mailbox. -/
def jtagRead (s : State) (a : Nat) : Option Word :=
  let o := a - 0x22000000
  if s.pins.ir ≠ .lcMbox ∨ !chained s ∨ a % 4 ≠ 0 ∨ a < 0x22000000 then none
  else if o = 0xC8 ∨ o = 0xCC ∨ o = 0xD0 ∨ (0x80 ≤ o ∧ o < 0xB0) ∨ (0x4000 ≤ o ∧ o < 0x8000) then some (lcRead s o)
  else none

end Sys2Proof.Machine
end

