-- ==== Sys2Proof/Machine/Capability.lean ====
section
/-! DEFINITION. The values MB3 fixes in the capabilities of its functions (15, 17), what follows from a function's configuration, and a
read of a configuration register by the model's own numbers (log entry 41). -/

namespace Sys2Proof.Machine

/-! ### Fixed values (R521, R540, R543, R544, R547, R552, R585) -/

/-- TotalVFs and InitialVFs of PF1's SR-IOV capability. -/
def totalVfs : Nat := 4096
def initialVfs : Nat := 4096
def firstVfOffset : Nat := 1
def vfStride : Nat := 1
/-- Supported Page Sizes, 4 KiB to 64 KiB: bit n stands for 2^(n + 12) bytes (PCIe). -/
def supportedPages : Word := 0x1F
/-- ARI must be enabled: the endpoint core has it on. -/
def ariEnabled : Bool := true
/-- BAR0's attributes: a memory BAR of 64 bits, not prefetchable (PCIe's bits 3:0). -/
def barAttributes : Word := 0x4
/-- BAR0's size (R584). -/
def barSize : Func → Nat
  | .pf0 => 4194304
  | .pf1 => 1048576
  | .vf _ => 65536
/-- Vectors of the MSI-X table (R526). -/
def msixVectors : Func → Nat
  | .vf _ => 10
  | _ => 2
/-- ATS capability of PF1 and of each VF: Invalidate Queue Depth 0 (32), Page Aligned Request 1, Global Invalidate Supported 0 (PCIe's
bits 4:0, 5 and 6). -/
def atsCapability : Word := 0x20
/-- Outstanding Page Request Capacity of a VF. -/
def pageCapacity : Nat := 64
/-- Device Capabilities 2: Completion Timeout Ranges A, B and C (PCIe's bits 2:0), and no Completion Timeout Disable (bit 4). -/
def deviceCap2 : Word := 0x7
/-- Max_Payload_Size Supported, 512 B (PCIe's code 0b010). -/
def maxPayload : Nat := 512
/-- FLR time of the Readiness Time Reporting capability, in microseconds. -/
def flrTimeUs : Nat := 1500

/-! ### What follows from the configuration -/

/-- The timeout T of a Completion Timeout Value, in microseconds (R544). -/
def timeoutUs (v : BitVec 4) : Nat :=
  match v.toNat with
  | 1 => 90
  | 2 => 9000
  | 5 => 50000
  | 6 => 200000
  | 9 => 850000
  | 10 => 3200000
  | _ => 40000

/-- T of a function's requests: a request of VF b uses VF b's. A tag leaves quarantine at the latest 2T after its issue (R545). -/
def requestTimeoutUs (s : State) (f : Func) : Nat := timeoutUs (s.fn f).cto
def quarantineUs (s : State) (f : Func) : Nat := 2 * requestTimeoutUs s f

/-- Transactions Pending of a function (R540): a non-posted request of its own is outstanding. -/
def transPending (s : State) (f : Func) : Bool := s.host.reqs.any (fun r => r.fn == fnIx f)

/-! ### A configuration read -/

/-- A register that every function has. -/
def configCommon (s : State) (f : Func) (o : Nat) : Word :=
  let x := s.fn f
  match o with
  | 0 => BitVec.ofNat 32 (b2n x.mse)
  | 1 => BitVec.ofNat 32 (b2n x.ro)
  | 2 => x.cto.setWidth 32
  | 6 => BitVec.ofNat 32 x.tagBits
  | 7 => BitVec.ofNat 32 (b2n (transPending s f))
  | 8 => BitVec.ofNat 32 (b2n x.bme)
  | 9 => BitVec.ofNat 32 (b2n x.msixEn)
  | 16 => BitVec.ofNat 32 (b2n ariEnabled)
  | 17 => BitVec.ofNat 32 (barSize f)
  | 18 => barAttributes
  | 19 => BitVec.ofNat 32 (msixVectors f)
  | 20 => deviceCap2
  | 21 => BitVec.ofNat 32 maxPayload
  | _ => 0

/-- A register of PF1's SR-IOV and ATS capabilities. -/
def configPf1 (s : State) (o : Nat) : Word :=
  match o with
  | 3 => BitVec.ofNat 32 (b2n (s.fn .pf1).ats)
  | 5 => (s.fn .pf1).stu.setWidth 32
  | 24 => BitVec.ofNat 32 totalVfs
  | 25 => BitVec.ofNat 32 initialVfs
  | 26 => BitVec.ofNat 32 firstVfOffset
  | 27 => BitVec.ofNat 32 vfStride
  | 28 => supportedPages
  | 29 => BitVec.ofNat 32 (b2n s.host.vfEnable)
  | 30 => BitVec.ofNat 32 s.host.numVfs
  | 31 => atsCapability
  | _ => configCommon s .pf1 o

/-- A register of a VF's ATS, PRI and Readiness Time Reporting capabilities. -/
def configVf (s : State) (n o : Nat) : Word :=
  match o with
  | 3 => BitVec.ofNat 32 (b2n (s.fn (.vf n)).ats)
  | 4 => BitVec.ofNat 32 (s.fn (.vf n)).prAlloc
  | 10 => BitVec.ofNat 32 (b2n (s.fn (.vf n)).pri)
  | 31 => atsCapability
  | 32 => BitVec.ofNat 32 pageCapacity
  | 33 => BitVec.ofNat 32 flrTimeUs
  | _ => configCommon s (.vf n) o

/-- A configuration register of a function; what it has not reads 0. -/
def configRead (s : State) (f : Func) (o : Nat) : Word :=
  match f with
  | .pf0 => configCommon s .pf0 o
  | .pf1 => configPf1 s o
  | .vf n => configVf s n o

end Sys2Proof.Machine
end

