-- ==== Sys2Proof/Machine/RegWrite.lean ====
section
/-! DEFINITION. Register writes by access code (00, 17): REGISTER_WRITE for the fields that have no row of their own, and
DEBUG_PORT_ACCESS, which reads and writes the whole Pilot map within the granted rights. -/

namespace Sys2Proof.Machine

/-! ### Access codes (R7, R9) -/

/-- W1C: ones written clear. -/
def w1c {n : Nat} (old : BitVec n) (v : Word) (lo : Nat) : BitVec n := old &&& ~~~(v.extractLsb' lo n)

/-- One half of a 64-bit field (R582). -/
def putHalf (old : Nat) (high : Bool) (v : Word) : Nat :=
  if high then old % 2 ^ 32 + v.toNat * 2 ^ 32 else old / 2 ^ 32 * 2 ^ 32 + v.toNat

/-! ### Fields without a row of their own, block by block -/

def powerWrite (s : State) (o : Nat) (v : Word) : State :=
  if o = 8 ∧ v.getLsbD 0 then { s with power := { s.power with refused := false } } else s

def boardWrite (s : State) (o : Nat) (v : Word) : State :=
  if 0x80 ≤ o ∧ o < 0xC0 then { s with board := { s.board with mgmtOut := mputWord s.board.mgmtOut (o - 0x80) v } }
  else match inArray 0x100 12 4 o, inArray 0x10000 12 0x4000 o with
    | some (k, _), _ => if (s.site k).txBusy then s else s.setSite k { s.site k with txLen := v.extractLsb' 16 14 }
    | _, some (k, i) => if i < 0x2000 then s.setSite k { s.site k with txBuf := mputWord (s.site k).txBuf i v } else s
    | _, _ => s

def fuseWrite (s : State) (o : Nat) (v : Word) : State :=
  let f := s.fuse
  let put (f : Fuse) : State := { s with fuse := f }
  let frozen (g : Fuse) : State := put (if f.busy || s.lc.busy then { f with lastErr := 0x01 } else g)
  if o = 0 then put { f with done := f.done && !v.getLsbD 1 }
  else if o = 8 then frozen { f with wdata := BitVec.ofNat 64 (putHalf f.wdata.toNat false v) }
  else if o = 0xC then frozen { f with wdata := BitVec.ofNat 64 (putHalf f.wdata.toNat true v) }
  else if o = 0x10 then put { f with alarm := w1c f.alarm v 0 }
  else if o = 0x14 then put { f with query := v.setWidth 12 }
  else match inArray 0x200 16 0x10 o with
    | some (t, i) =>
      let e := tget tackInit f.tackStaged t
      let stage (e : TackEntry) : State := put { f with tackStaged := tset f.tackStaged t e }
      if i = 0 then stage { e with en := v.getLsbD 31, word := v.setWidth 12 }
      else if i = 4 then stage { e with value := BitVec.ofNat 64 (putHalf e.value.toNat false v) }
      else if i = 8 then stage { e with value := BitVec.ofNat 64 (putHalf e.value.toNat true v) }
      else s
    | none => s

def lcWrite (s : State) (o : Nat) (v : Word) : State :=
  let x := s.lc
  let put (x : LifeCycle) : State := { s with lc := x }
  let frozen (y : LifeCycle) : State := put (if x.busy then { x with err := 0x01 } else y)
  if o = 4 then frozen { x with xferTo := v.extractLsb' 4 4 }
  else if o = 8 then put { x with done := x.done && !v.getLsbD 1 }
  else if 0x40 ≤ o ∧ o < 0x70 then frozen { x with digest := mputWord x.digest (o - 0x40) v }
  else if o = 0xC4 then put { x with reqRights := v.setWidth 10 }
  else if o = 0xC8 then put { x with mboxLen := v.setWidth 15 }
  else if o = 0xCC then mboxCommand s (v.setWidth 4)
  else if o = 0xD4 then put { x with resultCode := v.setWidth 8 }
  else if 0x4000 ≤ o ∧ o < 0x8000 then put { x with mbox := mputWord x.mbox (o - 0x4000) v }
  else s

def vaultWrite (s : State) (o : Nat) (v : Word) : State :=
  let x := s.vault
  let put (x : Vault) : State := { s with vault := x }
  let frozen (y : Vault) : State := put (if x.busy then { x with err := 0x01 } else y)
  if o = 0 then put { x with
    tagFail := x.tagFail && !v.getLsbD 3
    rotDone := x.rotDone && !v.getLsbD 2
    done := x.done && !v.getLsbD 1 }
  else if o = 8 then frozen { x with attr := v }
  else if o = 0xC then frozen { x with len := v.setWidth 13 }
  else if o = 0x10 then frozen { x with aux := v.setWidth 12 }
  else if o = 0x14 then put { x with querySpace := v.getLsbD 12, queryIndex := v.setWidth 12 }
  else if 0x1000 ≤ o ∧ o < 0x2000 then put { x with data := mputWord x.data (o - 0x1000) v }
  else s

def cryptoWrite (s : State) (o : Nat) (v : Word) : State :=
  let x := s.crypto
  let frozen (y : Crypto) : State := { s with crypto := if x.busy then { x with err := 0x01 } else y }
  if o = 0 then { s with crypto := { x with done := x.done && !v.getLsbD 1 } }
  else if o = 8 then frozen { x with len := v.setWidth 14 }
  else if 0x2000 ≤ o ∧ o < 0x4000 then frozen { x with inBuf := mputWord x.inBuf (o - 0x2000) v }
  else s

def jrnWrite (s : State) (o : Nat) (v : Word) : State :=
  if 0x100 ≤ o ∧ o < 0x140 then { s with jrn := { s.jrn with post := mputWord s.jrn.post (o - 0x100) v } } else s

/-- The window entry that PIER_WIN_IDX addresses, changed in the staged table (R343, R369). -/
def stageWinAt (x : PierSt) (n : Nat) (g : WinEntry → WinEntry) : PierSt :=
  match winKey n x.winPort.toNat x.winIndex.toNat with
  | some k => stageWin x k (g (tget winNone x.winStaged k))
  | none => x

/-- PIER_BIND: the staged entry of a bindable code. -/
def stageBind (x : PierSt) (v : Word) : PierSt :=
  let i := x.bindIndex.toNat
  let b := (v.setWidth 12 : BitVec 12).toNat
  if !bindable i then x
  else if v.getLsbD 12 then { x with bindStaged := tset x.bindStaged i b, bindOff := tdel x.bindOff i }
  else { x with bindStaged := tdel x.bindStaged i, bindOff := if b = 0 then tdel x.bindOff i else tset x.bindOff i b }

def pierWrite (x : PierSt) (n o : Nat) (v : Word) : PierSt :=
  let frozen (y : PierSt) : PierSt := if x.zero.isSome then pierErr x 6 else y
  if o = 4 then { x with refuseAlarm := v.getLsbD 1 }
  else if o = 0xC then { x with err := w1c x.err v 0 }
  else if o = 0x20 then { x with winPort := v.extractLsb' 10 4, winIndex := v.setWidth 10 }
  else if o = 0x24 then stageWinAt x n (fun e => { e with base := (v.setWidth 17 : BitVec 17).toNat })
  else if o = 0x28 then stageWinAt x n (fun e => { e with size := (v.setWidth 17 : BitVec 17).toNat })
  else if o = 0x2C then stageWinAt x n (fun e => { e with
    board := v.getLsbD 20, site := (v.extractLsb' 16 4).toNat, readOnly := v.getLsbD 12, berth := (v.setWidth 12 : BitVec 12).toNat })
  else if o = 0x30 then { x with bindIndex := v.setWidth 10 }
  else if o = 0x34 then stageBind x v
  else if o = 0x40 then frozen { x with zeroBase := v.setWidth 17 }
  else if o = 0x44 then frozen { x with zeroSize := v.setWidth 17 }
  else x

def piersWrite (s : State) (ns : List Nat) (o : Nat) (v : Word) : State :=
  ns.foldl (fun s n => modPier s n (fun x => pierWrite x n o v)) s

def gwWrite (x : GwLink) (o : Nat) (v : Word) : GwLink :=
  if o = 0xC then { x with err := w1c x.err v 0 }
  else if o = 0x10 then { x with stagedValid := v.getLsbD 12, stagedBerth := v.setWidth 12 }
  else if o = 0x18 then { x with stagedCount := v.extractLsb' 9 4, stagedBase := v.setWidth 9 }
  else if o = 0x80 then
    if cfBusy x then { x with err := x.err ||| 0x40 }
    else { x with cfLen := v.extractLsb' 16 11, cfKind := v.extractLsb' 8 8, cfMore := v.getLsbD 3 }
  else if 0x400 ≤ o ∧ o < 0x800 then { x with cfTx := mputWord x.cfTx (o - 0x400) v }
  else x

/-- A write to Gangway lanes reaches the links they serve, or their own registers. -/
def gwsWrite (s : State) (ns : List Nat) (o : Nat) (v : Word) : State :=
  ns.foldl (fun s n => modLink s (laneRegs s n) (fun x => gwWrite x o v)) s

def samplerWrite (s : State) (o : Nat) (v : Word) : State :=
  if o = 0x40 then { s with press := { s.press with hold := v.getLsbD 8, period := v.setWidth 8 } } else s

def ferryWrite (s : State) (o : Nat) (v : Word) : State :=
  match inArray 0 8 0x100 o, inArray 0x2000 512 4 o, inArray 0x3000 512 4 o with
  | some (p, i), _, _ =>
    let x := s.pch p
    let put (y : FerryPch) : State := modFerry s (fun f => { f with pchs := tset f.pchs p y })
    if i = 0 then put { x with retry := v.extractLsb' 3 3, digestEn := if x.busy then x.digestEn else v.getLsbD 2 }
    else if i = 4 then put { x with done := x.done && !v.getLsbD 2 }
    else if 0x40 ≤ i ∧ i < 0x78 ∧ !x.busy then put { x with desc := mputWord x.desc (i - 0x40) v }
    else s
  | _, some (c, _), _ =>
    if c < 8 then s
    else
      let m : ChMap := { valid := v.getLsbD 16, rel := v.extractLsb' 12 4, berth := v.setWidth 12 }
      modFerry s (fun f => { f with mapsStaged := tset f.mapsStaged c m })
  | _, _, some (c, _) => if c < 8 then s else modCh s c (fun x => { x with share := v.setWidth 8 })
  | _, _, _ => s

def hostWrite (s : State) (o : Nat) (v : Word) : State :=
  if o = 0xC then modHost s (fun h => { h with respSlot := v.setWidth 6 })
  else match inArray 0x100000 64 0x8400 o with
    | some (k, i) => setHslot s k { s.hslot k with msg := mputWord (s.hslot k).msg i v }
    | none => s

def cringWrite (s : State) (o : Nat) (v : Word) : State :=
  let r := s.ring
  let put (r : Ring) : State := { s with ring := r }
  if o = 8 then (if r.txBusy then s else put { r with txLen := v.extractLsb' 16 14, dstEid := v.extractLsb' 8 8 })
  else if o = 0xC then put { r with busySent := r.busySent && !v.getLsbD 1 }
  else if 0x2000 ≤ o ∧ o < 0x4000 then put { r with txBuf := mputWord r.txBuf (o - 0x2000) v }
  else s

/-- A 32-bit store to a block: the fields that no other row writes. -/
def blockWrite (s : State) (b : Block) (o : Nat) (v : Word) : State :=
  match b with
  | .vault => vaultWrite s o v
  | .fuse => fuseWrite s o v
  | .lc => lcWrite s o v
  | .crypto => cryptoWrite s o v
  | .journal => jrnWrite s o v
  | .power => powerWrite s o v
  | .pier n => piersWrite s [n] o v
  | .pierGroup g =>
    if o < 0x800 then piersWrite s (groupPiers g) o v
    else if o = 0x808 then s.setPgroup g { s.pgroup g with hold := v.getLsbD 8, period := v.setWidth 8 }
    else s
  | .allPiers => if o < 0x800 then piersWrite s (List.range 154) o v else s
  | .gw n => gwsWrite s [n] o v
  | .gwGroup g =>
    if o < 0x800 then gwsWrite s (groupLanes g) o v
    else if o = 0x808 then s.setGgroup g { s.ggroup g with hold := v.getLsbD 8, period := v.setWidth 8 }
    else s
  | .array n => if o = 0xC then modArray s n (fun x => { x with err := w1c x.err v 0 }) else s
  | .sampler => samplerWrite s o v
  | .ferry => ferryWrite s o v
  | .host => hostWrite s o v
  | .board => boardWrite s o v
  | .ring => cringWrite s o v

/-- The offset in Pilot SRAM of an address, if it lies there. -/
def sramAt (a : Nat) : Option Nat := if 0x10000000 ≤ a ∧ a < 0x10200000 then some (a - 0x10000000) else none

/-- A 32-bit store to Pilot SRAM. Of Pilot's own, one to the locked code region has raised the access fault instead (R104); the
debug port writes that region too (R100). -/
def sramWrite (s : State) (i : Nat) (v : Word) : State :=
  { s with pilot := { s.pilot with sram := mputWord s.pilot.sram i v } }

def pilotWrite (s : State) (a : Nat) (v : Word) : State :=
  if a % 4 ≠ 0 then s
  else match sramAt a, blockAt a with
    | some i, _ => sramWrite s i v
    | _, some (b, o) => blockWrite s b o v
    | _, _ => s

/-- The access faults of R104, R581 and R582: outside the table; a store to the ROM or the locked code region; a fetch from
elsewhere; and a shape that a block, the ROM or Pilot SRAM does not take. An address from 0x2000_0000 to 0x36FF_FFFF in no block takes
every load and store. -/
def accessFaults (s : State) (a : PilotAccess) : Bool :=
  let rom : Bool := decide (a.addr < 0x40000)
  let sram : Bool := (sramAt a.addr).isSome
  let code : Bool := s.pilot.codeLocked && sram && decide (a.addr < 0x10000000 + s.pilot.codeLen)
  let natural : Bool := (a.size == 1 || a.size == 2 || a.size == 4) && a.addr % max 1 a.size == 0
  if a.fetch then !(rom || code)
  else if rom then a.store || !natural
  else if sram then (a.store && code) || !natural
  else if (blockAt a.addr).isSome then a.size != 4 || a.addr % 4 != 0
  else !decide (0x20000000 ≤ a.addr ∧ a.addr < 0x37000000)

/-- PILOT_ACCESS_FAULT: the fault is raised in both cores, and the access has no effect. -/
def execPilotAccessFault (a : PilotAccess) (s : State) : Out :=
  whenRunning s (fun s => if coresRun s ∧ accessFaults s a then { s with pilot := { s.pilot with accessFault := some a } } else s)

/-- A store of Pilot's own of 1, 2 or 4 bytes: one that R104, R581 or R582 turns away raises the access fault and has no other effect. A
byte or a halfword reaches Pilot SRAM alone. -/
def pilotStore (s : State) (a size : Nat) (v : Word) : State :=
  let x : PilotAccess := { addr := a, size := size, store := true, fetch := false, value := v }
  if accessFaults s x then { s with pilot := { s.pilot with accessFault := some x } }
  else if size = 4 then pilotWrite s a v
  else
    match sramAt a with
    | some i => { s with pilot := { s.pilot with sram := mwrite 0 s.pilot.sram i (toLe size v.toNat) } }
    | none => s

/-! ### The host's registers (R333, R452, R517, R522, R523, R537, R568) -/

/-- The MSI-X table: the message address and data of an entry. Its vector control is MSIX_MASK_CHANGE's. -/
def msixWrite (s : State) (f : Func) (entries o : Nat) (v : Word) : State :=
  match inArray 0x8000 entries 16 o with
  | some (k, i) => if i < 12 then modFn s f (fun x => { x with msixTab := mputWord x.msixTab (16 * k + i) v }) else s
  | none => s

def mbxWrite (s : State) (f : Func) (o : Nat) (v : Word) : State :=
  if o = 0x104 then modFn s f (fun x => { x with txLast := v.getLsbD 9, txLen := v.setWidth 9 })
  else if o = 0x108 then modFn s f (fun x => { x with expired := x.expired && !v.getLsbD 9, proto := x.proto && !v.getLsbD 8 })
  else if 0x200 ≤ o ∧ o < 0x300 then modFn s f (fun x => { x with buf := mputWord x.buf (o - 0x200) v })
  else s

/-- A channel's block of the doorbell page; HEAD is written only in IDLE, and then the channel has no chain (R508). -/
def chWrite (x : FerryCh) (i : Nat) (v : Word) : FerryCh :=
  let head (high : Bool) : FerryCh :=
    if x.state = .idle then
      { x with head := BitVec.ofNat 64 (putHalf x.head.toNat high v / 64 * 64), chain := false }
    else x
  if i = 4 then head false
  else if i = 8 then head true
  else if i = 0xC then { x with retry := v.extractLsb' 3 3 }
  else if i = 0x10 then { x with irqPend := x.irqPend && !v.getLsbD 7 }
  else x

def declWrite (x : BerthPress) (o : Nat) (v : Word) : BerthPress :=
  if o = 0x200C then { x with err := w1c x.err v 0 }
  else if o = 0x2010 then { x with flags := w1c x.flags v 0 }
  else match inArray 0x2100 64 0x10 o with
    | some (k, i) =>
      let r := tget (0, 0) x.regionsStaged k
      let r1 := if i < 8 then (putHalf r.1 (i == 4) v, r.2) else (r.1, putHalf r.2 (i == 0xC) v)
      { x with regionsStaged := if r1 = (0, 0) then tdel x.regionsStaged k else tset x.regionsStaged k r1 }
    | none => x

def berthStatusWrite (x : Berth) (v : Word) : Berth :=
  { x with
    portFault := x.portFault && !v.getLsbD 25
    stackFault := w1c x.stackFault v 17
    integrity := x.integrity && !v.getLsbD 16 }

/-- A 4-byte write of the host to a register of BAR0. Those to the doorbells and the declaration page of a RINSING berth are ignored
(R331); one to PRESS_DECL_PORT, which takes 64 bytes alone, sets PORT (R417). -/
def barPut (s : State) (f : Func) (o : Nat) (v : Word) : State :=
  if o < 0x1000 then mbxWrite s f o v
  else
    match f with
    | .vf n =>
      (match inArray 0x1000 8 0x40 o with
        | some (k, i) => chCommand s n k (fun s c => modCh s c (fun x => chWrite x i v))
        | none =>
          if 0x2000 ≤ o ∧ o < 0x3000 then
            if (s.berth n).state = .rinsing then s
            else if 0x2040 ≤ o ∧ o < 0x2080 then setDeclErr s n 0
            else modBp s n (fun x => declWrite x o v)
          else if o = 0x3000 then s.setBerth n (berthStatusWrite (s.berth n) v)
          else msixWrite s f 10 o v)
    | .pf0 =>
      if o = 0x100008 then { s with jrn := { s.jrn with overrun := s.jrn.overrun && !v.getLsbD 0 } } else msixWrite s f 2 o v
    | .pf1 => msixWrite s f 2 o v

/-- An aligned 4-byte write (R527); any other is an Unsupported Request, dropped and reported (R528). -/
def barWrite (s : State) (f : Func) (o : Nat) (v : Word) : State :=
  barOpen s f (fun s => if o % 4 ≠ 0 then aer s f 0 else barPut s f o v)

/-- An aligned 8-byte write, which covers two registers, the lower offset first (R527). -/
def barWritePair (s : State) (f : Func) (o : Nat) (low high : Word) : State :=
  barOpen s f (fun s => if o % 8 ≠ 0 then aer s f 0 else barPut (barPut s f o low) f (o + 4) high)

/-- The bytes of a write whose byte enables are set. -/
def putEnabled (m : List Host.Cell) (o : Nat) (data : Bytes) (en : BitVec 64) : List Host.Cell :=
  (List.range data.length).foldl (fun m i => if en.getLsbD i then mwrite 0 m (o + i) [byteAt data i] else m) m

/-- A write of the mailbox buffer within one aligned 64-byte block, with any byte enables (R527). -/
def barWriteBytes (s : State) (f : Func) (o : Nat) (data : Bytes) (en : BitVec 64) : State :=
  barOpen s f (fun s =>
    if data = [] ∨ o < 0x200 ∨ 0x300 < o + data.length ∨ o / 64 ≠ (o + data.length - 1) / 64 then aer s f 0
    else modFn s f (fun x => { x with buf := putEnabled x.buf (o - 0x200) data en }))

/-- A configuration register of a function, by the model's own numbers (log entry 41): 0 Memory Space Enable, 1 Enable
Relaxed Ordering, 2 Completion Timeout Value, 3 ATS Enable (PF1 and VFs, R585), 4 Outstanding Page Request Allocation (VFs),
5 Smallest Translation Unit (PF1, R547), 6 the tag bits enabled: 5, 8, 10 or 14 (R545; PCIe). -/
def configWrite (s : State) (f : Func) (o : Nat) (v : Word) : State :=
  if !fnExists s f then s
  else if o = 0 then modFn s f (fun x => { x with mse := v.getLsbD 0 })
  else if o = 1 then modFn s f (fun x => { x with ro := v.getLsbD 0 })
  else if o = 2 then modFn s f (fun x => { x with cto := v.setWidth 4 })
  else if o = 6 then if v.toNat ∈ [5, 8, 10, 14] then modFn s f (fun x => { x with tagBits := v.toNat }) else s
  else
    match f with
    | .pf0 => s
    | .pf1 =>
      if o = 3 then modFn s f (fun x => { x with ats := v.getLsbD 0 })
      else if o = 5 then modFn s f (fun x => { x with stu := v.setWidth 5 })
      else s
    | .vf _ =>
      if o = 3 then modFn s f (fun x => { x with ats := v.getLsbD 0 })
      else if o = 4 then modFn s f (fun x => { x with prAlloc := v.toNat })
      else s

/-- JTAG through LC_MBOX writes LC_MBOX_LEN and LC_MBOX alone, and neither while BUSY is 1 (R191, R202). -/
def jtagWrite (s : State) (a : Nat) (v : Word) : State :=
  if mboxOpen s ∧ chained s ∧ a % 4 = 0 ∧ (a = 0x220000C8 ∨ (0x22004000 ≤ a ∧ a < 0x22008000)) then lcWrite s (a - 0x22000000) v else s

/-- REGISTER_WRITE: a write to the fields that have no row of their own. Pilot writes while its cores run; the host while its port
is open (R90). The host's reads, for which the table has no row, come through it too (DESIGN CHOICE, log entry 41). -/
def execRegisterWrite (p : RegPort) (addr : Nat) (value : Word) (s : State) : Out :=
  match p with
  | .pilot => whenCommanded s (pilotStore · addr 4 value)
  | .pilotNarrow half => whenCommanded s (pilotStore · addr (if half then 2 else 1) value)
  | .jtag => whenChained s (jtagWrite · addr value)
  | .bar f => whenHost s (barWrite · f addr value)
  | .barPair f high => whenHost s (barWritePair · f addr value high)
  | .barBytes f data en => whenHost s (barWriteBytes · f addr data en)
  | .barRead f len => whenHost s (barReadGo · f addr len)
  | .config f => whenHost s (configWrite · f addr value)
  | .configRead f => whenHost s (fun s => if fnExists s f then emit s (.configData f (configRead s f addr)) else s)

/-! ### The debug port (R192, R583) -/

/-- The state after a row. -/
def after (s : State) (f : State → Out) : State :=
  match f s with
  | .next t => t
  | _ => s

def afterIf (s : State) (b : Bool) (f : State → Out) : State := if b then after s f else s

/-- What a store to the command fields of a block does: the rows of those fields (R583). -/
def fuseAct (s : State) (v : Word) : State :=
  let arm : Byte := v.extractLsb' 8 8
  let w : BitVec 12 := v.extractLsb' 16 12
  after s (match (v.setWidth 4 : BitVec 4).toNat with
    | 1 => execProgram arm w
    | 2 => execIncrement arm w
    | 3 => execFinalise arm w
    | 4 => execLockWrite arm w
    | 5 => execLockRead arm w
    | 6 => execResense arm w []
    | 7 => execResenseAll arm w []
    | 8 => execWipe arm w
    | 9 => execSeal arm w
    | _ => execFuseReservedOp arm w (v.setWidth 4))

def lcAct (s : State) (o : Nat) (v : Word) : State :=
  if o = 4 then afterIf s (v.getLsbD 0) (execGo (v.extractLsb' 4 4))
  else if o = 0xC4 then afterIf s (v.getLsbD 10) (execGrant (v.setWidth 10))
  else if o = 0xD4 then afterIf s (v.getLsbD 8) (execEndRequest (v.setWidth 8))
  else s

def vaultAct (s : State) (v : Word) : State :=
  let c : VaultCmd := { field := v.extractLsb' 28 3, index := v.extractLsb' 16 12, typ := v.extractLsb' 9 4, space := v.getLsbD 8 }
  after s (match (v.setWidth 5 : BitVec 5).toNat with
    | 1 => execGenerate c
    | 2 => execWrite c
    | 3 => execRead c
    | 4 => execDerive c
    | 5 => execDestroy c
    | 6 => execAttr c
    | 7 => execBerthOpen c
    | 8 => execRotate c
    | 9 => execRelease c
    | 10 => execWrap c
    | 11 => execUnwrap c
    | 12 => execKeypair c
    | 13 => execDestroyAll c
    | 14 => (match s.vault.aux.toNat % 16 with
      | 1 => execMaintEncap c
      | 2 => execMaintDecap c
      | 3 => execJobDraw c
      | 4 => execJobEncap c
      | 5 => execJobDecap c
      | 6 => execPromote c
      | 7 => execJobDrop c
      | 8 => execMaintDraw c
      | _ => execVaultReservedOp c 14)
    | _ => execVaultReservedOp c (v.setWidth 5))

def cryptoAct (s : State) (v : Word) : State :=
  let k : BitVec 6 := v.extractLsb' 16 6
  after s (match (v.setWidth 4 : BitVec 4).toNat with
    | 1 => execSha384Op k
    | 2 => execSha3Op k
    | 3 => execHmacOp k
    | 4 => execAesGcmEncrypt k
    | 5 => execAesGcmDecrypt k
    | 6 => execHybridSign k
    | 7 => execHybridVerify k
    | 8 => execDrbgRead k
    | _ => execCryptoReservedOp k (v.setWidth 4))

/-- PWR_DOMAIN_CTL: each domain whose bit is written 1 is requested on, each written 0 off (R47). The requests of one write are judged
from bit 0 up, each in the state the one before it leaves; R47 and R49 give no order, and it decides which number LAST_DOM keeps and
whether a Press group may go off in the write that moves another (DESIGN CHOICE, log entry 169). -/
def powerAct (s : State) (v : Word) : State :=
  (List.range 20).foldl (fun s pd => after s (if v.getLsbD pd then execPwrDomainOn pd else execPwrDomainOff pd)) s

def boardAct (s : State) (o : Nat) (v : Word) : State :=
  if o = 0 then
    let s1 := afterIf (afterIf s (v.getLsbD 3) execOutGo) (v.getLsbD 2) execInFullClear
    let s2 := afterIf s1 (v.getLsbD 1 != s1.board.loadEn) (execLoadEn (v.getLsbD 1))
    if v.getLsbD 0 != s2.board.mgmtRun then mgmtRelease s2 (v.getLsbD 0) else s2
  else match inArray 0x100 12 4 o, inArray 0x140 12 4 o with
    | some (k, _), _ => afterIf (afterIf s (v.getLsbD 1) (execAbort k)) (v.getLsbD 0) (execSend k)
    | _, some (k, _) => afterIf s (v.getLsbD 3) (execRxReadyClear k)
    | _, _ => s

def pierAct (s : State) (t : PierTarget) (o : Nat) (v : Word) : State :=
  if o = 4 then
    (targetPiers t).foldl (fun s n => afterIf s (v.getLsbD 0 != (s.pier n).park) (execPierPark n (v.getLsbD 0))) s
  else if o = 0x10 then afterIf s (v.getLsbD 16) (execPierCommitGo t (v.setWidth 16))
  else if o = 0x48 then afterIf (afterIf s (v.getLsbD 1) (execPierZeroUninit t)) (v.getLsbD 0) (execPierZeroGo t)
  else s

def gwAct (s : State) (t : GwTarget) (o : Nat) (v : Word) : State :=
  let each (s : State) (b : Bool) (f : Nat → State → Out) : State := (targetLanes t).foldl (fun s n => afterIf s b (f n)) s
  if o = 4 then
    (targetLanes t).foldl (fun s n =>
      afterIf s (v.getLsbD 0 != (gwRead s n 4).getLsbD 0) (execGwPark n (v.getLsbD 0))) (each s (v.getLsbD 1) execClose)
  else if o = 0x14 then afterIf s (v.getLsbD 16) (execGwCommitGo t (v.setWidth 16))
  else if o = 0x80 then each (each s (v.getLsbD 2) execGwCfRxFree) (v.getLsbD 0) execGwCfSend
  else s

def ferryAct (s : State) (o : Nat) (v : Word) : State :=
  if o = 0x1004 then afterIf s (v.getLsbD 16) (execFerryCommit (v.setWidth 16))
  else match inArray 0 8 0x100 o with
    | some (p, 0) => afterIf (afterIf s (v.getLsbD 1) (execFerryPchAbort p)) (v.getLsbD 0) (execFerryPchGo p)
    | _ => s

/-- The rows that a store to a block sets off. -/
def blockAct (s : State) (b : Block) (o : Nat) (v : Word) : State :=
  match b with
  | .vault => if o = 4 then vaultAct s v else s
  | .fuse => if o = 4 then fuseAct s v else if o = 0x300 then afterIf s (v.getLsbD 0) execFuseTackCommit else s
  | .lc => lcAct s o v
  | .crypto => if o = 4 then cryptoAct s v else s
  | .journal =>
    if o = 4 then afterIf s (v.getLsbD 0) execJrnAqPop
    else if o = 0x80 then afterIf (afterIf s (v.getLsbD 1) execRing) (v.getLsbD 0) execHostPost
    else s
  | .power => if o = 0 then powerAct s v else s
  | .pier n => pierAct s (.pier n) o v
  | .pierGroup g => pierAct s (.group g) o v
  | .allPiers => pierAct s .all o v
  | .gw n => gwAct s (.lane n) o v
  | .gwGroup g => gwAct s (.group g) o v
  | .array n => if o = 4 then afterIf s (v.getLsbD 0 != (s.array n).park) (execPressPark n (v.getLsbD 0)) else s
  | .sampler => s
  | .ferry => ferryAct s o v
  | .host =>
    if o = 8 then afterIf s (v.getLsbD 0) execHgPPop
    else if o = 0xC then afterIf s (v.getLsbD 6) (execHgPRespSend (v.setWidth 6))
    else s
  | .board => boardAct s o v
  | .ring =>
    if o = 4 then afterIf (afterIf s (v.getLsbD 1) execReady) (v.getLsbD 0) execForward
    else if o = 8 then afterIf s (v.getLsbD 0) execCringSend
    else if o = 0xC then afterIf s (v.getLsbD 0) execCringRxFree
    else s

/-- The status registers of every block, which STATUS_READ opens (R192); every other register, the key, window and nonce
registers among them, reads 0 to it. R192 does not list them: the model takes the registers whose every field reports a
state or a count (DESIGN CHOICE, log entry 147). -/
def statusReg : Block → Nat → Bool
  | .vault, o => o == 0 || o == 0x18 || o == 0x1C || o == 0x20
  | .fuse, o => o == 0 || o == 0x10 || o == 0x18 || decide (0x100 ≤ o ∧ o < 0x180)
  | .lc, o => o == 0 || o == 8 || o == 0xC0 || o == 0xD0
  | .crypto, o => o == 0
  | .journal, o => o == 0
  | .power, o => o == 4 || o == 8
  | .pier _, o => o == 0 || o == 8 || o == 0xC || o == 0x14 || o == 0x50 || decide (0x60 ≤ o ∧ o < 0x7C) || decide (0x100 ≤ o ∧ o < 0x180)
  | .pierGroup _, o => o == 0x800 || o == 0x804 || o == 0x80C
  | .allPiers, _ => false
  | .gw _, o => o == 0 || o == 8 || o == 0xC || decide (0x20 ≤ o ∧ o < 0x58) || o == 0x84
  | .gwGroup _, o => o == 0x800 || o == 0x804 || o == 0x80C
  | .array _, o => o == 0 || o == 8 || o == 0xC || decide (0x20 ≤ o ∧ o < 0x30)
  | .sampler, o => o == 0 || o == 4 || decide (0x10 ≤ o ∧ o < 0x30) || o == 0x44
  | .ferry, o => decide (o < 0x800 ∧ (o % 0x100 = 4 ∨ o % 0x100 = 8)) || o == 0x1000
  | .host, o => o == 0 || o == 4 || o == 0x10 || o == 0x14
  | .board, o => decide (0x140 ≤ o ∧ o < 0x170)
  | .ring, o => o == 0 || o == 0xC

/-- What FUSE_QUERY lets the debug port read (R192). -/
def queryShows : Block → Nat → Bool
  | .fuse, o => o == 0 || o == 0x10 || o == 0x14 || o == 0x18 || decide (0x100 ≤ o ∧ o < 0x180) || decide (0x1000 ≤ o)
  | _, _ => false

/-- A word of the boot ROM, whose content the spec does not give (log entry 57). -/
def romWord (a : Nat) : Word := bytesWord ((List.range 4).map (fun i => Config.romByte (a + i))) 0

/-- A load over the debug port: what no granted right opens reads 0. -/
def debugRead (s : State) (a : Nat) : Word :=
  let g := s.lc.grant
  if a < 0x40000 then if g.getLsbD 1 ∧ a % 4 = 0 then romWord a else 0
  else match sramAt a, blockAt a with
  | some i, _ => if g.getLsbD 1 ∧ a % 4 = 0 then mword s.pilot.sram i else 0
  | _, some (b, o) =>
    if g.getLsbD 1 || (g.getLsbD 3 && statusReg b o) || ((g.getLsbD 5 || g.getLsbD 6) && queryShows b o) ||
        (g.getLsbD 9 && b == .journal) then pilotRead s a else 0
  | _, _ => 0

/-- A store over the debug port: PILOT_WRITE opens all; FUSE_QUERY opens FUSE_QUERY; FUSE_PROGRAM also FUSE_CMD, FUSE_WDATA and
the W1C bits of FUSE_STAT and FUSE_ALARM. -/
def debugMayWrite (s : State) (a : Nat) : Bool :=
  let g := s.lc.grant
  g.getLsbD 2 || match blockAt a with
    | some (.fuse, o) => ((g.getLsbD 5 || g.getLsbD 6) && o == 0x14) ||
        (g.getLsbD 6 && (o == 0 || o == 4 || o == 8 || o == 0xC || o == 0x10))
    | _ => false

def debugWrite (s : State) (a : Nat) (v : Word) : State :=
  if debugMayWrite s a ∧ a % 4 = 0 then
    match blockAt a with
    | some (b, o) => blockAct (pilotWrite s a v) b o v
    | none => pilotWrite s a v
  else s

/-- What the granted rights open of the other requests (R192): PILOT_RUN halts, resumes and steps the cores (a step of cores that stand
changes nothing the model holds); LANE_TRACE begins line traces of a Pier or a Gangway lane; MBIST runs on a parked array or a lane in
spot test. -/
def debugRun (s : State) (act : DebugAct) : State :=
  let g := s.lc.grant
  match act with
  | .halt => if g.getLsbD 0 then standCores s else s
  | .resume => if g.getLsbD 0 then resumeCores s else s
  | .trace i =>
    (match i with
      | .pier _ => if g.getLsbD 4 && islandExists i then emit s (.laneTrace i) else s
      | .gangway _ => if g.getLsbD 4 && islandExists i then emit s (.laneTrace i) else s
      | _ => s)
  | .mbist i =>
    let ready : Bool := match i with
      | .press n => (s.array n).park && (s.array n).run.isNone
      | .pier _ => (s.island i).service == .spotTest
      | .gangway _ => (s.island i).service == .spotTest
      | _ => false
    if g.getLsbD 8 && islandExists i && ready then emit s (.mbist i) else s
  | _ => s

/-- DEBUG_PORT_ACCESS: the segment is in the chain and its instruction selects the debug port. -/
def debugAccess (s : State) (act : DebugAct) (a : Nat) (v : Word) : State :=
  if s.pins.ir ≠ .debugPort then s
  else
    match act with
    | .write => debugWrite s a v
    | .read => emit s (.debugData (debugRead s a))
    | _ => debugRun s act

def execDebugPortAccess (act : DebugAct) (addr data : Word) (s : State) : Out := whenChained s (debugAccess · act addr.toNat data)

end Sys2Proof.Machine
end

