-- ==== Sys2Proof/Machine/Dispatch.lean ====
section
/-! DEFINITION. One arm for each command of the opcode table, in its order: a direct call of its meaning. -/

namespace Sys2Proof.Machine

def exec (i : Instr) (s : State) : Host.Outcome State Fault Refusal :=
  match i with
  | .mbPorstNAssert cutLevel => Sys2Proof.Machine.execMbPorstNAssert cutLevel s
  | .resetRelease bootsel vppPresent => Sys2Proof.Machine.execResetRelease bootsel vppPresent s
  | .haltSeenElsewhere => Sys2Proof.Machine.execHaltSeenElsewhere s
  | .referenceClockLoss => Sys2Proof.Machine.execReferenceClockLoss s
  | .pllLockLoss isl stateReadable spareOk => Sys2Proof.Machine.execPllLockLoss isl s stateReadable spareOk
  | .vppOkSet => Sys2Proof.Machine.execVppOkSet s
  | .vppWindowExit level => Sys2Proof.Machine.execVppWindowExit level s
  | .cableRingAgentStart => Sys2Proof.Machine.execCableRingAgentStart s
  | .ringFrameReceive raw => Sys2Proof.Machine.execRingFrameReceive raw s
  | .ringEnumerate f => Sys2Proof.Machine.execRingEnumerate f s
  | .orderingToken f => Sys2Proof.Machine.execOrderingToken f s
  | .tokenWaitLimit => Sys2Proof.Machine.execTokenWaitLimit s
  | .setEndpointId src eid => Sys2Proof.Machine.execSetEndpointId src eid s
  | .getEndpointId src => Sys2Proof.Machine.execGetEndpointId src s
  | .getMctpVersionSupport src => Sys2Proof.Machine.execGetMctpVersionSupport src s
  | .getMessageTypeSupport src => Sys2Proof.Machine.execGetMessageTypeSupport src s
  | .mctpOtherMessage src msgType => Sys2Proof.Machine.execMctpOtherMessage src msgType s
  | .getVersion t => Sys2Proof.Machine.execGetVersion t s
  | .getCapabilities t version => Sys2Proof.Machine.execGetCapabilities t version s
  | .negotiateAlgorithms t offersSha384 offersP384 => Sys2Proof.Machine.execNegotiateAlgorithms t offersSha384 offersP384 s
  | .getDigests t => Sys2Proof.Machine.execGetDigests t s
  | .getCertificate t slot offset length => Sys2Proof.Machine.execGetCertificate t slot offset length s
  | .challenge t slot nonce => Sys2Proof.Machine.execChallenge t slot nonce s
  | .getMeasurements t index sign nonce => Sys2Proof.Machine.execGetMeasurements t index sign nonce s
  | .spdmUnsupportedRequest t code => Sys2Proof.Machine.execSpdmUnsupportedRequest t code s
  | .getUnitStatus src => Sys2Proof.Machine.execGetUnitStatus src s
  | .getBerthState src berth => Sys2Proof.Machine.execGetBerthState src berth s
  | .alarmNotifyHoldoffExpiry kind => Sys2Proof.Machine.execAlarmNotifyHoldoffExpiry kind s
  | .bypass => Sys2Proof.Machine.execBypass s
  | .idcode => Sys2Proof.Machine.execIdcode s
  | .samplePreload pins preload => Sys2Proof.Machine.execSamplePreload pins preload s
  | .extest pins shifted => Sys2Proof.Machine.execExtest s pins shifted
  | .jtagPrivateInstruction ins => Sys2Proof.Machine.execJtagPrivateInstruction ins s
  | .debugPortAccess act addr data => Sys2Proof.Machine.execDebugPortAccess act addr data s
  | .pwrDomainOn pd => Sys2Proof.Machine.execPwrDomainOn pd s
  | .pwrDomainOff pd => Sys2Proof.Machine.execPwrDomainOff pd s
  | .domainPowerUpDone pd => Sys2Proof.Machine.execDomainPowerUpDone pd s
  | .islandSelfTestStart isl => Sys2Proof.Machine.execIslandSelfTestStart isl s
  | .islandSelfTestDone isl pass => Sys2Proof.Machine.execIslandSelfTestDone isl pass s
  | .selfTestCollectionTimeout => Sys2Proof.Machine.execSelfTestCollectionTimeout s
  | .coreIslandSelfTestDone isl pass => Sys2Proof.Machine.execCoreIslandSelfTestDone isl pass s
  | .fuseSensingDone complete drift => Sys2Proof.Machine.execFuseSensingDone complete drift s
  | .romPolicy => Sys2Proof.Machine.execRomPolicy s
  | .entropyStartupDone pass => Sys2Proof.Machine.execEntropyStartupDone pass s
  | .flashSfdpDone answers octal sectors => Sys2Proof.Machine.execFlashSfdpDone answers octal sectors s
  | .bootSourceCheck => Sys2Proof.Machine.execBootSourceCheck s
  | .flashBlockRead transferOk => Sys2Proof.Machine.execFlashBlockRead transferOk s
  | .chainVerified => Sys2Proof.Machine.execChainVerified s
  | .firmwareEntry => Sys2Proof.Machine.execFirmwareEntry s
  | .microcodeInstall k => Sys2Proof.Machine.execMicrocodeInstall k s
  | .microcodeCrcReturn isl crc => Sys2Proof.Machine.execMicrocodeCrcReturn isl crc s
  | .mgmtFirmwareLoad => Sys2Proof.Machine.execMgmtFirmwareLoad s
  | .outGo => Sys2Proof.Machine.execOutGo s
  | .mgmtOutTaken => Sys2Proof.Machine.execMgmtOutTaken s
  | .inFullClear => Sys2Proof.Machine.execInFullClear s
  | .loadEn v => Sys2Proof.Machine.execLoadEn v s
  | .mgmtRun v => Sys2Proof.Machine.execMgmtRun v s
  | .memTrained stackMap ports => Sys2Proof.Machine.execMemTrained stackMap ports s
  | .linkTrained links => Sys2Proof.Machine.execLinkTrained links s
  | .ack msg => Sys2Proof.Machine.execAck msg s
  | .unknown msg => Sys2Proof.Machine.execUnknown msg s
  | .boardingWaveStart present trained => Sys2Proof.Machine.execBoardingWaveStart present trained s
  | .boardingReply site r => Sys2Proof.Machine.execBoardingReply site r s
  | .loadAck site late => Sys2Proof.Machine.execLoadAck site s late
  | .boardingSlotEnd => Sys2Proof.Machine.execBoardingSlotEnd s
  | .packageReady => Sys2Proof.Machine.execPackageReady s
  | .send site => Sys2Proof.Machine.execSend site s
  | .abort site => Sys2Proof.Machine.execAbort site s
  | .rxReadyClear site => Sys2Proof.Machine.execRxReadyClear site s
  | .siteReplyAssembled site msg => Sys2Proof.Machine.execSiteReplyAssembled site msg s
  | .siteReplyTimeout site => Sys2Proof.Machine.execSiteReplyTimeout site s
  | .sidebandDown site => Sys2Proof.Machine.execSidebandDown site s
  | .siteReboard body => Sys2Proof.Machine.execSiteReboard body s
  | .lockstepMismatch => Sys2Proof.Machine.execLockstepMismatch s
  | .warmRestartResume codeDigest => Sys2Proof.Machine.execWarmRestartResume codeDigest s
  | .warmRestartGuardExpiry => Sys2Proof.Machine.execWarmRestartGuardExpiry s
  | .pilotHalt code => Sys2Proof.Machine.execPilotHalt code s
  | .pilotAccessFault a => Sys2Proof.Machine.execPilotAccessFault a s
  | .program arm word => Sys2Proof.Machine.execProgram arm word s
  | .increment arm word => Sys2Proof.Machine.execIncrement arm word s
  | .finalise arm word => Sys2Proof.Machine.execFinalise arm word s
  | .lockWrite arm word => Sys2Proof.Machine.execLockWrite arm word s
  | .lockRead arm word => Sys2Proof.Machine.execLockRead arm word s
  | .resense arm word drift => Sys2Proof.Machine.execResense arm word drift s
  | .resenseAll arm word drift => Sys2Proof.Machine.execResenseAll arm word drift s
  | .wipe arm word => Sys2Proof.Machine.execWipe arm word s
  | .seal arm word => Sys2Proof.Machine.execSeal arm word s
  | .fuseReservedOp arm word op => Sys2Proof.Machine.execFuseReservedOp arm word op s
  | .fuseBitPulseDone level => Sys2Proof.Machine.execFuseBitPulseDone level s
  | .fuseTackCommit => Sys2Proof.Machine.execFuseTackCommit s
  | .go target => Sys2Proof.Machine.execGo target s
  | .grant rights => Sys2Proof.Machine.execGrant rights s
  | .invasiveGrantComplete => Sys2Proof.Machine.execInvasiveGrantComplete s
  | .transition => Sys2Proof.Machine.execTransition s
  | .debug => Sys2Proof.Machine.execDebug s
  | .resumeWipe => Sys2Proof.Machine.execResumeWipe s
  | .lcMboxReservedReq req => Sys2Proof.Machine.execLcMboxReservedReq req s
  | .endRequest code => Sys2Proof.Machine.execEndRequest code s
  | .generate c => Sys2Proof.Machine.execGenerate c s
  | .write c => Sys2Proof.Machine.execWrite c s
  | .read c => Sys2Proof.Machine.execRead c s
  | .derive c => Sys2Proof.Machine.execDerive c s
  | .destroy c => Sys2Proof.Machine.execDestroy c s
  | .attr c => Sys2Proof.Machine.execAttr c s
  | .berthOpen c => Sys2Proof.Machine.execBerthOpen c s
  | .rotate c => Sys2Proof.Machine.execRotate c s
  | .release c => Sys2Proof.Machine.execRelease c s
  | .wrap c => Sys2Proof.Machine.execWrap c s
  | .unwrap c => Sys2Proof.Machine.execUnwrap c s
  | .keypair c => Sys2Proof.Machine.execKeypair c s
  | .destroyAll c => Sys2Proof.Machine.execDestroyAll c s
  | .maintEncap c => Sys2Proof.Machine.execMaintEncap c s
  | .maintDecap c => Sys2Proof.Machine.execMaintDecap c s
  | .jobDraw c => Sys2Proof.Machine.execJobDraw c s
  | .jobEncap c => Sys2Proof.Machine.execJobEncap c s
  | .jobDecap c => Sys2Proof.Machine.execJobDecap c s
  | .promote c => Sys2Proof.Machine.execPromote c s
  | .jobDrop c => Sys2Proof.Machine.execJobDrop c s
  | .maintDraw c => Sys2Proof.Machine.execMaintDraw c s
  | .vaultReservedOp c op => Sys2Proof.Machine.execVaultReservedOp c op s
  | .invalidation isl => Sys2Proof.Machine.execInvalidation isl s
  | .invalidationAck isl => Sys2Proof.Machine.execInvalidationAck isl s
  | .vaultFill readable => Sys2Proof.Machine.execVaultFill readable s
  | .keyFillArrive isl => Sys2Proof.Machine.execKeyFillArrive isl s
  | .sweepDoneReport pier => Sys2Proof.Machine.execSweepDoneReport pier s
  | .sha384Op keysel => Sys2Proof.Machine.execSha384Op keysel s
  | .sha3Op keysel => Sys2Proof.Machine.execSha3Op keysel s
  | .hmacOp keysel => Sys2Proof.Machine.execHmacOp keysel s
  | .aesGcmEncrypt keysel => Sys2Proof.Machine.execAesGcmEncrypt keysel s
  | .aesGcmDecrypt keysel => Sys2Proof.Machine.execAesGcmDecrypt keysel s
  | .hybridSign keysel => Sys2Proof.Machine.execHybridSign keysel s
  | .hybridVerify keysel => Sys2Proof.Machine.execHybridVerify keysel s
  | .drbgRead keysel => Sys2Proof.Machine.execDrbgRead keysel s
  | .cryptoReservedOp keysel op => Sys2Proof.Machine.execCryptoReservedOp keysel op s
  | .cryptoOpDone => Sys2Proof.Machine.execCryptoOpDone s
  | .entropyTestFail => Sys2Proof.Machine.execEntropyTestFail s
  | .drbgReseed pass => Sys2Proof.Machine.execDrbgReseed pass s
  | .hello vf msg => Sys2Proof.Machine.execHello vf msg s
  | .prirdoRelease vf msg => Sys2Proof.Machine.execPrirdoRelease vf msg s
  | .prirdoEnd vf msg => Sys2Proof.Machine.execPrirdoEnd vf msg s
  | .prirdoReservedType vf msg => Sys2Proof.Machine.execPrirdoReservedType vf msg s
  | .prirdoSessionTimeout slot => Sys2Proof.Machine.execPrirdoSessionTimeout slot s
  | .enrolCsr body => Sys2Proof.Machine.execEnrolCsr body s
  | .enrolInstall body => Sys2Proof.Machine.execEnrolInstall body s
  | .updateStatus body => Sys2Proof.Machine.execUpdateStatus body s
  | .updateBegin body => Sys2Proof.Machine.execUpdateBegin body s
  | .updateWrite body => Sys2Proof.Machine.execUpdateWrite body s
  | .updateEnd body => Sys2Proof.Machine.execUpdateEnd body s
  | .updateAbort body => Sys2Proof.Machine.execUpdateAbort body s
  | .updateConfirm body => Sys2Proof.Machine.execUpdateConfirm body s
  | .updateEraseDone ok => Sys2Proof.Machine.execUpdateEraseDone ok s
  | .updateValidateDone programOk => Sys2Proof.Machine.execUpdateValidateDone programOk s
  | .trialConfirm => Sys2Proof.Machine.execTrialConfirm s
  | .slipwayCopy programOk => Sys2Proof.Machine.execSlipwayCopy programOk s
  | .counterBurn => Sys2Proof.Machine.execCounterBurn s
  | .settingsWrite programOk => Sys2Proof.Machine.execSettingsWrite programOk s
  | .berthQuery body => Sys2Proof.Machine.execBerthQuery body s
  | .berthAssign body => Sys2Proof.Machine.execBerthAssign body s
  | .berthWindow body => Sys2Proof.Machine.execBerthWindow body s
  | .berthSites body => Sys2Proof.Machine.execBerthSites body s
  | .berthCommit body => Sys2Proof.Machine.execBerthCommit body s
  | .berthCommitContinue berth => Sys2Proof.Machine.execBerthCommitContinue berth s
  | .berthRinse body => Sys2Proof.Machine.execBerthRinse body s
  | .berthRotate body => Sys2Proof.Machine.execBerthRotate body s
  | .berthResume body => Sys2Proof.Machine.execBerthResume body s
  | .ferryShare body => Sys2Proof.Machine.execFerryShare body s
  | .wipeAck site measurement signed => Sys2Proof.Machine.execWipeAck site measurement s signed
  | .wipeTimeout site => Sys2Proof.Machine.execWipeTimeout site s
  | .rinseStepDone berth => Sys2Proof.Machine.execRinseStepDone berth s
  | .rinseSequencerTakeover berth => Sys2Proof.Machine.execRinseSequencerTakeover berth s
  | .laneCommandAccept isl => Sys2Proof.Machine.execLaneCommandAccept isl s
  | .pierLine pier l => Sys2Proof.Machine.execPierLine pier l s
  | .pierReadReturn pier stored side => Sys2Proof.Machine.execPierReadReturn pier stored side s
  | .pierScrubWrite pier => Sys2Proof.Machine.execPierScrubWrite pier s
  | .pierZeroWrite pier => Sys2Proof.Machine.execPierZeroWrite pier s
  | .uninitFillWrite pier => Sys2Proof.Machine.execUninitFillWrite pier s
  | .pierSweepLine pier stored metaLine => Sys2Proof.Machine.execPierSweepLine pier stored metaLine s
  | .pairCompletionRead pier cursor stored side => Sys2Proof.Machine.execPairCompletionRead pier cursor stored side s
  | .pierCommitDrainDone pier => Sys2Proof.Machine.execPierCommitDrainDone pier s
  | .pierPark pier park => Sys2Proof.Machine.execPierPark pier park s
  | .pierCommitGo t seq => Sys2Proof.Machine.execPierCommitGo t seq s
  | .pierZeroGo t => Sys2Proof.Machine.execPierZeroGo t s
  | .pierZeroUninit t => Sys2Proof.Machine.execPierZeroUninit t s
  | .capturePinRetry vf => Sys2Proof.Machine.execCapturePinRetry vf s
  | .darn isl cause stateReadable spareOk => Sys2Proof.Machine.execDarn isl cause stateReadable spareOk s
  | .broadcastAckTimeout isl => Sys2Proof.Machine.execBroadcastAckTimeout isl s
  | .spotTestStart g => Sys2Proof.Machine.execSpotTestStart g s
  | .spotTestEnd g pass => Sys2Proof.Machine.execSpotTestEnd g pass s
  | .broadcast k => Sys2Proof.Machine.execBroadcast k s
  | .broadcastAck isl => Sys2Proof.Machine.execBroadcastAck isl s
  | .linkTrainedEvent lane => Sys2Proof.Machine.execLinkTrainedEvent lane s
  | .linkLayerDown lane => Sys2Proof.Machine.execLinkLayerDown lane s
  | .linkHello lane f => Sys2Proof.Machine.execLinkHello lane f s
  | .linkKex lane f => Sys2Proof.Machine.execLinkKex lane f s
  | .linkEvidence lane f => Sys2Proof.Machine.execLinkEvidence lane f s
  | .linkFin lane f => Sys2Proof.Machine.execLinkFin lane f s
  | .linkError lane f => Sys2Proof.Machine.execLinkError lane f s
  | .keepalive lane f => Sys2Proof.Machine.execKeepalive lane f s
  | .rekey lane f => Sys2Proof.Machine.execRekey lane f s
  | .jobOffer lane f => Sys2Proof.Machine.execJobOffer lane f s
  | .jobAccept lane f => Sys2Proof.Machine.execJobAccept lane f s
  | .discover lane f => Sys2Proof.Machine.execDiscover lane f s
  | .echo lane f => Sys2Proof.Machine.execEcho lane f s
  | .formed lane f => Sys2Proof.Machine.execFormed lane f s
  | .route lane f => Sys2Proof.Machine.execRoute lane f s
  | .payload lane f => Sys2Proof.Machine.execPayload lane f s
  | .reservedKindFrame lane f => Sys2Proof.Machine.execReservedKindFrame lane f s
  | .linkHelloTimeout lane => Sys2Proof.Machine.execLinkHelloTimeout lane s
  | .linkReopenTimer lane => Sys2Proof.Machine.execLinkReopenTimer lane s
  | .linkSilenceTimeout lane => Sys2Proof.Machine.execLinkSilenceTimeout lane s
  | .keepaliveTimer lane => Sys2Proof.Machine.execKeepaliveTimer lane s
  | .creditWithholdTimeout lane => Sys2Proof.Machine.execCreditWithholdTimeout lane s
  | .evidenceBatchTimer => Sys2Proof.Machine.execEvidenceBatchTimer s
  | .jobOfferRetry lane => Sys2Proof.Machine.execJobOfferRetry lane s
  | .rekeyThreshold lane job => Sys2Proof.Machine.execRekeyThreshold lane job s
  | .close lane => Sys2Proof.Machine.execClose lane s
  | .gwPark lane park => Sys2Proof.Machine.execGwPark lane park s
  | .gwCommitGo t seq => Sys2Proof.Machine.execGwCommitGo t seq s
  | .gwCfSend lane => Sys2Proof.Machine.execGwCfSend lane s
  | .gwCfRxFree lane => Sys2Proof.Machine.execGwCfRxFree lane s
  | .pairDigest body => Sys2Proof.Machine.execPairDigest body s
  | .pairVerdict body => Sys2Proof.Machine.execPairVerdict body s
  | .jobLeave body => Sys2Proof.Machine.execJobLeave body s
  | .jobOpen vf body => Sys2Proof.Machine.execJobOpen vf body s
  | .jobClose vf body => Sys2Proof.Machine.execJobClose vf body s
  | .jobCloseComplete vf => Sys2Proof.Machine.execJobCloseComplete vf s
  | .pressDeclPort vf offset data => Sys2Proof.Machine.execPressDeclPort vf offset data s
  | .declare site data => Sys2Proof.Machine.execDeclare site data s
  | .declHeadCheck vf => Sys2Proof.Machine.execDeclHeadCheck vf s
  | .declArm vf => Sys2Proof.Machine.execDeclArm vf s
  | .rangeDone pier range => Sys2Proof.Machine.execRangeDone pier range s
  | .operandWaitTimeout vf declId tile => Sys2Proof.Machine.execOperandWaitTimeout vf declId tile s
  | .tileDispatch array => Sys2Proof.Machine.execTileDispatch array s
  | .tileComplete array d => Sys2Proof.Machine.execTileComplete array d s
  | .arrayFault array cause => Sys2Proof.Machine.execArrayFault array cause s
  | .verdictApply vf => Sys2Proof.Machine.execVerdictApply vf s
  | .pressVerdictCons vf value => Sys2Proof.Machine.execPressVerdictCons vf value s
  | .pressRegionCommit vf => Sys2Proof.Machine.execPressRegionCommit vf s
  | .pressPark array park => Sys2Proof.Machine.execPressPark array park s
  | .holdCheck ch => Sys2Proof.Machine.execHoldCheck ch s
  | .holdQuery vf body => Sys2Proof.Machine.execHoldQuery vf body s
  | .jobPeers vf body => Sys2Proof.Machine.execJobPeers vf body s
  | .pairPoint vf body => Sys2Proof.Machine.execPairPoint vf body s
  | .pairStatus vf body => Sys2Proof.Machine.execPairStatus vf body s
  | .pairCursorDone pier cursor => Sys2Proof.Machine.execPairCursorDone pier cursor s
  | .pairDigestTimeout vf point => Sys2Proof.Machine.execPairDigestTimeout vf point s
  | .pairVerdictTimeout vf point => Sys2Proof.Machine.execPairVerdictTimeout vf point s
  | .idleTest => Sys2Proof.Machine.execIdleTest s
  | .idleTestReport site testId result detail => Sys2Proof.Machine.execIdleTestReport site testId result detail s
  | .idleTestTimeout site => Sys2Proof.Machine.execIdleTestTimeout site s
  | .ferryChDoorbell vf k => Sys2Proof.Machine.execFerryChDoorbell vf k s
  | .stop vf k => Sys2Proof.Machine.execStop vf k s
  | .skip vf k => Sys2Proof.Machine.execSkip vf k s
  | .resume vf k => Sys2Proof.Machine.execResume vf k s
  | .descriptorFetchDone ch desc => Sys2Proof.Machine.execDescriptorFetchDone ch desc s
  | .engineStart eng => Sys2Proof.Machine.execEngineStart eng s
  | .descriptorDone eng => Sys2Proof.Machine.execDescriptorDone eng s
  | .hostCompletion fn tag c => Sys2Proof.Machine.execHostCompletion fn tag c s
  | .fabricResponse eng r data => Sys2Proof.Machine.execFabricResponse eng r data s
  | .hostRequestRetry fn tag => Sys2Proof.Machine.execHostRequestRetry fn tag s
  | .completionTimeout fn tag => Sys2Proof.Machine.execCompletionTimeout fn tag s
  | .tagQuarantineExpiry fn tag => Sys2Proof.Machine.execTagQuarantineExpiry fn tag s
  | .ferryPchGo p => Sys2Proof.Machine.execFerryPchGo p s
  | .ferryPchAbort p => Sys2Proof.Machine.execFerryPchAbort p s
  | .ferryCommit seq => Sys2Proof.Machine.execFerryCommit seq s
  | .peripheralRequest p asserted => Sys2Proof.Machine.execPeripheralRequest p asserted s
  | .peripheralBurstDone p => Sys2Proof.Machine.execPeripheralBurstDone p s
  | .ferryEngineFault eng => Sys2Proof.Machine.execFerryEngineFault eng s
  | .islandRestart isl => Sys2Proof.Machine.execIslandRestart isl s
  | .vaultIslandRestart cutLevel => Sys2Proof.Machine.execVaultIslandRestart s cutLevel
  | .hostUnsupportedRequest fn posted r => Sys2Proof.Machine.execHostUnsupportedRequest fn posted r s
  | .mbxGo fn => Sys2Proof.Machine.execMbxGo fn s
  | .next fn => Sys2Proof.Machine.execNext fn s
  | .mbxAbort fn => Sys2Proof.Machine.execMbxAbort fn s
  | .mbxExpiry fn => Sys2Proof.Machine.execMbxExpiry fn s
  | .hgPPop => Sys2Proof.Machine.execHgPPop s
  | .hgPRespSend slot => Sys2Proof.Machine.execHgPRespSend slot s
  | .unitStatus body => Sys2Proof.Machine.execUnitStatus body s
  | .mailboxUnknownCode fn code => Sys2Proof.Machine.execMailboxUnknownCode fn code s
  | .flr fn => Sys2Proof.Machine.execFlr fn s
  | .busMasterClear fn => Sys2Proof.Machine.execBusMasterClear fn s
  | .busMasterSet fn => Sys2Proof.Machine.execBusMasterSet fn s
  | .vfEnableChange enable numVfs => Sys2Proof.Machine.execVfEnableChange enable numVfs s
  | .conventionalReset => Sys2Proof.Machine.execConventionalReset s
  | .invalidateRequest fn itag base size => Sys2Proof.Machine.execInvalidateRequest fn itag base size s
  | .invalidateCompletion fn => Sys2Proof.Machine.execInvalidateCompletion fn s
  | .translationCompletion fn tag c => Sys2Proof.Machine.execTranslationCompletion fn tag c s
  | .prgResponse fn index r => Sys2Proof.Machine.execPrgResponse fn index r s
  | .pageRequestTimeout fn index => Sys2Proof.Machine.execPageRequestTimeout fn index s
  | .pageRequestIndexRelease fn index => Sys2Proof.Machine.execPageRequestIndexRelease fn index s
  | .jrnAqPop => Sys2Proof.Machine.execJrnAqPop s
  | .journalRecordCommit programOk => Sys2Proof.Machine.execJournalRecordCommit programOk s
  | .ring => Sys2Proof.Machine.execRing s
  | .hostPost => Sys2Proof.Machine.execHostPost s
  | .fltCons value => Sys2Proof.Machine.execFltCons value s
  | .powerOnHourTick => Sys2Proof.Machine.execPowerOnHourTick s
  | .countersRecordTimer => Sys2Proof.Machine.execCountersRecordTimer s
  | .timeNonce body => Sys2Proof.Machine.execTimeNonce body s
  | .timeNonceExpiry => Sys2Proof.Machine.execTimeNonceExpiry s
  | .timeMark body => Sys2Proof.Machine.execTimeMark body s
  | .journalRead body => Sys2Proof.Machine.execJournalRead body s
  | .counters body => Sys2Proof.Machine.execCounters body s
  | .ready => Sys2Proof.Machine.execReady s
  | .forward => Sys2Proof.Machine.execForward s
  | .cringSend => Sys2Proof.Machine.execCringSend s
  | .cringRxFree => Sys2Proof.Machine.execCringRxFree s
  | .registerWrite p addr value => Sys2Proof.Machine.execRegisterWrite p addr value s
  | .packagePowerFail cutLevel => Sys2Proof.Machine.execPackagePowerFail cutLevel s
  | .trstNAssert => Sys2Proof.Machine.execTrstNAssert s
  | .msixMaskChange fn vector masked enable => Sys2Proof.Machine.execMsixMaskChange fn vector masked enable s
  | .priEnableChange fn enable => Sys2Proof.Machine.execPriEnableChange fn enable s

end Sys2Proof.Machine
end

