-- ==== Sys2Proof/Safety.lean ====
section
/-! DEFINITION. What claims call a safe step: one that answers a next state, as every command of MB3 does. -/

namespace Sys2Proof.Machine

/-- The outcome is a next state, neither a fault nor a refusal. -/
def Completes (o : Out) : Prop := ∃ t, o = .next t

/-- The outcome is a next state of which P holds. -/
def CompletesWith (o : Out) (P : State → Prop) : Prop := ∃ t, o = .next t ∧ P t

/-- An SPDM request reaches the responder over a transport: Pilot runs firmware, and on the ring the segment is inserted, READY
is 1 and CRING_RX_BUF is free (R81, R587). -/
def Asked (s : State) : Transport → Prop
  | .pf0 => pilotUp s = true
  | .ring _ => inserted s = true ∧ s.ring.ready = true ∧ s.ring.rxReady = false ∧ pilotUp s = true

/-- A request served over a transport: over PF0 by `f`; on the ring it is placed in CRING_RX_BUF with its source, `f` serves it, and RX_READY
is free again (R587). -/
def servedOver (s : State) (t : Transport) (req : List Bytes) (f : State → State) : State :=
  match t with
  | .pf0 => f s
  | .ring src =>
    let msg := 0x05 :: Config.requestBytes req
    let s1 := f { s with ring := { s.ring with
      rxBuf := mOf msg, rxLen := BitVec.ofNat 14 msg.length, srcEid := src, rxReady := true } }
    { s1 with ring := { s1.ring with rxReady := false } }

/-- The islands run and the host port is open: the boundary register does not control the pins (R90). -/
def HostOpen (s : State) : Prop := accepts s = true ∧ s.pins.boundaryControls = false

/-- The islands run and no report of a Pier waits for Press, Line hold or Pair (R359, R441, R478). -/
def Quiet (s : State) : Prop := accepts s = true ∧ s.reports = { rewritten := [], lost := [], pairBad := [] }

end Sys2Proof.Machine
end

