-- ==== Sys2Proof/Certificates/Slice0/Obligations.lean ====
section
/-! DEFINITION. What is claimed of MB3: statements of the spec's rules over every state, for the provers. -/

open Sys2Proof Sys2Proof.Machine

/-- A message leaves, with the ring packets or the sideband messages that carry it (R82, R91). -/
def Sent (s t : State) (e : Emission) : Prop :=
  ∃ parts : List Emission, t.out = parts ++ e :: s.out ∧ ∀ x ∈ parts, (∃ f, x = .ringFrame f) ∨ ∃ k i b, x = .sidebandPart k i b

/-! ### The boundary (02) -/

/-- R66, R44, R160: MB_PORST_N and a power failure leave every part of the state at its reset value but the fuse cells, where a pulse in
progress is cut, the flash, the model's own list of emissions, its count of DRBG bytes and its queue; R66, R67, R105: release takes the
strap value, shows 0x01, enters the ROM and starts every island's PLL; R70: the halt line seen low is held; R74: the reference clock's loss
halts with 0x80 and forwards a held token, a Pier or Gangway lane whose PLL loses lock is parked without its clock, the Trust Core's loss
stops Pilot's cores; R156: VPP_OK sets, in the ROM; R161: VPP_FUSE out of its window clears VPP_OK, and in a pulse of a FUSE_CMD sets
VPP_LOST and ends the command with 0x09; TRST_N selects IDCODE. -/
def Obligations.ResetAndClocks : Prop :=
  (∀ (s : State) (cut : BitVec 3), CompletesWith (exec (.mbPorstNAssert cut) s) (fun t =>
    { t with fuse := State.reset.fuse, pilot := State.reset.pilot, flash := State.reset.flash, out := State.reset.out,
             pending := State.reset.pending } = State.reset ∧
    { t.fuse with cells := fuseReset.cells } = fuseReset ∧ t.fuse.cells = (pulseArray s.fuse cut).cells ∧
    { t.pilot with drawn := pilotReset.drawn } = pilotReset ∧ t.flash = s.flash ∧ t.pending = s.pending)) ∧
  (∀ (s : State) (cut : BitVec 3), exec (.packagePowerFail cut) s = exec (.mbPorstNAssert cut) s) ∧
  (∀ (s : State) (b : BitVec 2) (vpp : Bool), s.pins.porstLow = true → CompletesWith (exec (.resetRelease b vpp) s) (fun t =>
    t.pins.porstLow = false ∧ t.pins.bootsel = b ∧ t.pins.stat = 0x01 ∧ t.pilot.phase = .rom ∧
    (∀ i, i < 234 → (tget islandInit t.isl i).pll = true))) ∧
  (∀ s : State, accepts s = true → s.pins.haltLow = false →
    exec .haltSeenElsewhere s = .next { s with pins := { s.pins with haltSeen := true } }) ∧
  (∀ s : State, accepts s = true → s.pilot.phase ≠ .halted → CompletesWith (exec .referenceClockLoss s) (fun t =>
    t.pins.haltLow = true ∧ t.pins.stat = 0x80 ∧ t.pilot.phase = .halted ∧ t.pilot.haltCode = 0x80 ∧ t.ring.held = none ∧
    t.vault = s.vault ∧ t.fuse = s.fuse ∧ t.piers = s.piers)) ∧
  (∀ (s : State) (n : Nat) (readable spareOk : Bool), accepts s = true → n < 154 →
    CompletesWith (exec (.pllLockLoss (.pier n) readable spareOk) s) (fun t =>
      (t.island (.pier n)).pll = false ∧ (t.island (.pier n)).parked = true)) ∧
  (∀ (s : State) (n : Nat) (readable spareOk : Bool), accepts s = true → n < 52 →
    CompletesWith (exec (.pllLockLoss (.gangway n) readable spareOk) s) (fun t =>
      (t.island (.gangway n)).pll = false ∧ (t.island (.gangway n)).parked = true)) ∧
  (∀ (s : State) (readable spareOk : Bool), accepts s = true → s.pilot.phase ≠ .halted →
    CompletesWith (exec (.pllLockLoss .trustCore readable spareOk) s) (fun t =>
      (t.island .trustCore).pll = false ∧ t.pilot.phase = .stopped)) ∧
  (∀ s : State, accepts s = true → s.pilot.phase = .rom →
    exec .vppOkSet s = .next { s with fuse := { s.fuse with vppOk := true } }) ∧
  (∀ (s : State) (level : BitVec 3), accepts s = true → s.fuse.op = none →
    exec (.vppWindowExit level) s = .next { s with fuse := { s.fuse with vppOk := false } }) ∧
  (∀ (s : State) (level : BitVec 3) (op : FuseOp) (w : Nat) (cw : BitVec 72) (rest : List (Nat × BitVec 72)), accepts s = true →
    s.fuse.op = some op → op.owner = .command → op.todo = (w, cw) :: rest → s.lc.run = none →
    CompletesWith (exec (.vppWindowExit level) s) (fun t =>
      t.fuse.vppOk = false ∧ t.fuse.op = none ∧ t.fuse.busy = false ∧ t.fuse.done = true ∧ t.fuse.lastErr = 0x09 ∧
      t.fuse.alarm.getLsbD 4 = true ∧ t.fuse.cells = (pulseArray s.fuse level).cells ∧
      (t.shadow w).cls = (classify (tget cellBlank (pulseArray s.fuse level).cells w)).cls ∧ t.vault = s.vault ∧ t.lc = s.lc)) ∧
  (∀ s : State, accepts s = true → exec .trstNAssert s = .next { s with pins := { s.pins with ir := .idcode } })

/-- R88-R90: in a segment that is in the chain, BYPASS, IDCODE, SAMPLE_PRELOAD and EXTEST select themselves and shift out 0, the identity,
the sampled pins; LC_MBOX selects itself, and DEBUG_PORT where a right is granted; what the boundary register samples of MB_STAT, MB_HALT_N
and CRING_BYP while the halt line is driven; no emission of a closed path while the boundary register controls the pins. R192: with the
debug port selected, a read of a register under PILOT_READ gives its value, a write under PILOT_WRITE of FUSE_QUERY stores it, and
PILOT_RUN's halt stops the cores. -/
def Obligations.TestChain : Prop :=
  (∀ s : State, chained s = true → exec .bypass s = .next { s with pins := { s.pins with ir := .bypass }, out := .jtag 0 :: s.out }) ∧
  (∀ s : State, chained s = true →
    exec .idcode s = .next { s with pins := { s.pins with ir := .idcode }, out := .jtag (idcodeWord s) :: s.out }) ∧
  (∀ (s : State) (p b : BitVec 21), chained s = true → exec (.samplePreload p b) s =
    .next { s with pins := { s.pins with ir := .samplePreload, boundary := b }, out := .jtag ((sampled s p).setWidth 32) :: s.out }) ∧
  (∀ (s : State) (p : BitVec 21), s.pins.boundaryControls = false → s.pins.haltLow = true →
    (sampled s p).extractLsb' 3 8 = s.pins.stat ∧ (sampled s p).getLsbD 11 = false ∧ (sampled s p).getLsbD 16 = s.pins.cringByp) ∧
  (∀ (s : State) (p v : BitVec 21), chained s = true → CompletesWith (exec (.extest p v) s) (fun t =>
    t.pins = { s.pins with ir := .extest, boundaryControls := true, boundary := v } ∧
    t.out.take 3 = [.pinsDriven v, .jtag ((sampled { s with pins := { s.pins with boundaryControls := true } } p).setWidth 32),
      .pinsDriven s.pins.boundary])) ∧
  (∀ (s : State) (e : Emission), s.pins.boundaryControls = true → closedPath e = true → (emit s e).out = s.out) ∧
  (∀ s : State, chained s = true →
    exec (.jtagPrivateInstruction .lcMbox) s = .next { s with pins := { s.pins with ir := .lcMbox } }) ∧
  (∀ s : State, chained s = true → s.lc.grant ≠ 0 →
    exec (.jtagPrivateInstruction .debugPort) s = .next { s with pins := { s.pins with ir := .debugPort } }) ∧
  (∀ (s : State) (a d : Word) (b : Block) (o : Nat), chained s = true → s.pins.ir = .debugPort → s.lc.grant.getLsbD 1 = true →
    0x40000 ≤ a.toNat → sramAt a.toNat = none → blockAt a.toNat = some (b, o) →
    exec (.debugPortAccess .read a d) s = .next { s with out := .debugData (pilotRead s a.toNat) :: s.out }) ∧
  (∀ (s : State) (v : Word), chained s = true → s.pins.ir = .debugPort → s.lc.grant.getLsbD 2 = true →
    exec (.debugPortAccess .write 0x21000014 v) s = .next { s with fuse := { s.fuse with query := v.setWidth 12 } }) ∧
  (∀ (s : State) (a v : Word), chained s = true → s.pins.ir = .debugPort → s.lc.grant.getLsbD 0 = true → s.pilot.phase = .firmware →
    exec (.debugPortAccess .halt a v) s = .next { s with pilot := { s.pilot with phase := .stopped, stoppedIn := .firmware } })

/-! ### The Cable ring (02, 17) -/

/-- R76-R80, R82, R85-R87, R586: a frame that frameBytes lays out parses to itself; the agent's start raises CRING_BYP and sends the
enumerate request; a frame of KIND 1 for another position goes on with HOPS one lower, and one with HOPS 0, of another KIND or of MB3's own
is dropped; an enumerate frame gives the position; a token that is waited for, or comes after the first limit, is held; FORWARD sends it on;
the limit of a waiting token; READY where no token is waited for; SEND hands CRING_TX_BUF to the packet layer; RX_READY freed. A message
goes out in packets of at most 64 B of it that join to it again, one emission each and nothing else changed, and the packets of a message of
at most 64 B to MB3's endpoint ID are taken as that message. -/
def Obligations.RingAgent : Prop :=
  (∀ f : RingFrame, 1 ≤ f.payload.length → f.payload.length ≤ 68 → parseFrame (frameBytes f) = some f) ∧
  (∀ s : State, accepts s = true → s.pins.cringByp = false → s.pins.boundaryControls = false → exec .cableRingAgentStart s =
    .next { s with pins := { s.pins with cringByp := true }, out := .ringFrame (frameBytes (enumerateRequest s)) :: s.out }) ∧
  (∀ (s : State) (raw : Bytes) (f : RingFrame), inserted s = true → parseFrame raw = some f → f.kind = 1 → f.hops ≠ 0 →
    s.ring.enumerated = true → f.src ≠ s.ring.position → f.dst ≠ s.ring.position → f.dst ≠ 0xFF →
    exec (.ringFrameReceive raw) s = .next { s with out := .ringFrame (frameBytes { f with hops := f.hops - 1 }) :: s.out }) ∧
  (∀ (s : State) (raw : Bytes) (f : RingFrame), inserted s = true → parseFrame raw = some f →
    f.hops = 0 ∨ f.kind = 0 ∨ 4 ≤ f.kind.toNat ∨ (s.ring.enumerated = true ∧ f.src = s.ring.position) →
    exec (.ringFrameReceive raw) s = .next s) ∧
  (∀ (s : State) (f : RingFrame), inserted s = true → f.hops ≠ 0 → exec (.ringEnumerate f) s =
    .next { s with ring := { s.ring with position := byteAt f.payload 0, enumerated := true }
                   out := .ringFrame (frameBytes { f with hops := f.hops - 1, payload := (byteAt f.payload 0 + 1) :: f.payload.drop 1 }) :: s.out }) ∧
  (∀ (s : State) (f : RingFrame), inserted s = true → f.hops ≠ 0 → s.pilot.phase ≠ .halted → s.fuse.sensed = true →
    tokenWait s.fuse ≠ 0 → s.ring.held = none → s.ring.token = .waiting → exec (.orderingToken f) s =
    .next { s with ring := { s.ring with held := some { f with hops := f.hops - 1 }, token := .holding, secondLimit := true } }) ∧
  (∀ (s : State) (f : RingFrame), inserted s = true → f.hops ≠ 0 → s.pilot.phase ≠ .halted → s.fuse.sensed = true →
    s.ring.held = none → s.ring.token = .released → tokenWait s.fuse ≠ 0 → exec (.orderingToken f) s =
    .next { s with ring := { s.ring with held := some { f with hops := f.hops - 1 }, token := .holding } }) ∧
  (∀ (s : State) (f : RingFrame), commanded s = true → s.ring.held = some f → CompletesWith (exec .forward s) (fun t =>
    t = { s with ring := { s.ring with held := none, secondLimit := false, token := .done }, out := .ringFrame (frameBytes f) :: s.out })) ∧
  (∀ s : State, accepts s = true → s.pilot.phase = .firmware → s.jrn.scanned = false → s.ring.token = .waiting →
    CompletesWith (exec .tokenWaitLimit s) (fun t =>
      t.ring.token = .released ∧ t.ring.secondLimit = true ∧ t.jrn.early.length = s.jrn.early.length + 1 ∧ t.out = s.out ∧
      t.vault = s.vault)) ∧
  (∀ s : State, commanded s = true → tokenWait s.fuse = 0 →
    exec .ready s = .next { s with ring := { s.ring with ready := true } }) ∧
  (∀ s : State, inserted s = true → s.ring.txBusy = false → 1 ≤ s.ring.txLen.toNat → s.ring.txLen.toNat ≤ 8192 →
    exec .cringSend s = .next (sendMctp s s.ring.dstEid (tfind s.ring.peers s.ring.dstEid.toNat).isNone
      (.mctp s.ring.dstEid (mread 0 s.ring.txBuf 0 s.ring.txLen.toNat)) (mread 0 s.ring.txBuf 0 s.ring.txLen.toNat))) ∧
  (∀ s : State, commanded s = true → exec .cringRxFree s = .next { s with ring := { s.ring with rxReady := false } }) ∧
  (∀ (dst src : Byte) (owner : Bool) (tag : BitVec 3) (msg : Bytes),
    (mctpPackets dst src owner tag msg).length = (msg.length + 63) / 64 ∧
    (mctpPackets dst src owner tag msg).flatMap (·.drop 4) = msg ∧
    (∀ p ∈ mctpPackets dst src owner tag msg, 5 ≤ p.length ∧ p.length ≤ 68 ∧ p.take 3 = [0x01, dst, src])) ∧
  (∀ (s : State) (dst : Byte) (owner : Bool) (e : Emission) (msg : Bytes), s.pins.boundaryControls = false →
    (sendMctp s dst owner e msg).out.length = s.out.length + 1 + (msg.length + 63) / 64 ∧
    { sendMctp s dst owner e msg with out := s.out } = s) ∧
  (∀ (s : State) (pos src : Byte) (tag : BitVec 3) (msg : Bytes), 1 ≤ msg.length → msg.length ≤ 64 →
    (mctpPackets s.ring.eid src true tag msg).foldl (fun s p => packet s pos p) s =
      message { s with ring := { s.ring with
        assembly := tdel s.ring.assembly (src.toNat * 16 + 8 + tag.toNat)
        peers := tset s.ring.peers src.toNat { pos := pos, tag := tag, inst := (byteAt msg 1).extractLsb' 0 5 } } } src msg)

/-- R82-R84, R567, R587: Set Endpoint ID, Get Endpoint ID and the two version commands, while READY is 1, are answered, another message type
with an error, and the first two before READY with not-ready; GET_UNIT_STATUS is answered in every condition of an inserted agent, also from
a whole message of type 0x7F; GET_BERTH_STATE goes through CRING_RX_BUF to Pilot, which answers with the berth's state and level, or with
invalid-argument, and frees the buffer; with the buffer full it is refused and BUSY_SENT sets; the second after an ALARM_NOTIFY with nothing
coalesced ends its hold-off. -/
def Obligations.RingMessages : Prop :=
  (∀ (s : State) (src eid : Byte), inserted s = true → s.ring.ready = true → eid ≠ 0 → eid ≠ 0xFF →
    exec (.setEndpointId src eid) s = .next (answerControl { s with ring := { s.ring with eid := eid, owner := src } } src 1 [0, 0, eid, 0])) ∧
  (∀ (s : State) (src : Byte), inserted s = true → s.ring.ready = true →
    exec (.getEndpointId src) s = .next (answerControl s src 2 [0, s.ring.eid, 0, 0]) ∧
    exec (.getMctpVersionSupport src) s = .next (answerControl s src 4 [0, 1, 0xF1, 0xF3, 0xF1, 0x00]) ∧
    exec (.getMessageTypeSupport src) s = .next (answerControl s src 5 [0, 2, 0x05, 0x7F])) ∧
  (∀ (s : State) (src eid : Byte), inserted s = true → s.ring.ready = false →
    exec (.setEndpointId src eid) s = .next (sendNotReady s src) ∧ exec (.getEndpointId src) s = .next (sendNotReady s src)) ∧
  (∀ (s : State) (src typ : Byte), inserted s = true → s.ring.ready = true → typ ≠ 0 → typ ≠ 5 → typ ≠ 0x7F →
    exec (.mctpOtherMessage src typ) s = .next (sendError s src 0x05)) ∧
  (∀ (s : State) (src : Byte), inserted s = true → CompletesWith (exec (.getUnitStatus src) s) (fun t =>
    { t with out := s.out } = s ∧
    Sent s t (.unitStatus src s.pins.stat (s.pilot.phase == .halted) s.pins.haltSeen s.lc.state s.pilot.milestone
      s.ring.position (s.lc.grant &&& invasiveMask != 0)))) ∧
  (∀ (s : State) (src : Byte) (m : Bytes), message s src (0x7F :: m) =
    if Config.vendorRequest (0x7F :: m) = 0 then unitStatusAnswer s src else toPilot s src (0x7F :: m)) ∧
  (∀ (s : State) (src : Byte) (b : Nat), inserted s = true → pilotUp s = true → s.ring.ready = true → s.ring.rxReady = false →
    CompletesWith (exec (.getBerthState src b) s) (fun t =>
      Sent s t (if b < 4096 then .berthState src b (berthCode (s.berth b).state) (levelCode (s.berth b).level) else .berthInvalid src) ∧
      t.ring.srcEid = src ∧ t.ring.rxReady = false ∧ { t with out := s.out, ring := s.ring } = s ∧
      { t.ring with rxBuf := s.ring.rxBuf, rxLen := s.ring.rxLen, srcEid := s.ring.srcEid } = s.ring)) ∧
  (∀ (s : State) (src : Byte) (b : Nat), inserted s = true → s.ring.ready = true → s.ring.rxReady = true →
    exec (.getBerthState src b) s = .next (sendError { s with ring := { s.ring with busySent := true } } src 0x01)) ∧
  (∀ (s : State) (kind : BitVec 16), accepts s = true → (tget notifyInit s.ring.notify kind.toNat).count = 0 →
    exec (.alarmNotifyHoldoffExpiry kind) s = .next { s with
      ring := { s.ring with
        notify := tset s.ring.notify kind.toNat { tget notifyInit s.ring.notify kind.toNat with holdoff := false } } })

/-! ### Attestation over SPDM (07) -/

/-- R83, R198, R256-R258, R587: over the ring, through CRING_RX_BUF, and over PF0, once the requests before it were answered: the answers to
GET_VERSION, GET_CAPABILITIES, NEGOTIATE_ALGORITHMS with both algorithms offered, GET_DIGESTS, GET_CERTIFICATE of a present slot for a
portion inside the chain, CHALLENGE of slot 0, and GET_MEASUREMENTS of index 0 and of one index 1 to 10 without a signature; a certificate
or challenge of a slot above 1, an index R256 does not allow and request code 0xE4 are refused with UnsupportedRequest, and CHALLENGE while
an invasive right is open with Unspecified. A response on the ring is handed to the packet layer; over PF0 it takes the message slot and
leaves as the reply to code 0x10. -/
def Obligations.SpdmRequests : Prop :=
  (∀ (s : State) (t : Transport), Asked s t → exec (.getVersion t) s = .next (servedOver s t [[0x84]]
    (fun s => spdmSend (s.setConn t spdmReset) t (.version [.v12, .v13])))) ∧
  (∀ (s : State) (t : Transport) (v : SpdmVersion), Asked s t → exec (.getCapabilities t v) s =
    .next (servedOver s t [[0xE1], [if v = .v12 then 0x12 else 0x13]] (fun s =>
      spdmSend (s.setConn t { version := some v, caps := true, algs := false }) t (.capabilities true true true 13 8192 8192)))) ∧
  (∀ (s : State) (t : Transport), Asked s t → (s.conn t).caps = true → exec (.negotiateAlgorithms t true true) s =
    .next (servedOver s t [[0xE3], [1, 1]] (fun s => spdmSend (s.setConn t { s.conn t with algs := true }) t (.algorithms true true)))) ∧
  (∀ (s : State) (t : Transport), Asked s t → (s.conn t).algs = true → s.pilot.aliasReady = true → exec (.getDigests t) s =
    .next (servedOver s t [[0x81]] (fun s => spdmSend s t (.digests (sha384 (certChain s 0))
      (if (s.slot 3).valid then some (sha384 (certChain s 1)) else none))))) ∧
  (∀ (s : State) (t : Transport) (slot offset length : Nat), Asked s t → (s.conn t).algs = true → s.pilot.aliasReady = true →
    (slot = 0 ∧ s.pilot.enrolled.1 = true) ∨ (slot = 1 ∧ (s.slot 3).valid = true) → offset + length ≤ (certChain s slot).length →
    0 < length →
    exec (.getCertificate t slot offset length) s = .next (servedOver s t [[0x82], toLe 1 slot, toLe 4 offset, toLe 4 length] (fun s =>
      spdmSend s t (.certificate slot (((certChain s slot).drop offset).take (min length 8184))
        ((certChain s slot).length - offset - min length 8184))))) ∧
  (∀ (s : State) (t : Transport) (slot offset length : Nat) (nonce : Bytes), Asked s t → (s.conn t).algs = true →
    s.pilot.aliasReady = true → 2 ≤ slot → s.lc.grant &&& invasiveMask = 0 → s.pilot.assignClosed = false →
    exec (.getCertificate t slot offset length) s = .next (servedOver s t [[0x82], toLe 1 slot, toLe 4 offset, toLe 4 length] (fun s =>
      spdmRefuse s t .unsupportedRequest)) ∧
    exec (.challenge t slot nonce) s = .next (servedOver s t [[0x83], toLe 1 slot, nonce] (fun s => spdmRefuse s t .unsupportedRequest))) ∧
  (∀ (s : State) (t : Transport) (nonce : Bytes), Asked s t → (s.conn t).algs = true → s.pilot.aliasReady = true →
    s.lc.grant &&& invasiveMask = 0 → s.pilot.assignClosed = false → s.pilot.enrolled.1 = true → slotServes s 4 6 = true →
    exec (.challenge t 0 nonce) s = .next (servedOver s t [[0x83], [0], nonce] (fun s =>
      spdmSend (drew s 1) t (.challengeAuth 0 (sha384 (certChain s 0)) (measSummary s)
        ((aliasSign s [[0], nonce, sha384 (certChain s 0), measSummary s]).take 96)
        ((aliasSign s [[0], nonce, sha384 (certChain s 0), measSummary s]).drop 96))))) ∧
  (∀ (s : State) (t : Transport) (slot : Nat) (nonce : Bytes), Asked s t → (s.conn t).algs = true → s.pilot.aliasReady = true →
    s.lc.grant &&& invasiveMask ≠ 0 → exec (.challenge t slot nonce) s =
      .next (servedOver s t [[0x83], toLe 1 slot, nonce] (fun s => spdmRefuse s t .unspecified))) ∧
  (∀ (s : State) (t : Transport) (nonce : Bytes), Asked s t → (s.conn t).algs = true → s.pilot.aliasReady = true →
    s.lc.grant &&& invasiveMask = 0 → s.pilot.assignClosed = false →
    exec (.getMeasurements t 0 false nonce) s = .next (servedOver s t [[0xE0], [0, 0], nonce] (fun s =>
      spdmSend s t (.measurements s.pilot.measurements.length [] [] [])))) ∧
  (∀ (s : State) (t : Transport) (index : Byte) (nonce : Bytes) (v : Bytes), Asked s t → (s.conn t).algs = true →
    s.pilot.aliasReady = true → s.lc.grant &&& invasiveMask = 0 → s.pilot.assignClosed = false → 1 ≤ index.toNat → index.toNat ≤ 10 →
    s.pilot.measurements.filter (fun x => x.1 == index.toNat) = [(index.toNat, v)] →
    exec (.getMeasurements t index false nonce) s = .next (servedOver s t [[0xE0], [index, 0], nonce] (fun s =>
      spdmSend s t (.measurements s.pilot.measurements.length
        [{ index := index.toNat, typ := dmtfType index.toNat, value := v }] [] [])))) ∧
  (∀ (s : State) (t : Transport) (index : Byte) (sign : Bool) (nonce : Bytes), Asked s t → (s.conn t).algs = true →
    s.pilot.aliasReady = true → s.lc.grant &&& invasiveMask = 0 → s.pilot.assignClosed = false →
    (11 ≤ index.toNat ∧ index.toNat ≤ 15) ∨ (28 ≤ index.toNat ∧ index.toNat ≤ 254) →
    exec (.getMeasurements t index sign nonce) s = .next (servedOver s t [[0xE0], [index, if sign then 1 else 0], nonce] (fun s =>
      spdmRefuse s t .unsupportedRequest))) ∧
  (∀ (s : State) (t : Transport), Asked s t → exec (.spdmUnsupportedRequest t 0xE4) s =
    .next (servedOver s t [[0xE4]] (fun s => spdmRefuse s t .unsupportedRequest))) ∧
  (∀ (s : State) (src : Byte) (r : SpdmReply), spdmSend s (.ring src) r =
    sendMctp s src false (.spdm (.ring src) r) (0x05 :: Config.spdmResponse (spdmFields r))) ∧
  (∀ (s : State) (k : Nat) (r : SpdmReply), (s.fn .pf0).mbx = .serving → (s.fn .pf0).slot = some k →
    (tget hostSlotInit (spdmSend s .pf0 r).host.slots k).owner = some (fnIx .pf0) ∧
    (spdmSend s .pf0 r).out = .reply .pf0 0x10 0 (Config.spdmResponse (spdmFields r)) :: .spdm .pf0 r :: s.out)

/-! ### Power (01) and the end of startup (03) -/

/-- R43-R47, R112, R399: an off request for domain 0, 1 or 19, or for domain 10 while a berth has windows there, is refused and recorded;
domain 10 goes off with no such window; a domain that is off is switched on and its power-up begins; domain 19's power-up ends once its
islands have passed and have their microcode; PACKAGE_READY with no trained link and nothing held shows 0x1C and forms the set of this
package alone. -/
def Obligations.PowerDomains : Prop :=
  (∀ (s : State) (pd : Nat), Quiet s → commanded s = true → pd = 0 ∨ pd = 1 ∨ pd = 19 → exec (.pwrDomainOff pd) s =
    .next { s with power := { s.power with refused := true, lastDom := BitVec.ofNat 5 pd } }) ∧
  (∀ s : State, Quiet s → commanded s = true → s.power.domOn.getLsbD 10 = true →
    (∃ x ∈ s.berths, (domainWindows x.2 true) ≠ []) → exec (.pwrDomainOff 10) s =
      .next { s with power := { s.power with refused := true, lastDom := 10 } }) ∧
  (∀ s : State, Quiet s → commanded s = true → s.power.domOn.getLsbD 10 = true →
    (∀ x ∈ s.berths, domainWindows x.2 true = []) → CompletesWith (exec (.pwrDomainOff 10) s) (fun t =>
      t.power.domOn = s.power.domOn &&& ~~~(1#20 <<< 10) ∧ t.power.domUp = s.power.domUp &&& ~~~(1#20 <<< 10) ∧
      t.power.refused = s.power.refused ∧ t.berths = s.berths ∧ t.fuse = s.fuse)) ∧
  (∀ (s : State) (pd : Nat), commanded s = true → pd < 20 → s.power.domOn.getLsbD pd = false →
    CompletesWith (exec (.pwrDomainOn pd) s) (fun t =>
      t.power = { s.power with domOn := s.power.domOn ||| (1#20 <<< pd), switching := s.power.switching ||| (1#20 <<< pd) } ∧
      t.berths = s.berths ∧ t.vault = s.vault ∧ t.fuse = s.fuse)) ∧
  (∀ s : State, pilotUp s = true → s.power.switching.getLsbD 19 = true → s.power.domOn.getLsbD 19 = true →
    (∀ ix, 222 ≤ ix → ix < 232 → (tget islandInit s.isl ix).test = .passed ∧ (tget islandInit s.isl ix).ucOk = true) →
    CompletesWith (exec (.domainPowerUpDone 19) s) (fun t =>
      t.power = { s.power with domUp := s.power.domUp ||| (1#20 <<< 19), switching := s.power.switching &&& ~~~(1#20 <<< 19) } ∧
      t.berths = s.berths ∧ t.fuse = s.fuse)) ∧
  (∀ s : State, pilotUp s = true → s.pilot.ready = false → s.board.logClosed = true → s.pilot.milestone.toNat ≤ 0x19 →
    s.pilot.links = 0 → (∀ n, n < 48 → (s.link n).trained = false) → s.press.berths = [] → s.crossing.held = [] →
    CompletesWith (exec .packageReady s) (fun t =>
      t.pilot.ready = true ∧ t.pilot.milestone = 0x1C ∧ t.crossing.members = [selfId s] ∧ t.crossing.epoch = s.crossing.epoch + 1 ∧
      t.berths = s.berths ∧ t.vault.slots = s.vault.slots ∧ t.fuse = s.fuse))

/-! ### Self-tests and the ROM (03) -/

/-- R106-R109: a peripheral island whose test is pending, with its clock and its strap, begins its test; the end of the test leaves its
result and parks it; the Trust Core's pass is noted, and the vault and fuse island's failure halts with 0x84; with every island of the 232
passed, the end of the collection shows 0x11 -/
def Obligations.SelfTests : Prop :=
  (∀ (s : State) (i : Island), accepts s = true → islandExists i = true → isPeripheral i = true → (s.island i).pll = true →
    (s.island i).strap = true → (s.island i).test = .pending →
    exec (.islandSelfTestStart i) s = .next (s.setIsland i { s.island i with test := .running })) ∧
  (∀ (s : State) (i : Island) (pass : Bool), accepts s = true → islandExists i = true → isPeripheral i = true →
    (s.island i).test = .running → exec (.islandSelfTestDone i pass) s =
      .next (s.setIsland i { s.island i with test := if pass then .passed else .failed, parked := true })) ∧
  (∀ s : State, accepts s = true → s.pilot.coreTest = .pending → exec (.coreIslandSelfTestDone .trustCore true) s =
    .next { s with pilot := { s.pilot with coreTest := .passed } }) ∧
  (∀ s : State, accepts s = true → s.pilot.vaultTest = .pending → CompletesWith (exec (.coreIslandSelfTestDone .vaultFuse false) s)
    (fun t => t.pilot.vaultTest = .failed ∧ t.pilot.phase = .halted ∧ t.pilot.haltCode = 0x84 ∧ t.pins.stat = 0x84 ∧
      t.pins.haltLow = true ∧ { t with pilot := s.pilot, pins := s.pins, ring := s.ring, out := s.out } = s)) ∧
  (∀ s : State, pilotUp s = true → s.pilot.collected = false → s.pilot.milestone.toNat ≤ 0x11 →
    (∀ ix, ix < 232 → (tget islandInit s.isl ix).test = .passed) → exec .selfTestCollectionTimeout s =
      .next { s with pilot := { s.pilot with collected := true, milestone := 0x11 }, pins := { s.pins with stat := 0x11 } })

/-- R105, R142, R155, R180, R223, R94, R67: complete sensing ends with the decoded state, incomplete sensing halts with 0x85; the policy
step in state 1 with the normal strap takes measurements 1 and 3, and in state 5 halts with 0x88; entropy that passes gives the DRBG and a
tag key, and after the policy step entropy that fails halts with 0x89; flash that answers shows 0x03 or 0x04, and flash that does not halts
with 0x8A once the policy step and the entropy are done -/
def Obligations.RomSteps : Prop :=
  (∀ (s : State) (d : List (Nat × FuseCell)), accepts s = true → s.pilot.phase = .rom → s.fuse.sensed = false →
    CompletesWith (exec (.fuseSensingDone true d) s) (fun t => t.fuse.sensed = true ∧ t.fuse.busy = false ∧
      t.lc.state = lcDecode t.fuse ∧ t.vault = s.vault ∧ t.flash = s.flash ∧ t.berths = s.berths)) ∧
  (∀ (s : State) (d : List (Nat × FuseCell)), accepts s = true → s.pilot.phase = .rom → s.fuse.sensed = false →
    CompletesWith (exec (.fuseSensingDone false d) s) (fun t => t.pilot.phase = .halted ∧ t.pilot.haltCode = 0x85 ∧
      t.pins.haltLow = true ∧ { t with pilot := s.pilot, pins := s.pins, ring := s.ring, out := s.out } = s)) ∧
  (∀ s : State, accepts s = true → s.pilot.phase = .rom → s.fuse.sensed = true → s.pilot.policyDone = false →
    s.pilot.sourcesChosen = false → s.lc.state = 1 → s.pins.bootsel = 0 → s.vault.entropyFailed = false →
    s.pilot.entropyOk = false → CompletesWith (exec .romPolicy s) (fun t => t.pilot.policyDone = true ∧ t.pilot.phase = .rom ∧
      (tfind t.pilot.measurements 1).isSome = true ∧ (tfind t.pilot.measurements 3).isSome = true ∧
      { t with pilot := s.pilot } = s)) ∧
  (∀ s : State, accepts s = true → s.pilot.phase = .rom → s.fuse.sensed = true → s.pilot.policyDone = false → s.lc.state = 5 →
    CompletesWith (exec .romPolicy s) (fun t => t.pilot.phase = .halted ∧ t.pilot.haltCode = 0x88)) ∧
  (∀ s : State, accepts s = true → s.pilot.phase = .rom → s.pilot.entropyOk = false → s.pilot.policyDone = false →
    CompletesWith (exec (.entropyStartupDone true) s) (fun t => t.pilot.entropyOk = true ∧ t.vault.drbgOk = true ∧
      t.vault.tagKey = drawBytes s 32 ∧ t.fuse = s.fuse ∧ t.flash = s.flash)) ∧
  (∀ s : State, accepts s = true → s.pilot.phase = .rom → s.pilot.entropyOk = false → s.pilot.policyDone = true →
    s.pilot.sourcesChosen = false → CompletesWith (exec (.entropyStartupDone false) s) (fun t =>
      t.pilot.phase = .halted ∧ t.pilot.haltCode = 0x89 ∧ t.fuse = s.fuse)) ∧
  (∀ (s : State) (octal : Bool) (sectors : Nat), accepts s = true → s.pilot.phase = .rom → s.pilot.flashReady = false →
    s.pilot.flashFailed = false → s.pilot.policyDone = false → s.pilot.milestone.toNat ≤ 3 → s.pilot.settings.migrating = false →
    exec (.flashSfdpDone true octal sectors) s = .next { s with
      pilot := { s.pilot with flashReady := true, flashOctal := octal, flashSectors := sectors, milestone := if octal then 3 else 4 }
      pins := { s.pins with stat := if octal then 3 else 4 } }) ∧
  (∀ s : State, accepts s = true → s.pilot.phase = .rom → s.pilot.flashReady = false → s.pilot.flashFailed = false →
    s.pilot.policyDone = true → s.pilot.sourcesChosen = false → s.vault.entropyFailed = false → s.pilot.entropyOk = true →
    CompletesWith (exec (.flashSfdpDone false false 0) s) (fun t => t.pilot.phase = .halted ∧ t.pilot.haltCode = 0x8A))

/-! ### The boot chain and firmware (03, 08) -/

/-- R101-R105, R284, R289: checking the first of several sources begins its chain or goes on to the next source, and checking the last one
begins its chain or halts with the failed check's code; a block of the source read well goes into SRAM, is read again after a bad CRC, or
halts with its check's code; a read that fails is counted; the end of a verified chain from bank A locks the code and the device secret -/
def Obligations.BootChain : Prop :=
  (∀ (s : State) (src next : BootSource) (rest : List BootSource), accepts s = true → s.pilot.phase = .rom →
    s.pilot.sources = src :: next :: rest → s.pilot.chain = none → s.pilot.booted = none →
    CompletesWith (exec .bootSourceCheck s) (fun t => t.pilot.phase = .rom ∧ { t with pilot := s.pilot, pins := s.pins } = s ∧
      if sourceCheck s (areaBase src) = 0 then
        t.pins = s.pins ∧ t.pilot.measurements = tset s.pilot.measurements 2 (mPilot (headerAt s (areaBase src))) ∧
        (∃ c, t.pilot.chain = some c ∧ c.source = src ∧ c.index = 0 ∧ c.crcTries = 0 ∧ c.complete = false ∧
          c.expect = slice (headerAt s (areaBase src)) 40 48 ∧ c.blockCount = leAt (headerAt s (areaBase src)) 32 4)
      else t.pilot.sources = next :: rest ∧ t.pilot.chain = none ∧
        t.pilot.bootRecord = s.pilot.bootRecord ++ [(src, sourceCheck s (areaBase src))])) ∧
  (∀ (s : State) (src : BootSource), accepts s = true → s.pilot.phase = .rom → s.pilot.sources = [src] → s.pilot.chain = none →
    s.pilot.booted = none → CompletesWith (exec .bootSourceCheck s) (fun t =>
      if sourceCheck s (areaBase src) = 0 then t.pilot.phase = .rom
      else t.pilot.phase = .halted ∧ t.pilot.haltCode = sourceCheck s (areaBase src))) ∧
  (∀ (s : State) (c : ChainSt) (blk : Bytes), accepts s = true → s.pilot.phase = .rom → s.pilot.chain = some c →
    c.complete = false → s.pilot.sources = [c.source] → blk = chainBlock s (areaBase c.source) c.index → c.crcTries < 3 →
    CompletesWith (exec (.flashBlockRead true) s) (fun t =>
      if blockCrcOk blk = false then t = { s with pilot := { s.pilot with chain := some { c with crcTries := c.crcTries + 1 } } }
      else if blockCheck blk c.expect c.index c.blockCount = 0 then t = { s with pilot := { s.pilot with
        sram := mwrite 0 s.pilot.sram (4040 * c.index) (blk.take 4040)
        codeLen := 4040 * (c.index + 1)
        chain := some { c with index := c.index + 1, expect := slice blk 4040 48, crcTries := 0,
                               complete := c.index + 1 == c.blockCount } } }
      else t.pilot.phase = .halted ∧ t.pilot.haltCode = blockCheck blk c.expect c.index c.blockCount)) ∧
  (∀ (s : State) (c : ChainSt), accepts s = true → s.pilot.phase = .rom → s.pilot.chain = some c → c.complete = false →
    c.crcTries < 3 → exec (.flashBlockRead false) s = .next { s with pilot := { s.pilot with
      chain := some { c with crcTries := c.crcTries + 1 } } }) ∧
  (∀ (s : State) (c : ChainSt), accepts s = true → s.pilot.phase = .rom → s.pilot.chain = some c → c.complete = true →
    s.pilot.coreTest = .passed → s.pilot.vaultTest = .passed → c.source = .bankA → s.pilot.milestone.toNat ≤ 0x10 →
    CompletesWith (exec .chainVerified s) (fun t => t.pilot.codeLocked = true ∧ t.pilot.execEnable = true ∧
      t.pilot.udsLocked = true ∧ t.pilot.booted = some .bankA ∧ t.pilot.chain = none ∧ t.pilot.milestone = 0x10 ∧
      t.pilot.restartDigest = sha384 (mread 0 s.pilot.sram 0 s.pilot.codeLen) ∧
      t.flash = s.flash ∧ t.fuse = s.fuse ∧ t.berths = s.berths))

/-- R96 step 1.9, R110-R114, R125, R242: firmware entry scans the journal and takes measurements 9 and 10; the alias certificate carries a
signature by the device identity's slot; a microcode image is measured, or halts with 0xA0; a right microcode CRC on the first try is taken;
LOAD_EN opens the load port while the cores are held; the management firmware goes to the load port and is measured, or halts with 0xA1;
MGMT_RUN releases and holds the cores, and in phase 3 shows 0x14 -/
def Obligations.FirmwareStart : Prop :=
  (∀ (s : State) (src : BootSource), accepts s = true → s.pilot.phase = .rom → s.pilot.booted = some src →
    s.pilot.udsLocked = true → s.lc.mboxBusy = false → CompletesWith (exec .firmwareEntry s) (fun t => t.pilot.phase = .firmware ∧ t.jrn.scanned = true ∧
      (tfind t.pilot.measurements 9).isSome = true ∧ (tfind t.pilot.measurements 10).isSome = true ∧ t.power = s.power)) ∧
  (∀ s : State, slotServes s 4 6 = true → slotServes s 1 6 = true →
    tfind (issueAlias s 0).pilot.aliases 0 = some (derSigned (aliasTbs s 0) (hybridSigOf (s.slot 1).material (sha384 (aliasTbs s 0))
      s.pilot.drawn))) ∧
  (∀ (s : State) (k : UcKind), pilotUp s = true → s.pilot.collected = true → tfind s.pilot.ucImages (ucIx k) = none →
    CompletesWith (exec (.microcodeInstall k) s) (fun t =>
      if partGood s (bootedBase s) (partOfKind (bootedManifest s) (ucIx k + 2)) = true then
        tfind t.pilot.measurements (ucIx k + 4) =
          some (sha384 (partPayload s (bootedBase s) (partOfKind (bootedManifest s) (ucIx k + 2)))) ∧
        { t with pilot := s.pilot, isl := s.isl } = s
      else t.pilot.phase = .halted ∧ t.pilot.haltCode = 0xA0)) ∧
  (∀ (s : State) (i : Island) (img : Bytes), pilotUp s = true → islandExists i = true → islandIx i < 230 →
    (s.island i).ucTries = 1 → (s.island i).ucOk = false → tfind s.pilot.ucImages (ucKindOf (islandIx i)) = some img →
    CompletesWith (exec (.microcodeCrcReturn i (crc32c img)) s) (fun t => (t.island i).ucOk = true ∧
      { t with isl := s.isl, pilot := s.pilot, pins := s.pins } = s)) ∧
  (∀ s : State, commanded s = true → s.board.mgmtRun = false → exec (.loadEn true) s =
    .next { s with board := { s.board with loadEn := true }, pilot := { s.pilot with mgmtVerified := false } }) ∧
  (∀ s : State, pilotUp s = true → s.board.loadEn = true → CompletesWith (exec .mgmtFirmwareLoad s) (fun t =>
    .loadPort (partPayload s (bootedBase s) (partOfKind (bootedManifest s) 6)) ∈ t.out ∧
    if partGood s (bootedBase s) (partOfKind (bootedManifest s) 6) = true then { t with out := s.out } = { s with pilot := { s.pilot with
      mgmtVerified := true
      measurements := tset s.pilot.measurements 8 (sha384 (partPayload s (bootedBase s) (partOfKind (bootedManifest s) 6))) } }
    else t.pilot.phase = .halted ∧ t.pilot.haltCode = 0xA1)) ∧
  (∀ s : State, pilotUp s = true → s.pilot.mgmtVerified = true → tokenClear s = true → s.pilot.milestone.toNat ≤ 0x14 →
    s.pilot.collected = true → ucAll s = true → exec (.mgmtRun true) s = .next { s with
      board := { s.board with mgmtRun := true, loadEn := false }
      pilot := { s.pilot with milestone := 0x14 }
      pins := { s.pins with stat := 0x14 } }) ∧
  (∀ s : State, pilotUp s = true → exec (.mgmtRun false) s =
    .next { s with board := { s.board with mgmtRun := false } }) ∧
  (∀ s : State, pilotUp s = true → s.pilot.mgmtVerified = false ∨ s.pilot.collected = false ∨ ucAll s = false ∨ tokenClear s = false →
    exec (.mgmtRun true) s = .next { s with board := { s.board with mgmtRun := true, loadEn := false } })

/-- R113, R114, R125, R126: OUT_GO, a message taken, IN_FULL freed; MEM_TRAINED, LINK_TRAINED and an acknowledgement land in the empty
inbound buffer and Pilot acts on them; a message lands while Pilot does not run; an unknown type is answered with type 4 -/
def Obligations.ManagementMailbox : Prop :=
  (∀ s : State, commanded s = true → exec .outGo s =
    .next { s with board := { s.board with outGo := true }, out := .mgmt (mread 0 s.board.mgmtOut 0 64) :: s.out }) ∧
  (∀ s : State, accepts s = true → s.board.mgmtRun = true →
    exec .mgmtOutTaken s = .next { s with board := { s.board with outGo := false } }) ∧
  (∀ s : State, commanded s = true → exec .inFullClear s = .next { s with board := { s.board with inFull := false } }) ∧
  (∀ s : State, pilotUp s = true → s.board.mgmtRun = true → s.board.inFull = false → s.pilot.memTrained = false →
    s.pilot.milestone.toNat ≤ 0x15 → exec (.memTrained 0xFF 0xFFFF) s = .next (stageWave { s with
      board := { s.board with mgmtIn := mOf (padTo 64 [1, 0xFF, 0xFF, 0xFF]), inFull := true, mgmtDue := false }
      pilot := { s.pilot with memTrained := true, stackMap := 0xFF, ports := 0xFFFF, milestone := 0x15 }
      pins := { s.pins with stat := 0x15 } } 0)) ∧
  (∀ (s : State) (msg : Bytes), accepts s = true → pilotUp s = false → s.board.mgmtRun = true → s.board.inFull = false →
    exec (.unknown msg) s =
      .next { s with board := { s.board with mgmtIn := mOf (padTo 64 msg), inFull := true, mgmtDue := true } }) ∧
  (∀ (s : State) (links : BitVec 48), pilotUp s = true → s.board.mgmtRun = true → s.board.inFull = false →
    exec (.linkTrained links) s = .next { s with
      board := { s.board with mgmtIn := mOf (padTo 64 (0x02 :: toLe 6 links.toNat)), inFull := true, mgmtDue := false }
      pilot := { s.pilot with links := s.pilot.links ||| links } }) ∧
  (∀ (s : State) (msg : Bytes), pilotUp s = true → s.board.mgmtRun = true → s.board.inFull = false → exec (.ack msg) s =
    .next { s with board := { s.board with mgmtIn := mOf (padTo 64 (0x03 :: msg.drop 1)), inFull := true, mgmtDue := false } }) ∧
  (∀ (s : State) (msg : Bytes), pilotUp s = true → s.board.mgmtRun = true → s.board.inFull = false →
    byteAt msg 0 ≠ 1 → byteAt msg 0 ≠ 2 → byteAt msg 0 ≠ 3 → byteAt msg 0 ≠ 4 → CompletesWith (exec (.unknown msg) s) (fun t =>
      t.out = .mgmt (mread 0 (mOf (padTo 64 [4])) 0 64) :: s.out ∧ { t with board := s.board, out := s.out } = s))

/-! ### Boarding (03) -/

/-- R115-R124, R128: a wave begins with the requests of step a to the one site present and trained; a negotiate reply of every version moves
its site to step b, and one without SPDM 1.2 or 1.3 fails it; a good challenge reply of a site without an image moves it to step e; a LOAD
acknowledged in time moves it to step e, one acknowledged late fails it, and one not outstanding is dropped; a slot whose sites are done
ends; a sideband goes down under an idle site; site 2 is boarded alone, without an image at once and with one once it is staged;
SITE_REBOARD of a site in use or of a number above 11 is refused -/
def Obligations.BoardingWaves : Prop :=
  (∀ s : State, pilotUp s = true → s.pilot.memTrained = true → s.board.wave = 0 → s.board.slot = none →
    s.pilot.milestone.toNat ≤ 0x15 → CompletesWith (exec (.boardingWaveStart 1 1) s) (fun t =>
      (t.site 0).step = .a ∧ (t.site 0).awaiting = true ∧ (t.site 0).present = true ∧ (t.site 0).sbUp = true ∧
      (∀ k, 0 < k → k < 12 → (t.site k).present = false ∧ (t.site k).sbUp = false ∧ (t.site k).step = (s.site k).step) ∧
      t.board.slot = some [0] ∧ t.out = (sendAsks s 0 .a).out ∧
      t.pilot.milestone = 0x15 ∧ t.piers = s.piers ∧ t.berths = s.berths)) ∧
  (∀ (s : State) (k : Nat) (ks : List Nat), pilotUp s = true → s.board.slot = some ks → ks.contains k = true →
    (s.site k).step = .a → (s.site k).awaiting = true → (s.site k).wiping = false → minVersion s.fuse 0 ≤ 3 →
    CompletesWith (exec (.boardingReply k (.negotiate true true 0x07)) s) (fun t =>
      t.site k = { s.site k with step := .b, awaiting := true, spdm13 := true, version := 3 } ∧ (∀ j, j ≠ k → t.site j = s.site j) ∧
      t.out = (sendAsks s k .b).out ∧ { t with board := s.board, out := s.out } = s)) ∧
  (∀ (s : State) (k : Nat) (ks : List Nat) (vendor : Bytes), pilotUp s = true → s.board.slot = some ks → ks.contains k = true →
    (s.site k).step = .b → (s.site k).awaiting = true → (s.site k).wiping = false → siteImage s k = none →
    leAt (bootedSite s k) 0 8 = 5 →
    CompletesWith (exec (.boardingReply k (.challenge (slice (bootedSite s k) 16 48) true true true 5 vendor)) s) (fun t =>
      t.site k = { s.site k with step := .e, awaiting := true, kindId := 5, vendor := vendor, staged := zeros 48 } ∧
      (∀ j, j ≠ k → t.site j = s.site j) ∧ t.out = (sendAsks s k .e).out ∧ { t with board := s.board, out := s.out } = s)) ∧
  (∀ (s : State) (k : Nat) (ks : List Nat), pilotUp s = true → s.board.slot = some ks → ks.contains k = true →
    (s.site k).step = .a → (s.site k).awaiting = true → (s.site k).wiping = false → (s.site k).reboard = false →
    CompletesWith (exec (.boardingReply k (.negotiate false false 0x07)) s) (fun t =>
      (t.site k).step = .failed ∧ t.pilot.measurements = tdel s.pilot.measurements (16 + k) ∧ t.out = s.out)) ∧
  (∀ (s : State) (k a : Nat) (ks : List Nat), pilotUp s = true → s.board.slot = some ks → ks.contains k = true →
    (s.site k).step = .d → (s.site k).load = some a → CompletesWith (exec (.loadAck k false) s) (fun t =>
      t.site k = { s.site k with step := .e, awaiting := true, load := none } ∧ (∀ j, j ≠ k → t.site j = s.site j) ∧
      t.board.areas = (areaAcked s k).board.areas ∧ t.out = (sendAsks s k .e).out ∧ { t with board := s.board, out := s.out } = s)) ∧
  (∀ (s : State) (k a : Nat) (ks : List Nat), pilotUp s = true → s.board.slot = some ks → ks.contains k = true →
    (s.site k).step = .d → (s.site k).load = some a → (s.site k).reboard = false →
    CompletesWith (exec (.loadAck k true) s) (fun t => (t.site k).step = .failed ∧ (t.site k).load = none ∧ t.out = s.out)) ∧
  (∀ (s : State) (k : Nat) (late : Bool), pilotUp s = true → (s.site k).load = none → exec (.loadAck k late) s = .next s) ∧
  (∀ (s : State) (ks : List Nat), pilotUp s = true → s.board.slot = some ks → s.board.wave = 0 → s.board.areas = [] →
    (∀ k ∈ ks, siteBusy (s.site k) = false ∧ (s.site k).reboard = false) → exec .boardingSlotEnd s =
      .next { s with board := { s.board with slot := none, wave := 1 } }) ∧
  (∀ (s : State) (k : Nat), accepts s = true → k < 12 → siteBusy (s.site k) = false → exec (.sidebandDown k) s =
    .next (s.setSite k { s.site k with sbUp := false, err := 0x01, txBusy := false, awaiting := false })) ∧
  (∀ s : State, pilotUp s = true → siteServes s 2 = false → s.board.slot = none → s.board.logClosed = true →
    (s.site 2).present = true → (s.site 2).sbUp = true → siteImage s 2 = none → s.board.areas = [] →
    CompletesWith (exec (.siteReboard [2, 0, 0, 0]) s) (fun t => (t.site 2).step = .a ∧ (t.site 2).reboard = true ∧
      t.board.slot = some [2] ∧ t.out = (sendAsks s 2 .a).out)) ∧
  (∀ (s : State) (e : Bytes), pilotUp s = true → siteServes s 2 = false → s.board.slot = none → s.board.logClosed = true →
    siteImage s 2 = some e → s.board.areas = [] → stackUp s 0 = true → (s.pch 0).busy = false →
    descShape (stageDesc s e 0) true = 0 → CompletesWith (exec (.siteReboard [2, 0, 0, 0]) s) (fun t =>
      (t.site 2).step = .idle ∧ (t.site 2).reboard = true ∧ t.board.slot = some [2] ∧ (t.pch 0).busy = true ∧
      tfind t.board.areas 0 = some { part := leAt (bootedSite s 2) 8 1, digest := none, due := [2] })) ∧
  (∀ s : State, pilotUp s = true → siteServes s 2 = true → exec (.siteReboard [2, 0, 0, 0]) s =
    .next (reply s .pf0 0x14 [0x01, 0, 0, 0])) ∧
  (∀ s : State, pilotUp s = true → exec (.siteReboard [12, 0, 0, 0]) s = .next (reply s .pf0 0x14 [0x03, 0, 0, 0]))

/-- R91, R127, R128: a message leaves in sideband messages of at most 64 B; SEND of a good length, SEND of length 0, ABORT of a send,
RX_READY freed; a reply of at most 8,192 B is taken into the buffer and a longer one sets ERR 0x03; a reply that does not come sets ERR
0x02, and fails the step of a site that is in one -/
def Obligations.SiteRegisters : Prop :=
  (∀ (s : State) (k : Nat) (m : SiteMsg), s.pins.boundaryControls = false →
    (sendSite s k m).out = ((List.range (((siteBytes m).length + 63) / 64)).map (fun i =>
      Emission.sidebandPart k Config.sidebandId (slice (siteBytes m) (64 * i) 64))).reverse ++ .sideband k m :: s.out ∧
    { sendSite s k m with out := s.out } = s) ∧
  (∀ (s : State) (k : Nat), commanded s = true → k < 12 → (s.site k).txBusy = false → 1 ≤ (s.site k).txLen.toNat →
    (s.site k).txLen.toNat ≤ 8192 → (s.site k).sbUp = true → exec (.send k) s =
      .next (sendSite (s.setSite k { s.site k with err := 0, txBusy := true, awaiting := true }) k
        (.raw (mread 0 (s.site k).txBuf 0 (s.site k).txLen.toNat)))) ∧
  (∀ (s : State) (k : Nat), commanded s = true → k < 12 → (s.site k).txBusy = false → (s.site k).txLen = 0 →
    exec (.send k) s = .next (s.setSite k { s.site k with err := 0x04 })) ∧
  (∀ (s : State) (k : Nat), commanded s = true → k < 12 → (s.site k).txBusy = true → exec (.abort k) s =
    .next (s.setSite k { s.site k with err := 0x05, txBusy := false, awaiting := false })) ∧
  (∀ (s : State) (k : Nat), commanded s = true → k < 12 →
    exec (.rxReadyClear k) s = .next (s.setSite k { s.site k with rxReady := false })) ∧
  (∀ (s : State) (k : Nat) (msg : Bytes), accepts s = true → k < 12 → (s.site k).awaiting = true → (s.site k).rxReady = false →
    1 ≤ msg.length → msg.length ≤ 8192 → exec (.siteReplyAssembled k msg) s = .next (s.setSite k { s.site k with
      rxBuf := mOf msg, rxLen := BitVec.ofNat 14 msg.length, rxReady := true, txBusy := false, awaiting := siteBusy (s.site k) })) ∧
  (∀ (s : State) (k : Nat) (msg : Bytes), accepts s = true → k < 12 → (s.site k).awaiting = true → (s.site k).rxReady = false →
    8192 < msg.length → siteBusy (s.site k) = false → exec (.siteReplyAssembled k msg) s = .next (s.setSite k { s.site k with
      err := 0x03, txBusy := false, awaiting := false })) ∧
  (∀ (s : State) (k : Nat), accepts s = true → k < 12 → (s.site k).awaiting = true → siteBusy (s.site k) = false →
    exec (.siteReplyTimeout k) s = .next (s.setSite k { s.site k with err := 0x02, txBusy := false, awaiting := false })) ∧
  (∀ (s : State) (k : Nat) (ks : List Nat), pilotUp s = true → k < 12 → s.board.slot = some ks → ks.contains k = true →
    (s.site k).awaiting = true → siteBusy (s.site k) = true → (s.site k).reboard = false →
    CompletesWith (exec (.siteReplyTimeout k) s) (fun t => (t.site k).step = .failed ∧ (t.site k).err = 0x02 ∧ t.out = s.out))

/-! ### Mismatches, restarts and halts (03, 16) -/

/-- R131-R134, R136, R160, R563, R564, R566, R578, R581: a lockstep mismatch in the ROM halts with 0x83, in firmware begins a warm restart, or
halts with 0xA5 within the guard time; the restart resumes on the saved digest and halts with 0xA4 on another; the guard time ends; the
ROM's halt 0x81; a firmware store below 0x40000 takes the access fault; the restart of the host guard reports itself, and so does that of the
vault and fuse island, which cuts the pulse of a fuse operation and ends a FUSE_CMD with 0x0A and a transition, one that waits too, with
ERR 0x07; JRN_AQ_POP before the journal scan moves the head entry to Pilot's list, and while no firmware runs only removes it -/
def Obligations.RestartsAndHalts : Prop :=
  (∀ s : State, accepts s = true → s.pilot.phase = .rom → CompletesWith (exec .lockstepMismatch s) (fun t =>
    t.pilot.phase = .halted ∧ t.pilot.haltCode = 0x83 ∧ t.pins.haltLow = true ∧ t.vault = s.vault ∧ t.berths = s.berths)) ∧
  (∀ s : State, accepts s = true → s.pilot.phase = .firmware → s.pilot.warmGuard = false →
    CompletesWith (exec .lockstepMismatch s) (fun t => t.pilot.phase = .warm ∧ t.pins.stat = 0x20 ∧ t.ring.ready = false ∧
      t.pilot.spdmPf0 = spdmReset ∧ t.fuse = s.fuse ∧ t.power = s.power)) ∧
  (∀ s : State, accepts s = true → s.pilot.phase = .firmware → s.pilot.warmGuard = true →
    CompletesWith (exec .lockstepMismatch s) (fun t => t.pilot.phase = .halted ∧ t.pilot.haltCode = 0xA5)) ∧
  (∀ (s : State) (d : Bytes), accepts s = true → s.pilot.phase = .warm → d = s.pilot.restartDigest → s.lc.mboxBusy = false →
    CompletesWith (exec (.warmRestartResume d) s) (fun t => t.pilot.phase = .firmware ∧ t.pilot.warmGuard = true ∧
      t.ring.ready = true ∧ t.power = s.power)) ∧
  (∀ (s : State) (d : Bytes), accepts s = true → s.pilot.phase = .warm → d ≠ s.pilot.restartDigest → s.pilot.flashReady = false →
    CompletesWith (exec (.warmRestartResume d) s) (fun t => t.pilot.phase = .halted ∧ t.pilot.haltCode = 0xA4 ∧
      { t with pilot := s.pilot, pins := s.pins, ring := s.ring, out := s.out } = s)) ∧
  (∀ s : State, accepts s = true →
    exec .warmRestartGuardExpiry s = .next { s with pilot := { s.pilot with warmGuard := false } }) ∧
  (∀ s : State, accepts s = true → s.pilot.phase = .rom → CompletesWith (exec (.pilotHalt 0x81) s) (fun t =>
    t.pilot.phase = .halted ∧ t.pilot.haltCode = 0x81 ∧ t.pins.stat = 0x81 ∧ t.pins.haltLow = true)) ∧
  (∀ (s : State) (a : PilotAccess), accepts s = true → s.pilot.phase = .firmware → a.fetch = false → a.store = true → a.addr < 0x40000 →
    exec (.pilotAccessFault a) s = .next { s with pilot := { s.pilot with accessFault := some a } }) ∧
  (∀ s : State, accepts s = true → CompletesWith (exec (.islandRestart .hostGuard) s) (fun t =>
    (tget [] t.jrn.queues 230).length ≥ 1 ∧ { t with jrn := s.jrn } = s)) ∧
  (∀ (s : State) (cut : BitVec 3), accepts s = true → s.fuse.op = none → CompletesWith (exec (.vaultIslandRestart cut) s) (fun t =>
    (tget [] t.jrn.queues 233).length ≥ 1 ∧ { t with jrn := s.jrn } = s)) ∧
  (∀ (s : State) (cut : BitVec 3) (op : FuseOp), accepts s = true → s.fuse.op = some op → op.owner = .command → s.lc.run = none →
    CompletesWith (exec (.vaultIslandRestart cut) s) (fun t => t.fuse.op = none ∧ t.fuse.busy = false ∧ t.fuse.done = true ∧
      t.fuse.lastErr = 0x0A ∧ t.fuse.cells = (pulseArray s.fuse cut).cells ∧ t.vault = s.vault ∧ t.lc = s.lc)) ∧
  (∀ (s : State) (cut : BitVec 3) (op : FuseOp), accepts s = true → s.fuse.op = some op → op.owner ≠ .command ∨ s.lc.run ≠ none →
    CompletesWith (exec (.vaultIslandRestart cut) s) (fun t => t.fuse.op = none ∧ t.fuse.busy = false ∧ t.lc.busy = false ∧ t.lc.done = true ∧
      t.lc.err = 0x07 ∧ t.fuse.cells = (pulseArray s.fuse cut).cells ∧ t.vault = s.vault)) ∧
  (∀ (s : State) (e : AlarmEntry), pilotUp s = true → s.jrn.drain = 0 → tget [] s.jrn.queues 0 = [e] → e.kind = 0x0202 →
    s.jrn.scanned = false → CompletesWith (exec .jrnAqPop s) (fun t => t.jrn.early = s.jrn.early ++ [e] ∧ t.jrn.drain = 1 ∧
      t.jrn.queues = tset s.jrn.queues 0 [] ∧ { t with jrn := s.jrn } = s)) ∧
  (∀ (s : State) (e : AlarmEntry) (q : List AlarmEntry), commanded s = true → pilotUp s = false → s.jrn.drain = 0 →
    tget [] s.jrn.queues 0 = e :: q →
    exec .jrnAqPop s = .next { s with jrn := { s.jrn with queues := tset s.jrn.queues 0 q, drain := 1 } })

/-! ### Fuses (04) -/

/-- The fuse controller takes a FUSE_CMD: its registers can be written, nothing is in progress and ARM is 0xA5 (R159, R170, R184). -/
def FuseFree (s : State) (arm : Byte) : Prop := fuseCommanded s = true ∧ s.fuse.busy = false ∧ s.lc.busy = false ∧ arm = 0xA5

/-- R144, R158, R159, R166, R167, R169, R170: PROGRAM while an operation runs is ignored with 0x01, INCREMENT with a wrong ARM with 0x02; a
PROGRAM that a check refuses ends with the check's code; RESENSE and RESENSE_ALL of cells that have not drifted change no cell and no shadow
value; WIPE ends with 0x10 and a reserved OP with 0x03; a tack commit that no check refuses takes the enabled entries, and in state 3 it is
refused with 0x13 -/
def Obligations.FuseCommandFrame : Prop :=
  (∀ (s : State) (arm : Byte) (w : BitVec 12), fuseCommanded s = true → s.fuse.busy = true → exec (.program arm w) s =
    .next { s with fuse := { s.fuse with lastErr := 0x01 } }) ∧
  (∀ (s : State) (arm : Byte) (w : BitVec 12), fuseCommanded s = true → s.fuse.busy = false → s.lc.busy = false → arm ≠ 0xA5 →
    exec (.increment arm w) s = .next { s with fuse := { s.fuse with lastErr := 0x02 } }) ∧
  (∀ (s : State) (arm : Byte) (w : BitVec 12), FuseFree s arm → programCheck s.lc.state s.fuse w.toNat s.fuse.wdata ≠ 0 →
    exec (.program arm w) s = .next { s with fuse := { s.fuse with
      cmdWord := w, op := none, busy := false, done := true, lastErr := programCheck s.lc.state s.fuse w.toNat s.fuse.wdata } }) ∧
  (∀ (s : State) (arm : Byte) (w : BitVec 12), FuseFree s arm → CompletesWith (exec (.resense arm w []) s) (fun t =>
    t.fuse.busy = false ∧ t.fuse.done = true ∧ t.fuse.lastErr = 0 ∧ t.fuse.cells = s.fuse.cells ∧
    (∀ v, (t.fuse.sh v).value = (s.fuse.sh v).value) ∧ { t with fuse := s.fuse, jrn := s.jrn } = s)) ∧
  (∀ (s : State) (arm : Byte) (w : BitVec 12), FuseFree s arm → CompletesWith (exec (.resenseAll arm w []) s) (fun t =>
    t.fuse.busy = false ∧ t.fuse.done = true ∧ t.fuse.lastErr = 0 ∧ t.fuse.cells = s.fuse.cells ∧
    (∀ v, (t.fuse.sh v).value = (s.fuse.sh v).value) ∧ { t with fuse := s.fuse, jrn := s.jrn } = s)) ∧
  (∀ (s : State) (arm : Byte) (w : BitVec 12), FuseFree s arm → exec (.wipe arm w) s = .next { s with fuse := { s.fuse with
    cmdWord := w, op := none, busy := false, done := true, lastErr := 0x10 } }) ∧
  (∀ (s : State) (arm : Byte) (w : BitVec 12) (op : BitVec 4), FuseFree s arm → op = 0 ∨ 10 ≤ op.toNat →
    exec (.fuseReservedOp arm w op) s = .next { s with fuse := { s.fuse with
      cmdWord := w, op := none, busy := false, done := true, lastErr := 0x03 } }) ∧
  (∀ s : State, fuseCommanded s = true → tackCheck s = 0 → exec .fuseTackCommit s = .next { s with fuse := { s.fuse with
    tacks := (tacksEnabled s.fuse).map (fun e => (e.word.toNat, e.value)) } }) ∧
  (∀ s : State, fuseCommanded s = true → s.lc.state = 3 → exec .fuseTackCommit s = .next { s with fuse := { s.fuse with lastErr := 0x13 } })

/-- What an accepted operation begins: a program event counted (R573), and the first word that needs a pulse in hand with its
bits in burn order; with nothing to pulse it ends at once. -/
def Begun (s : State) (w : BitVec 12) (sealing : Option Nat) (todo : List (Nat × BitVec 72)) : State :=
  match fuseGo (bump { s with fuse := { s.fuse with cmdWord := w } } 4 1) .command sealing todo with
  | (t, .inl op) => { t with fuse := { t.fuse with op := some op, busy := true } }
  | (t, .inr c) => { t with fuse := { t.fuse with op := none, busy := false, done := true, lastErr := c } }

/-- The six words that SEAL draws for a region (R147). -/
def sealWords (s : State) (r : Nat) : List (Nat × BitVec 72) :=
  (List.range 6).map (fun i => (128 * r + i, fuseEncode (BitVec.ofNat 64 (leAt (drawBytes s 48) (8 * i) 8))))

/-- R147, R149, R151, R157, R163-R165: a PROGRAM, INCREMENT, FINALISE, LOCK_WRITE, LOCK_READ or SEAL that its checks accept counts a program
event and begins with the first of its words that needs a pulse, SEAL with six words drawn from the DRBG; a pulse that reads well at every
reference burns its bit and goes on to the next, and one whose bit does not verify is tried again -/
def Obligations.FuseBurns : Prop :=
  (∀ (s : State) (arm : Byte) (w : BitVec 12), FuseFree s arm → programCheck s.lc.state s.fuse w.toNat s.fuse.wdata = 0 →
    exec (.program arm w) s = .next (Begun s w none [(w.toNat, fuseEncode s.fuse.wdata)])) ∧
  (∀ (s : State) (arm : Byte) (w : BitVec 12), FuseFree s arm → incrementCheck s.lc.state s.fuse (w.toNat / 128) = 0 →
    exec (.increment arm w) s = .next (Begun s w none [(128 * (w.toNat / 128) + stepCount s.fuse (w.toNat / 128), fuseEncode (BitVec.allOnes 64))])) ∧
  (∀ (s : State) (arm : Byte) (w : BitVec 12), FuseFree s arm → finaliseCheck s.lc.state s.fuse (w.toNat / 128) = 0 →
    exec (.finalise arm w) s = .next (Begun s w none (digestWords (w.toNat / 128) (regionDigest s.fuse (w.toNat / 128))))) ∧
  (∀ (s : State) (arm : Byte) (w : BitVec 12), FuseFree s arm → programCheck s.lc.state s.fuse (2560 + w.toNat / 128) (BitVec.allOnes 64) = 0 →
    exec (.lockWrite arm w) s = .next (Begun s w none [(2560 + w.toNat / 128, fuseEncode (BitVec.allOnes 64))])) ∧
  (∀ (s : State) (arm : Byte) (w : BitVec 12), FuseFree s arm → programCheck s.lc.state s.fuse (2592 + w.toNat / 128) (BitVec.allOnes 64) = 0 →
    exec (.lockRead arm w) s = .next (Begun s w none [(2592 + w.toNat / 128, fuseEncode (BitVec.allOnes 64))])) ∧
  (∀ (s : State) (arm : Byte) (w : BitVec 12), FuseFree s arm → sealCheck s (w.toNat / 128) = 0 →
    exec (.seal arm w) s = .next (Begun (drew s 48) w (some (w.toNat / 128)) (sealWords s (w.toNat / 128)))) ∧
  (∀ (s : State) (op : FuseOp) (w b b' : Nat) (cw : BitVec 72) (rest : List (Nat × BitVec 72)) (bs : List Nat), accepts s = true →
    s.fuse.op = some op → op.todo = (w, cw) :: rest → op.bits = b :: b' :: bs → b < 72 → CompletesWith (exec (.fuseBitPulseDone 7) s)
      (fun t => t.fuse.op = some { op with bits := b' :: bs, tries := 0 } ∧
        t.fuse.cells = tset s.fuse.cells w (pulseCell (tget cellBlank s.fuse.cells w) b 7) ∧ { t with fuse := s.fuse } = s)) ∧
  (∀ (s : State) (op : FuseOp) (w b : Nat) (cw : BitVec 72) (rest : List (Nat × BitVec 72)) (bs : List Nat), accepts s = true →
    s.fuse.op = some op → op.todo = (w, cw) :: rest → op.bits = b :: bs → op.tries < 3 →
    (tget cellBlank s.fuse.cells w).high.getLsbD b = false → CompletesWith (exec (.fuseBitPulseDone 0) s) (fun t =>
      t.fuse.op = some { op with tries := op.tries + 1 } ∧ { t with fuse := s.fuse } = s))

/-! ### Life-cycle and debug (05) -/

/-- GO accepted: TO taken, BUSY set and the transition in hand, waiting if a fuse operation runs (R184). -/
def Taken (s : State) (target : BitVec 4) : State :=
  { s with lc := { s.lc with
      xferTo := target, err := 0, busy := true, run := some { target := target, waiting := s.fuse.op.isSome, wiping := false } } }

/-- The mailbox has RESUME_WIPE in hand, and it drives the wipe (R191, R201). -/
def Resuming (s : State) : State :=
  { s with lc := { s.lc with mboxReq := 3, mboxBusy := true, mboxDone := false, mboxDrives := true } }

/-- R181-R187, R189, R191, R200-R202: GO that a check refuses; GO to a state other than Scrapped with the fuse controller free begins the
burn, and with it busy waits; a TRANSITION request to state 4 while the controller burns is refused for bad tokens or a berth in use, and
else waits in hand; RESUME_WIPE in Scrapped begins the wipe or ends it; a request that Scrapped does not allow; a TRANSITION submitted in
the ROM, which firmware entry and a resumed restart hand to Pilot; the end of a request -/
def Obligations.LifeCycleTransitions : Prop :=
  (∀ (s : State) (target : BitVec 4), commanded s = true → goCheck s target ≠ 0 →
    exec (.go target) s = .next { s with lc := { s.lc with
      xferTo := if s.lc.busy then s.lc.xferTo else target, err := goCheck s target } }) ∧
  (∀ (s : State) (target : BitVec 4), commanded s = true → goCheck s target = 0 → s.fuse.op = none → target ≠ 5 →
    CompletesWith (exec (.go target) s) (fun t => t.lc.xferTo = target ∧ t.lc.err = 0 ∧ t.fuse.cells = s.fuse.cells ∧
      match fuseNext (Taken s target) .transition none
        ((slotWords (target.toNat - 2) (xferDigest s)).map (fun w => (w.1, fuseEncode w.2))) with
      | (u, some op) => t = { u with fuse := { u.fuse with op := some op, busy := true } }
      | (_, none) => t.lc.busy = false ∧ t.lc.done = true ∧ t.lc.doneThisBoot = true ∧ t.lc.doneTarget = target)) ∧
  (∀ (s : State) (target : BitVec 4), commanded s = true → goCheck s target = 0 → s.fuse.op.isSome = true →
    exec (.go target) s = .next (Taken s target)) ∧
  (∀ s : State, accepts s = true → mboxOpen s = true → s.pilot.phase = .firmware → s.lc.state = 3 →
    (mboxBytes s).length = 15080 → leAt (mboxBytes s) 8 1 = 4 → s.lc.busy = false → s.lc.doneThisBoot = false →
    s.lc.grant = 0 → s.fuse.vppOk = true → s.fuse.op.isSome = true → CompletesWith (exec .transition s) (fun t =>
      t.lc.mboxReq = 1 ∧ t.fuse = s.fuse ∧ t.vault = s.vault ∧
      if tokensOk s (mboxBytes s) = false then t.lc.mboxResult = 0x0B ∧ t.lc.mboxDone = true ∧ t.lc.busy = false
      else if allBerthsFree s = false then t.lc.mboxResult = 0x0D ∧ t.lc.mboxDone = true ∧ t.lc.busy = false
      else t.lc.digest = mwrite 0 s.lc.digest 0 (sha384 (mboxBytes s)) ∧ t.lc.xferTo = 4 ∧ t.lc.busy = true ∧
        t.lc.mboxBusy = true ∧ t.lc.run = some { target := 4, waiting := true, wiping := false })) ∧
  (∀ s : State, accepts s = true → mboxOpen s = true → s.pilot.phase = .firmware → s.lc.state = 5 → s.lc.mboxLen = 0 →
    s.lc.busy = false → s.fuse.vppOk = true → CompletesWith (exec .resumeWipe s) (fun t => t.lc.mboxReq = 3 ∧
      t.fuse.cells = s.fuse.cells ∧ t.vault.slots = s.vault.slots ∧
      match fuseNext (Resuming s) .wipe none (wipeWords s.fuse) with
      | (u, some op) => t = { u with
          fuse := { u.fuse with op := some op, busy := true }
          lc := { u.lc with busy := true, run := some { target := 5, waiting := false, wiping := true } } }
      | (_, none) => t.lc.busy = false ∧ t.lc.err = 0 ∧ t.lc.mboxDone = true ∧ t.flash = [])) ∧
  (∀ (s : State) (req : BitVec 4), accepts s = true → mboxOpen s = true → s.lc.state = 5 → req ≠ 0 → req ≠ 3 →
    exec (.lcMboxReservedReq req) s = .next { s with lc := { s.lc with
      mboxReq := req, mboxBusy := false, mboxDone := true, mboxDrives := false, mboxResult := 0x0C, resultCode := 0x0C } }) ∧
  (∀ s : State, accepts s = true → mboxOpen s = true → s.pilot.phase = .rom → exec .transition s =
    .next { s with lc := { s.lc with mboxReq := 1, mboxBusy := true, mboxDone := false } }) ∧
  (∀ (s : State) (d : Bytes), accepts s = true → exec .firmwareEntry s = .next (takeMbox (firmwareEntry s)) ∧
    exec (.warmRestartResume d) s = .next (takeMbox (warmResume s d))) ∧
  (∀ (s : State) (code : Byte), commanded s = true → s.lc.mboxBusy = true → exec (.endRequest code) s = .next { s with
    lc := { s.lc with mboxResult := code, resultCode := code, mboxBusy := false, mboxDone := true, mboxDrives := false } })

/-- R189, R191-R198, R203: GRANT of rights within the ceiling that are not invasive takes effect at once, and above the ceiling is refused
with 0x05; with every berth FREE an invasive right closes assignment, sessions and links and waits; it is granted once the vault is empty,
and refused with 0x09 while a berth is not FREE; a DEBUG request for right 5 in Maker is granted -/
def Obligations.DebugGrants : Prop :=
  (∀ (s : State) (r : BitVec 10), Quiet s → commanded s = true → s.lc.busy = false → r &&& ~~~debugCeiling s.lc.state = 0 → r &&& invasiveMask = 0 →
    CompletesWith (exec (.grant r) s) (fun t => t.lc.grant = s.lc.grant ||| r ∧ t.lc.err = 0 ∧ t.lc.done = true ∧
      t.vault.invOpen = s.vault.invOpen ∧ t.fuse = s.fuse ∧ t.berths = s.berths ∧ t.press = s.press)) ∧
  (∀ (s : State) (r : BitVec 10), Quiet s → commanded s = true → s.lc.busy = false → r &&& ~~~debugCeiling s.lc.state ≠ 0 →
    CompletesWith (exec (.grant r) s) (fun t => t.lc.grant = s.lc.grant ∧ t.lc.err = 0x05 ∧ t.vault.slots = s.vault.slots ∧
      t.berths = s.berths)) ∧
  (∀ (s : State) (r : BitVec 10), Quiet s → commanded s = true → s.lc.busy = false → r &&& ~~~debugCeiling s.lc.state = 0 → r &&& invasiveMask ≠ 0 →
    s.lc.vaultEmpty = false → s.lc.grantPending = none → s.berths = [] → CompletesWith (exec (.grant r) s) (fun t => t.lc.grant = s.lc.grant ∧
      t.lc.grantPending = some r ∧ t.pilot.assignClosed = true ∧ t.vault.invOpen = true ∧ t.sessions = [] ∧
      (∀ n, n < 48 → (t.link n).link = .closed ∧ (t.link n).dead = true))) ∧
  (∀ (s : State) (r : BitVec 10), Quiet s → commanded s = true → s.lc.grantPending = some r → allBerthsFree s = true → s.vault.invOpen = true →
    s.lc.vaultEmpty = true → CompletesWith (exec .invasiveGrantComplete s) (fun t => t.lc.grant = s.lc.grant ||| r ∧
      t.lc.grantPending = none ∧ t.lc.err = 0 ∧ t.berths = s.berths)) ∧
  (∀ (s : State) (r : BitVec 10), Quiet s → commanded s = true → s.lc.grantPending = some r → allBerthsFree s = false →
    CompletesWith (exec .invasiveGrantComplete s) (fun t => t.lc.grant = s.lc.grant ∧ t.lc.grantPending = none ∧
      t.lc.err = 0x09 ∧ t.berths = s.berths)) ∧
  (∀ s : State, Quiet s → mboxOpen s = true → s.pilot.phase = .firmware → s.lc.state = 1 → mboxBytes s = [0x20, 0, 0, 0] →
    s.lc.busy = false → CompletesWith (exec .debug s) (fun t => t.lc.grant = s.lc.grant ||| 0x20 ∧ t.lc.mboxResult = 0 ∧
      t.lc.mboxDone = true ∧ t.lc.mboxBusy = false ∧ t.berths = s.berths))

/-! ### The vault (06) -/

/-- The vault takes a VAULT_CMD: its registers can be written, none is in progress, and no word the command reads is uncorrectable
(R207, R234). -/
def VaultFree (s : State) (c : VaultCmd) : Prop := vaultCommanded s = true ∧ s.vault.busy = false ∧ c.spoiled = none

/-- The command's fields taken, with its end: DONE and ERR (R234). -/
def Ended (s : State) (c : VaultCmd) (e : Byte) : State :=
  { s with vault := { s.vault with cmd := c, busy := false, done := true, err := e } }

/-- R228, R234, R235: GENERATE while a command runs is ignored with 0x01; a WRITE with a reserved attribute bit, a reserved OP, DESTROY of
slots 0 to 3, GENERATE over a VALID slot of 8 to 11 and BERTH_OPEN of a slot end with their codes and change nothing else; the last
acknowledgement a command waits for ends it -/
def Obligations.VaultFrame : Prop :=
  (∀ (s : State) (c : VaultCmd), vaultCommanded s = true → s.vault.busy = true →
    exec (.generate c) s = .next { s with vault := { s.vault with err := 0x01 } }) ∧
  (∀ (s : State) (c : VaultCmd), VaultFree s c → s.vault.attr &&& 0xFFF2F800 ≠ 0 → exec (.write c) s = .next (Ended s c 0x03)) ∧
  (∀ (s : State) (c : VaultCmd) (op : BitVec 5), VaultFree s c → op = 0 ∨ 0x0F ≤ op.toNat →
    exec (.vaultReservedOp c op) s = .next (Ended s c 0x02)) ∧
  (∀ (s : State) (c : VaultCmd), VaultFree s c → c.space = false → c.index.toNat < 4 → exec (.destroy c) s = .next (Ended s c 0x04)) ∧
  (∀ (s : State) (c : VaultCmd), VaultFree s c → s.vault.attr = 0 → c.space = false → 8 ≤ c.index.toNat → c.index.toNat < 12 →
    (s.slot c.index.toNat).valid = true → (s.slot c.index.toNat).unusable = false →
    exec (.generate c) s = .next (Ended s c 0x07)) ∧
  (∀ (s : State) (c : VaultCmd), VaultFree s c → c.space = false →
    exec (.berthOpen c) s = .next (Ended s c 0x04)) ∧
  (∀ (s : State) (i : Island), accepts s = true → s.vault.acks.contains (islandIx i) = true →
    s.vault.awaiting = some ([islandIx i], .command) → s.vault.afterQueue = [] → exec (.invalidationAck i) s = .next { s with
      vault := { s.vault with acks := s.vault.acks.erase (islandIx i), awaiting := none, busy := false, done := true, err := 0 } })

/-- R199, R207, R209-R213, R217, R219, R221, R225, R233: what GENERATE of slots 8 to 11, WRITE, DERIVE of slot 6, DESTROY of slots 4 to 15, ATTR
that clears all of DEST, WRAP and UNWRAP of slots 12 to 15 leave in their slot or VAULT_DATA, with every other slot unchanged (of a blob longer
than VAULT_DATA its first 4,096 B: the model's choice, log entry 177); WRAP and UNWRAP under an invasive grant end with 0x06; READ and
KEYPAIR put the slot's bytes or public keys into VAULT_DATA; READ of a slot with an uncorrectable word makes it UNUSABLE and ends with 0x08
 -/
def Obligations.VaultSlots : Prop :=
  (∀ (s : State) (c : VaultCmd), VaultFree s c → s.vault.attr = 0 → c.space = false → 8 ≤ c.index.toNat → c.index.toNat < 12 →
    (s.slot c.index.toNat).valid = false → s.vault.drbgOk = true → CompletesWith (exec (.generate c) s) (fun t =>
      (t.slot c.index.toNat).material = drawBytes s 120 ∧ (t.slot c.index.toNat).typ = 4 ∧ (t.slot c.index.toNat).dest = 0x080 ∧
      (t.slot c.index.toNat).valid = true ∧ (t.slot c.index.toNat).expire = true ∧
      (t.slot c.index.toNat).berth = s.vault.aux.setWidth 16 ∧
      (t.slot c.index.toNat).epoch = (s.slot c.index.toNat).epoch + 1 ∧ (∀ j, j ≠ c.index.toNat → t.slot j = s.slot j) ∧
      t.vault.records = s.vault.records ∧ t.vault.err = 0 ∧ t.vault.done = true ∧ t.lc.vaultEmpty = false ∧
      t.pilot.drawn = s.pilot.drawn + 120 ∧ t.fuse = s.fuse)) ∧
  (∀ (s : State) (c : VaultCmd), VaultFree s c → s.vault.attr = 0x400 → c.space = false → 12 ≤ c.index.toNat →
    c.index.toNat < 16 → (s.slot c.index.toNat).valid = false → c.typ = 6 → 1 ≤ s.vault.len.toNat → s.vault.len.toNat ≤ 4064 →
    CompletesWith (exec (.write c) s) (fun t =>
      (t.slot c.index.toNat).material = mread 0 s.vault.data 0 s.vault.len.toNat ∧ (t.slot c.index.toNat).typ = 6 ∧
      (t.slot c.index.toNat).dest = 0x400 ∧ (t.slot c.index.toNat).expire = false ∧ (t.slot c.index.toNat).valid = true ∧
      (∀ j, j ≠ c.index.toNat → t.slot j = s.slot j) ∧ t.vault.data = [] ∧ t.vault.records = s.vault.records ∧ t.vault.err = 0 ∧
      t.fuse = s.fuse)) ∧
  (∀ (s : State) (c : VaultCmd), VaultFree s c → c.space = false → 12 ≤ c.index.toNat → c.index.toNat < 64 →
    (s.slot c.index.toNat).valid = true → (s.slot c.index.toNat).dest.getLsbD 10 = true → slotSound s c.index.toNat = true →
    exec (.read c) s = .next { s with vault := { s.vault with
      cmd := c, busy := false, done := true, err := 0, data := mOf (s.slot c.index.toNat).material } }) ∧
  (∀ (s : State) (c : VaultCmd), vaultCommanded s = true → s.vault.busy = false → c.spoiled = some (4096 + c.index.toNat) →
    c.space = false → 12 ≤ c.index.toNat → c.index.toNat < 16 → (s.slot c.index.toNat).valid = true →
    (s.slot c.index.toNat).unusable = false → (s.slot c.index.toNat).dest.getLsbD 10 = true →
    CompletesWith (exec (.read c) s) (fun t => (t.slot c.index.toNat).unusable = true ∧ t.vault.tagFail = true ∧
      t.vault.err = 0x08 ∧ t.vault.data = s.vault.data ∧ (∀ j, j ≠ c.index.toNat → t.slot j = s.slot j) ∧
      t.vault.records = s.vault.records ∧ t.fuse = s.fuse)) ∧
  (∀ (s : State) (c : VaultCmd), VaultFree s c → s.vault.attr = 0 → c.space = false → c.index = 6 → (s.slot 6).valid = false →
    (s.slot 2).valid = true → (s.slot 2).dest.getLsbD 8 = true → slotSound s 2 = true → s.vault.invOpen = false →
    CompletesWith (exec (.derive c) s) (fun t => (t.slot 6).material = kdf (s.slot 2).material (ascii "MB3-JOURNAL") [] 32 ∧
      (t.slot 6).typ = 3 ∧ (t.slot 6).dest = 0x200 ∧ (t.slot 6).valid = true ∧ (∀ j, j ≠ 6 → t.slot j = s.slot j) ∧
      t.vault.err = 0 ∧ t.pilot = s.pilot ∧ t.fuse = s.fuse)) ∧
  (∀ (s : State) (c : VaultCmd), VaultFree s c → c.space = false → 4 ≤ c.index.toNat → c.index.toNat < 16 →
    CompletesWith (exec (.destroy c) s) (fun t =>
      t.slot c.index.toNat = { slotInit with epoch := (s.slot c.index.toNat).epoch + 1 } ∧
      (∀ j, j ≠ c.index.toNat → t.slot j = s.slot j) ∧ t.vault.records = s.vault.records ∧ t.vault.err = 0 ∧
      { t with vault := s.vault } = s)) ∧
  (∀ (s : State) (c : VaultCmd), VaultFree s c → s.vault.attr = 0x10000 → c.space = false → 4 ≤ c.index.toNat → c.index.toNat < 64 →
    (s.slot c.index.toNat).valid = true → (s.slot c.index.toNat).unusable = false → CompletesWith (exec (.attr c) s) (fun t =>
      (t.slot c.index.toNat).dest = 0 ∧ (t.slot c.index.toNat).expire = true ∧
      (t.slot c.index.toNat).material = (s.slot c.index.toNat).material ∧
      (t.slot c.index.toNat).epoch = (s.slot c.index.toNat).epoch + 1 ∧ (∀ j, j ≠ c.index.toNat → t.slot j = s.slot j) ∧
      t.vault.err = 0 ∧ (c.index.toNat < 16 → { t with vault := s.vault } = s))) ∧
  (∀ (s : State) (c : VaultCmd), VaultFree s c → c.space = false → 12 ≤ c.index.toNat → c.index.toNat < 16 →
    (s.slot c.index.toNat).valid = true → (s.slot c.index.toNat).expire = false → slotSound s c.index.toNat = true →
    (s.slot 7).valid = true → slotSound s 7 = true → s.vault.drbgOk = true → s.vault.invOpen = false →
    CompletesWith (exec (.wrap c) s) (fun t =>
      t.vault.data = mOf ((slotHead (s.slot c.index.toNat) ++ drawBytes s 12 ++
        (gcmEnc (s.slot 7).material (drawBytes s 12) (slotHead (s.slot c.index.toNat)) (s.slot c.index.toNat).material).1 ++
        (gcmEnc (s.slot 7).material (drawBytes s 12) (slotHead (s.slot c.index.toNat)) (s.slot c.index.toNat).material).2).take 4096) ∧
      t.vault.err = 0 ∧ t.vault.slots = s.vault.slots ∧ t.vault.records = s.vault.records ∧ t.fuse = s.fuse)) ∧
  (∀ (s : State) (c : VaultCmd) (len : Nat) (d : Bytes), VaultFree s c → s.vault.attr = 0x10000 → c.space = false →
    12 ≤ c.index.toNat → c.index.toNat < 16 → (s.slot c.index.toNat).valid = false → d = mread 0 s.vault.data 0 4096 →
    leAt d 0 1 = 6 → leAt d 2 2 = len → 1 ≤ len → len ≤ 4052 → (s.slot 7).valid = true → slotSound s 7 = true → s.vault.invOpen = false →
    CompletesWith (exec (.unwrap c) s) (fun t => t.vault.data = [] ∧ (∀ j, j ≠ c.index.toNat → t.slot j = s.slot j) ∧
      match gcmDec (s.slot 7).material (slice d 16 12) (slice d 0 16) (slice d 28 len) (slice d (28 + len) 16) with
      | none => t.vault.err = 0x0B ∧ t.slot c.index.toNat = s.slot c.index.toNat
      | some m => t.vault.err = 0 ∧ (t.slot c.index.toNat).material = m ∧ (t.slot c.index.toNat).valid = true ∧
          (t.slot c.index.toNat).typ = 6 ∧ (t.slot c.index.toNat).dest = 0 ∧ (t.slot c.index.toNat).expire = true)) ∧
  (∀ (s : State) (c : VaultCmd), VaultFree s c → s.vault.invOpen = true → exec (.wrap c) s = .next (Ended s c 0x06)) ∧
  (∀ (s : State) (c : VaultCmd), VaultFree s c → s.vault.attr &&& 0xFFF2F800 = 0 → s.vault.invOpen = true →
    CompletesWith (exec (.unwrap c) s) (fun t => t.vault.err = 0x06 ∧ t.vault.data = [] ∧ t.vault.slots = s.vault.slots ∧
      t.vault.records = s.vault.records ∧ { t with vault := s.vault } = s)) ∧
  (∀ (s : State) (c : VaultCmd), VaultFree s c → c.space = false → c.index.toNat < 64 → s.vault.invOpen = false →
    (s.slot c.index.toNat).valid = true → (s.slot c.index.toNat).typ = 2 → slotSound s c.index.toNat = true →
    exec (.keypair c) s = .next { s with vault := { s.vault with
      cmd := c, busy := false, done := true, err := 0, data := mOf (hybridPub (s.slot c.index.toNat).material) } })

/-- R198, R207, R216, R217, R223, R226-R230: a drawn Tier-2 seed has two different XTS keys; what BERTH_OPEN, ROTATE, RELEASE of the weight
key and DESTROY_ALL leave in their record, with every other one unchanged but by DESTROY_ALL; ROTATE while rotating is refused with 0x09; a
fill of a record goes to the one lane that waits for it, with its content or a refusal, and one that meets an uncorrectable word makes the
record UNUSABLE -/
def Obligations.VaultRecords : Prop :=
  (∀ (s : State) (b n : Nat) (g : Bool), match (drawSeed s b g n).1 with
    | none => True
    | some seed => slice (lineKeys b g seed) 0 32 ≠ slice (lineKeys b g seed) 32 32) ∧
  (∀ (s : State) (c : VaultCmd), VaultFree s c → c.space = true → (s.record c.index.toNat).opened = false →
    vaultClosed s = false → s.vault.drbgOk = true → CompletesWith (exec (.berthOpen c) s) (fun t =>
      (∀ b, b ≠ c.index.toNat → t.record b = s.record b) ∧ t.vault.slots = s.vault.slots ∧ t.fuse = s.fuse ∧ t.berths = s.berths ∧
      match (drawSeed s c.index.toNat false 8).1 with
      | some seed => (t.record c.index.toNat).opened = true ∧ (t.record c.index.toNat).epoch = 1 ∧
          (t.record c.index.toNat).t2Seed0 = some seed ∧
          (t.record c.index.toNat).pressSeed = some (drawBytes (drawSeed s c.index.toNat false 8).2 48) ∧
          (t.record c.index.toNat).t2Seed1 = none ∧ (t.record c.index.toNat).weight = none ∧ t.lc.vaultEmpty = false
      | none => t.vault.err = 0x0E ∧ t.record c.index.toNat = s.record c.index.toNat)) ∧
  (∀ (s : State) (c : VaultCmd), VaultFree s c → c.space = true → (s.record c.index.toNat).opened = true →
    (s.record c.index.toNat).rotating = false → recordSound s c.index.toNat = true → s.vault.drbgOk = true →
    (s.record c.index.toNat).curGen = false → CompletesWith (exec (.rotate c) s) (fun t =>
      (∀ b, b ≠ c.index.toNat → t.record b = s.record b) ∧ t.vault.slots = s.vault.slots ∧ t.fuse = s.fuse ∧ t.berths = s.berths ∧
      match (drawSeed s c.index.toNat true 8).1 with
      | some seed => (t.record c.index.toNat).curGen = true ∧ (t.record c.index.toNat).rotating = true ∧
          (t.record c.index.toNat).t2Seed1 = some seed ∧ (t.record c.index.toNat).t2Seed0 = (s.record c.index.toNat).t2Seed0 ∧
          (t.record c.index.toNat).epoch = (s.record c.index.toNat).epoch + 1 ∧
          (t.record c.index.toNat).sweepShare = s.vault.aux.setWidth 8
      | none => t.vault.err = 0x0E ∧ t.record c.index.toNat = s.record c.index.toNat)) ∧
  (∀ (s : State) (c : VaultCmd), VaultFree s c → c.space = true → (s.record c.index.toNat).opened = true →
    (s.record c.index.toNat).unusable = false → (s.record c.index.toNat).rotating = true →
    exec (.rotate c) s = .next (Ended s c 0x09)) ∧
  (∀ (s : State) (c : VaultCmd) (k : Nat) (d : Bytes), VaultFree s c → c.space = true → c.field = 2 → s.vault.aux.toNat = k →
    8 ≤ k → k < 12 → (s.slot k).valid = true → (s.slot k).dest.getLsbD 7 = true → slotSound s k = true →
    (s.slot k).berth = c.index.setWidth 16 → (s.record c.index.toNat).opened = true → vaultClosed s = false →
    recordSound s c.index.toNat = true → d = mread 0 s.vault.data 0 1773 → CompletesWith (exec (.release c) s) (fun t =>
      t.vault.data = [] ∧ t.vault.slots = s.vault.slots ∧ (∀ b, b ≠ c.index.toNat → t.record b = s.record b) ∧
      match gcmDec (kdf (agree (s.slot k).material (slice d 0 97) (slice d 97 1568)) (ascii "MB3-PRIRDO-KEK")
          (slice d 1665 48 ++ toBe 2 c.index.toNat ++ [2]) 32) (slice d 1713 12) (slice d 1665 48) (slice d 1725 32) (slice d 1757 16) with
      | none => t.vault.err = 0x0A ∧ t.record c.index.toNat = s.record c.index.toNat
      | some key => (t.record c.index.toNat).weight = some key ∧
          (t.record c.index.toNat).epoch = (s.record c.index.toNat).epoch + 1)) ∧
  (∀ (s : State) (c : VaultCmd), VaultFree s c → CompletesWith (exec (.destroyAll c) s) (fun t =>
    (∀ b, t.record b = { recordInit with
      epoch := if (s.record b).opened then (s.record b).epoch + 1 else (s.record b).epoch }) ∧
    (∀ k, 4 ≤ k → t.slot k = if (s.slot k).valid then { slotInit with epoch := (s.slot k).epoch + 1 } else s.slot k) ∧
    (∀ k, k < 4 → t.slot k = s.slot k) ∧ t.fuse = s.fuse ∧ t.flash = s.flash)) ∧
  (∀ (s : State) (readable : Bool), accepts s = true → clocked s .vaultFuse = true → fillPort s = none → exec (.vaultFill readable) s = .next s) ∧
  (∀ (s : State) (port entry ix : Nat) (rest : List (Nat × List Nat)), accepts s = true → clocked s .vaultFuse = true → fillPort s = some port →
    tget [] s.vault.ports port = (entry, [ix]) :: rest → entry < 4096 → (s.record entry).opened = false →
    exec (.vaultFill true) s = .next { s with vault := { s.vault with
      turn := (port + 1) % 15
      ports := tset s.vault.ports port rest
      channels := tset s.vault.channels ix (tget [] s.vault.channels ix ++ [.fill entry none]) } }) ∧
  (∀ (s : State) (port entry ix : Nat) (rest : List (Nat × List Nat)), accepts s = true → clocked s .vaultFuse = true → fillPort s = some port →
    tget [] s.vault.ports port = (entry, [ix]) :: rest → entry < 4096 → (s.record entry).opened = true →
    recordSound s entry = true → exec (.vaultFill true) s = .next { s with vault := { s.vault with
      turn := (port + 1) % 15
      ports := tset s.vault.ports port rest
      channels := tset s.vault.channels ix (tget [] s.vault.channels ix ++ [.fill entry (some (fillContent s port entry))]) } }) ∧
  (∀ (s : State) (port entry ix : Nat) (rest : List (Nat × List Nat)), accepts s = true → clocked s .vaultFuse = true → fillPort s = some port →
    tget [] s.vault.ports port = (entry, [ix]) :: rest → entry < 4096 → (s.record entry).opened = true →
    (s.record entry).unusable = false → CompletesWith (exec (.vaultFill false) s) (fun t =>
      (t.record entry).unusable = true ∧ t.vault.tagFail = true ∧
      t.vault.channels = tset s.vault.channels ix (tget [] s.vault.channels ix ++ [.fill entry none]) ∧
      (∀ b, b ≠ entry → t.record b = s.record b) ∧ t.vault.slots = s.vault.slots ∧ t.fuse = s.fuse))

/-! ### The vault's steps for links (11) -/

/-- R386, R390, R391, R394: on a VALID, sound link slot, the two DRAW steps leave a fresh seed and its public key; the ENCAP and DECAP steps
use it up, those of a job setting its context; JOB_ENCAP after an earlier agreement uses the ECDH key of this side's LINK_HELLO; PROMOTE
moves the job keys up one generation and JOB_DROP zeroes them; no other slot changes; a reserved step is refused with 0x03 -/
def Obligations.LinkAgreeSteps : Prop :=
  (∀ (s : State) (c : VaultCmd) (k : Nat), VaultFree s c → c.space = false → c.index.toNat = k → 16 ≤ k → k < 64 →
    (s.slot k).valid = true → slotSound s k = true → s.vault.aux = 0 → s.vault.drbgOk = true →
    CompletesWith (exec (.jobDraw c) s) (fun t => (t.slot k).material = withSeed (s.slot k).material (drawBytes s 120) ∧
      t.vault.data = mOf (kemPair (drawBytes s 120)) ∧ (t.slot k).epoch = (s.slot k).epoch + 1 ∧
      (∀ j, j ≠ k → t.slot j = s.slot j)) ∧
    CompletesWith (exec (.maintDraw c) s) (fun t => (t.slot k).material = withSeed (s.slot k).material (drawBytes s 120) ∧
      t.vault.data = mOf (kemPair (drawBytes s 120)) ∧ (∀ j, j ≠ k → t.slot j = s.slot j))) ∧
  (∀ (s : State) (c : VaultCmd) (k : Nat), VaultFree s c → c.space = false → c.index.toNat = k → 16 ≤ k → k < 64 →
    (s.slot k).valid = true → slotSound s k = true → s.vault.aux = 0 → allZero (linkSeed (s.slot k).material) = false →
    s.vault.drbgOk = true →
    CompletesWith (exec (.maintEncap c) s) (fun t => linkSeed (t.slot k).material = zeros 120 ∧
      t.pilot.drawn = s.pilot.drawn + 32 ∧ (∀ j, j ≠ k → t.slot j = s.slot j)) ∧
    CompletesWith (exec (.maintDecap c) s) (fun t => linkSeed (t.slot k).material = zeros 120 ∧ t.vault.data = [] ∧
      t.pilot = s.pilot ∧ (∀ j, j ≠ k → t.slot j = s.slot j)) ∧
    CompletesWith (exec (.jobEncap c) s) (fun t => linkSeed (t.slot k).material = zeros 120 ∧
      t.pilot.drawn = s.pilot.drawn + 32 ∧ (linkCtx t k).gen = 0 ∧
      (linkCtx t k).jobId = slice (mread 0 s.vault.data 0 1733) 1713 16 ∧ (∀ j, j ≠ k → t.slot j = s.slot j)) ∧
    CompletesWith (exec (.jobDecap c) s) (fun t => linkSeed (t.slot k).material = zeros 120 ∧ t.vault.data = [] ∧
      (linkCtx t k).gen = 0 ∧ (linkCtx t k).jobId = slice (mread 0 s.vault.data 0 1733) 1713 16 ∧
      (∀ j, j ≠ k → t.slot j = s.slot j))) ∧
  (∀ (s : State) (c : VaultCmd) (k : Nat), VaultFree s c → c.space = false → c.index.toNat = k → 16 ≤ k → k < 64 →
    (s.slot k).valid = true → slotSound s k = true → s.vault.aux = 0 → (s.slot k).material.length = 312 →
    CompletesWith (exec (.promote c) s) (fun t => slice (t.slot k).material 184 64 = slice (s.slot k).material 248 64 ∧
      slice (t.slot k).material 0 184 = slice (s.slot k).material 0 184 ∧ (linkCtx t k).gen = (linkCtx s k).gen + 1 ∧
      (∀ j, j ≠ k → t.slot j = s.slot j)) ∧
    CompletesWith (exec (.jobDrop c) s) (fun t => slice (t.slot k).material 184 128 = zeros 128 ∧
      slice (t.slot k).material 0 184 = slice (s.slot k).material 0 184 ∧ (linkCtx t k).gen = 0 ∧
      (∀ j, j ≠ k → t.slot j = s.slot j))) ∧
  (∀ (s : State) (c : VaultCmd) (k : Nat), VaultFree s c → c.space = false → c.index.toNat = k → 16 ≤ k → k < 64 →
    (s.slot k).valid = true → slotSound s k = true → s.vault.aux = 0 → allZero (linkSeed (s.slot k).material) = true →
    (linkCtx s k).ecdh ≠ [] → s.vault.drbgOk = true → CompletesWith (exec (.jobEncap c) s) (fun t =>
      t.vault.data = mOf (encapTo s (linkCtx s k).ecdh (slice (mread 0 s.vault.data 0 1733) 0 97)
        (slice (mread 0 s.vault.data 0 1733) 97 1568)).2 ∧
      (linkCtx t k).ecdh = (linkCtx s k).ecdh ∧ (linkCtx t k).gen = 0 ∧ (∀ j, j ≠ k → t.slot j = s.slot j))) ∧
  (∀ (s : State) (c : VaultCmd), VaultFree s c → c.space = false → s.vault.aux = 9 →
    exec (.vaultReservedOp c 0x0E) s = .next (Ended s c 0x03))

/-! ### Crypto engines and entropy (06) -/

/-- The crypto block takes a CRYPTO_CMD with a length it allows: the islands run, none is in progress, LEN is 1 to 8,192 (R238). -/
def CryptoFree (s : State) : Prop := commanded s = true ∧ s.crypto.busy = false ∧ 1 ≤ s.crypto.len.toNat ∧ s.crypto.len.toNat ≤ 8192

/-- An operation in progress whose result appears when it ends. -/
def Running (s : State) (ks : BitVec 6) (e : Byte) (pass : Bool) (out : Bytes) : State :=
  { s with crypto := { s.crypto with keysel := ks, pass := false, err := 0, busy := true, result := some (e, pass, out) } }

/-- A key slot that a keyed operation may use: VALID, of the class, its tag good, and not closed by an invasive grant. -/
def KeyReady (s : State) (ks : BitVec 6) (cls : Nat) : Prop :=
  (s.slot ks.toNat).valid = true ∧ (s.slot ks.toNat).dest.getLsbD cls = true ∧ slotSound s ks.toNat = true ∧ s.vault.invOpen = false

/-- R238: SHA-384, SHA3-384, HMAC, AES-GCM both ways, hybrid signature and verification and DRBG_READ start with the result that the engine
computes from CRYPTO_IN; DRBG_READ while the DRBG is not healthy is refused with 0x07, an operation while one runs with 0x01 and a reserved
one with 0x02; the end of an operation shows its result -/
def Obligations.CryptoEngines : Prop :=
  (∀ (s : State) (ks : BitVec 6), CryptoFree s → exec (.sha384Op ks) s = .next (Running s ks 0 false (sha384 (cryptoInput s)))) ∧
  (∀ (s : State) (ks : BitVec 6), CryptoFree s → exec (.sha3Op ks) s = .next (Running s ks 0 false (sha3384 (cryptoInput s)))) ∧
  (∀ (s : State) (ks : BitVec 6), CryptoFree s → KeyReady s ks 9 → exec (.hmacOp ks) s =
    .next (Running s ks 0 false (hmac384 (s.slot ks.toNat).material (cryptoInput s)))) ∧
  (∀ (s : State) (ks : BitVec 6) (m : Bytes), CryptoFree s → KeyReady s ks 9 → m = cryptoInput s → 16 + leAt m 12 4 ≤ m.length →
    exec (.aesGcmEncrypt ks) s = .next (Running s ks 0 false
      ((gcmEnc (s.slot ks.toNat).material (slice m 0 12) (slice m 16 (leAt m 12 4)) (m.drop (16 + leAt m 12 4))).1 ++
       (gcmEnc (s.slot ks.toNat).material (slice m 0 12) (slice m 16 (leAt m 12 4)) (m.drop (16 + leAt m 12 4))).2))) ∧
  (∀ (s : State) (ks : BitVec 6) (m aad c tag : Bytes), CryptoFree s → KeyReady s ks 9 → m = cryptoInput s → tag.length = 16 →
    aad.length < 2 ^ 32 → m = slice m 0 12 ++ toLe 4 aad.length ++ aad ++ c ++ tag → exec (.aesGcmDecrypt ks) s =
      .next (match gcmDec (s.slot ks.toNat).material (slice m 0 12) aad c tag with
        | some p => Running s ks 0 false p
        | none => Running s ks 0x06 false [])) ∧
  (∀ (s : State) (ks : BitVec 6), CryptoFree s → KeyReady s ks 6 → s.crypto.len = 48 → exec (.hybridSign ks) s =
    .next (Running (drew s 1) ks 0 false (hybridSigOf (s.slot ks.toNat).material (cryptoInput s) s.pilot.drawn))) ∧
  (∀ (s : State) (ks : BitVec 6), CryptoFree s → s.crypto.len.toNat = 7460 → exec (.hybridVerify ks) s =
    .next (Running s ks 0 (hybridOk (slice (cryptoInput s) 0 2689) (slice (cryptoInput s) 7412 48) (slice (cryptoInput s) 2689 4723)) [])) ∧
  (∀ (s : State) (ks : BitVec 6), CryptoFree s → s.vault.drbgOk = true → exec (.drbgRead ks) s =
    .next (Running (drew s s.crypto.len.toNat) ks 0 false (drawBytes s s.crypto.len.toNat))) ∧
  (∀ (s : State) (ks : BitVec 6), CryptoFree s → s.vault.drbgOk = false → exec (.drbgRead ks) s =
    .next { s with crypto := { s.crypto with keysel := ks, pass := false, done := true, err := 0x07 } }) ∧
  (∀ (s : State) (ks : BitVec 6), commanded s = true → s.crypto.busy = true →
    exec (.sha384Op ks) s = .next { s with crypto := { s.crypto with err := 0x01 } }) ∧
  (∀ (s : State) (ks : BitVec 6) (op : BitVec 4), commanded s = true → s.crypto.busy = false → op = 0 ∨ 9 ≤ op.toNat →
    exec (.cryptoReservedOp ks op) s = .next { s with crypto := { s.crypto with keysel := ks, pass := false, done := true, err := 0x02 } }) ∧
  (∀ (s : State) (e : Byte) (p : Bool) (out : Bytes), accepts s = true → s.crypto.result = some (e, p, out) →
    exec .cryptoOpDone s = .next { s with crypto := { s.crypto with
      busy := false, done := true, err := e, pass := p, result := none, outBuf := mOf out } })

/-- R196, R223, R224: the entropy source's failure clears DRBG_OK and in firmware raises its alarm, in the ROM after the policy step halts
with 0x89; a reseed that passes sets DRBG_OK, and draws the debug nonce where there is none; one that does not pass changes nothing -/
def Obligations.EntropyEvents : Prop :=
  (∀ s : State, accepts s = true → s.pilot.phase = .firmware → CompletesWith (exec .entropyTestFail s) (fun t =>
    t.vault = { s.vault with drbgOk := false, entropyFailed := true } ∧ t.lc = { s.lc with nonce := none } ∧
    tget [] t.jrn.queues 232 ≠ [] ∧ { t with vault := s.vault, lc := s.lc, jrn := s.jrn } = s)) ∧
  (∀ s : State, accepts s = true → s.pilot.phase = .rom → s.pilot.policyDone = true →
    CompletesWith (exec .entropyTestFail s) (fun t => t.vault.drbgOk = false ∧ t.pilot.phase = .halted ∧ t.pilot.haltCode = 0x89)) ∧
  (∀ s : State, accepts s = true → s.pilot.phase = .firmware → s.pilot.entropyOk = true → s.lc.nonce.isSome = true →
    exec (.drbgReseed true) s =
      .next { s with vault := { s.vault with drbgOk := true, entropyFailed := false, sinceReseed := 0 } }) ∧
  (∀ s : State, accepts s = true → s.pilot.phase = .rom → s.pilot.entropyOk = true → s.lc.nonce.isSome = true →
    exec (.drbgReseed true) s = .next { s with vault := { s.vault with drbgOk := true, sinceReseed := 0 } }) ∧
  (∀ s : State, accepts s = true → s.pilot.entropyOk = true → s.lc.nonce = none → CompletesWith (exec (.drbgReseed true) s)
    (fun t => t.vault.drbgOk = true ∧ t.lc.nonce = some (drawBytes s 48) ∧ t.pilot.drawn = s.pilot.drawn + 48)) ∧
  (∀ s : State, accepts s = true → exec (.drbgReseed false) s = .next s)

/-! ### Prirdo (07) -/

/-- A PRIRDO command of a berth's VF reaches Pilot (R533): firmware runs, MB3 is ready for berths, and the berth is not FREE. -/
def PrirdoOpen (s : State) (vf : Nat) : Prop :=
  pilotUp s = true ∧ vfExists s vf = true ∧ s.pilot.ready = true ∧ (s.berth vf).state ≠ .free

/-- R261-R272: a HELLO of suite 2 that every check accepts leaves a session and its exchange seed in slot 8 and is answered; one that a
check refuses is answered with the check's ERROR; a RELEASE whose signature verifies binds at most its own berth and is answered, one whose
signature fails or without a session gets ERROR 0x09 or 0x06; END and the session's limit destroy the session's slot; a reserved type gets
ERROR 0x01 -/
def Obligations.PrirdoSessions : Prop :=
  (∀ (s : State) (vf v : Nat) (m : Bytes), PrirdoOpen s vf → helloCheck s vf m = 0 → prirdoVersion s (byteAt m 16) = some v →
    byteAt m 17 = 2 → (s.slot 8).valid = false → vf < 4096 → CompletesWith (exec (.hello vf m) s) (fun t =>
      (t.slot 8).valid = true ∧ (t.slot 8).typ = 4 ∧ (t.slot 8).berth = BitVec.ofNat 16 vf ∧
      (∃ x, tfind t.sessions 0 = some x ∧ x.berth = vf ∧ x.version = v ∧ x.ksKeys = slice m 68 2689) ∧
      (∃ e, t.out = .reply (.vf vf) 0x70 0 e :: s.out) ∧ (∀ j, j ≠ 8 → t.slot j = s.slot j) ∧
      t.vault.records = s.vault.records ∧ t.berths = s.berths ∧ t.fuse = s.fuse)) ∧
  (∀ (s : State) (vf : Nat) (m : Bytes), PrirdoOpen s vf → touchSlot s 4 = s → helloCheck s vf m ≠ 0 → helloCheck s vf m ≠ 2 →
    exec (.hello vf m) s = .next (reply s (.vf vf) 0x70 (prirdoError s vf m (helloCheck s vf m) 0))) ∧
  (∀ (s : State) (vf : Nat) (m : Bytes), PrirdoOpen s vf → touchSlot s 4 = s → helloCheck s vf m = 2 →
    exec (.hello vf m) s = .next (reply s (.vf vf) 0x70 (prirdoError s vf m 0x02 (versionBits (prirdoSupported s))))) ∧
  (∀ (s : State) (vf i : Nat) (x : Session) (m : Bytes), PrirdoOpen s vf → findSession s vf m = some (i, x) → 16 ≤ m.length →
    sessionHeader x vf m 3 = true → releaseOk x m = true →
    (s.berth vf).state = .running → (s.berth vf).binding = [] → vf < 4096 → CompletesWith (exec (.prirdoRelease vf m) s) (fun t =>
      t.sessions = s.sessions ∧ (∀ b, b ≠ vf → t.record b = s.record b ∧ t.berth b = s.berth b) ∧ t.fuse = s.fuse ∧
      if hybridOk x.ksKeys (sha384 (x.transcript ++ m.take (m.length - 4723))) (m.drop (m.length - 4723)) = true then
        ((t.berth vf).binding = [] ∨ (t.berth vf).binding = sha384 x.ksKeys) ∧ (∃ e, t.out = .reply (.vf vf) 0x70 0 e :: s.out)
      else t = reply s (.vf vf) 0x70 (prirdoError s vf m 0x09 0))) ∧
  (∀ (s : State) (vf : Nat) (m : Bytes), PrirdoOpen s vf → 16 ≤ m.length → findSession s vf m = none →
    exec (.prirdoRelease vf m) s = .next (reply s (.vf vf) 0x70 (prirdoError s vf m 0x06 0))) ∧
  (∀ (s : State) (vf i : Nat) (x : Session) (m : Bytes), PrirdoOpen s vf → 16 ≤ m.length → findSession s vf m = some (i, x) →
    sessionHeader x vf m 6 = true → CompletesWith (exec (.prirdoEnd vf m) s) (fun t => t.sessions = tdel s.sessions i ∧
      t.slot (8 + i) = { slotInit with epoch := (s.slot (8 + i)).epoch + 1 } ∧ t.out = .reply (.vf vf) 0x70 0 [] :: s.out ∧
      t.vault.records = s.vault.records)) ∧
  (∀ (s : State) (vf : Nat) (m : Bytes), PrirdoOpen s vf → 16 ≤ m.length → findSession s vf m = none →
    exec (.prirdoEnd vf m) s = .next (reply s (.vf vf) 0x70 (prirdoError s vf m 0x06 0))) ∧
  (∀ (s : State) (vf : Nat) (m : Bytes), PrirdoOpen s vf → byteAt m 5 = 0x07 → exec (.prirdoReservedType vf m) s =
    .next (reply s (.vf vf) 0x70 (prirdoError s vf m 0x01 0))) ∧
  (∀ (s : State) (i : Nat), pilotUp s = true → i < 4 → (tfind s.sessions i).isSome = true →
    CompletesWith (exec (.prirdoSessionTimeout (8 + i)) s) (fun t => t.sessions = tdel s.sessions i ∧
      t.slot (8 + i) = { slotInit with epoch := (s.slot (8 + i)).epoch + 1 } ∧ { t with vault := s.vault, sessions := s.sessions } = s))

/-! ### Settings, enrolment and update (08) -/

/-- R199, R251, R252, R303-R305: ENROL_CSR of the Tvedgetex identity is answered with a request, or with 0x01 where its slot holds no key;
ENROL_INSTALL of that kind outside a trial checks the issuer's signature and the identity, and then holds the installed pair beside the
other kind's (in the layout of log entry 180) until the settings write; a malformed one is refused with 0x04 and one after the settings are
closed with 0x03; four certificates packed are read back; the settings write ends the change, and a migration that fails twice halts with
0xA2 -/
def Obligations.Enrolment : Prop :=
  (∀ s : State, pilotUp s = true → slotServes s 1 6 = true → CompletesWith (exec (.enrolCsr [0, 0, 0, 0]) s)
    (fun t => t.pilot.drawn = s.pilot.drawn + 1 ∧ t.vault.slots = s.vault.slots ∧
      (∃ b, t.out = .reply .pf0 0x12 0 ([0, 0, 0, 0] ++ b) :: s.out))) ∧
  (∀ s : State, pilotUp s = true → (s.slot 1).valid = false →
    exec (.enrolCsr [0, 0, 0, 0]) s = .next (reply s .pf0 0x12 [0x01, 0, 0, 0])) ∧
  (∀ (s : State) (body root cert : Bytes), pilotUp s = true → installCerts body = some (root, cert) → leAt body 0 1 = 0 →
    settingsClosed s = false → settingsHeld s = false → s.pilot.settings.held = none →
    CompletesWith (exec (.enrolInstall body) s) (fun t =>
      if certSigned root cert = false then t = reply s .pf0 0x13 [0x01]
      else if identityFits s 0 cert = false then t = reply s .pf0 0x13 [0x02]
      else t.pilot.settings = { s.pilot.settings with
          publicPart := packCerts [root, cert, rootCert s 1, identityCert s 1] ++ publicRest 4 s.pilot.settings.publicPart
          dirty := true, install := some s.pilot.settings.publicPart, answer := true } ∧ t.out = s.out ∧ t.fuse = s.fuse)) ∧
  (∀ a b c d rest : Bytes, a.length < 2 ^ 32 → b.length < 2 ^ 32 → c.length < 2 ^ 32 → d.length < 2 ^ 32 →
    unpackCerts 4 (packCerts [a, b, c, d] ++ rest) = [a, b, c, d] ∧ publicRest 4 (packCerts [a, b, c, d] ++ rest) = rest) ∧
  (∀ (s : State) (body : Bytes), pilotUp s = true → settingsClosed s = false → installCerts body = none →
    exec (.enrolInstall body) s = .next (reply s .pf0 0x13 [0x04])) ∧
  (∀ (s : State) (body : Bytes), pilotUp s = true → settingsClosed s = true →
    exec (.enrolInstall body) s = .next (reply s .pf0 0x13 [0x03])) ∧
  (∀ s : State, pilotUp s = true → settingsDue s = true → CompletesWith (exec (.settingsWrite true) s) (fun t =>
    t.pilot.settings.chosen = true ∧ t.pilot.settings.dirty = false ∧ t.pilot.settings.migrating = false ∧
    t.pilot.settings.install = none ∧ t.pilot.settings.publicPart = publicNow s ∧ t.fuse = s.fuse ∧ t.berths = s.berths)) ∧
  (∀ s : State, pilotUp s = true → settingsDue s = true → s.pilot.settings.migrating = true → 1 ≤ s.pilot.settings.writeFails →
    CompletesWith (exec (.settingsWrite false) s) (fun t => t.pilot.phase = .halted ∧ t.pilot.haltCode = 0xA2))

/-- R291-R300: UPDATE_STATUS gives the state; UPDATE_BEGIN that its checks accept starts erasing, and each end of the erase goes to staging
or back to idle; UPDATE_WRITE inside a part is programmed and counted, and any other refused with 0x08; UPDATE_END starts validation, whose
end is idle or STAGED by the checks; UPDATE_ABORT from staging ends the update and in a trial marks the Slipway BAD; UPDATE_CONFIRM in a
trial counts where the Manifest asks for it; a confirmed trial goes on to copying; counter burns end in idle when nothing is left; a copy
goes on to burning where the bank matches already, and is counted when it fails. Where flash is written, the clause takes a journal buffer
with no record waiting -/
def Obligations.UpdateStates : Prop :=
  (∀ s : State, pilotUp s = true → CompletesWith (exec (.updateStatus []) s) (fun t =>
    ∃ b, t = reply s .pf0 0x20 b ∧ b.take 3 = [0, updateCode s.update.state, s.update.lastStatus])) ∧
  (∀ (s : State) (m : Bytes), pilotUp s = true → s.update.state = .idle → CompletesWith (exec (.updateBegin m) s) (fun t =>
    if beginStatus s m = 0x01 then t.update.state = .erasing ∧ t.update.manifest = m ∧ t.update.written = 0 ∧ t.flash = s.flash
    else t = updateReply s 0x21 (beginStatus s m))) ∧
  (∀ (s : State) (ok : Bool), pilotUp s = true → s.jrn.buffer = [] → s.update.state = .erasing → CompletesWith (exec (.updateEraseDone ok) s) (fun t =>
    (if ok then t.update.state = .staging else t.update.state = .idle ∧ t.update.lastStatus = 0x0A) ∧ t.fuse = s.fuse)) ∧
  (∀ (s : State) (body : Bytes), pilotUp s = true → s.jrn.buffer = [] → s.update.state = .staging → CompletesWith (exec (.updateWrite body) s) (fun t =>
    if 5 ≤ body.length ∧ body.length ≤ 16388 ∧ s.update.mark ≤ leAt body 0 4 ∧
        insidePart (slipManifest s) (leAt body 0 4) (body.length - 4) = true then
      t.update.mark = leAt body 0 4 + (body.length - 4) ∧ t.update.written = s.update.written + (body.length - 4) ∧
      t.flash = (flashProgram s (0x02500000 + leAt body 0 4) (body.drop 4)).flash
    else t = updateReply s 0x22 0x08)) ∧
  (∀ s : State, pilotUp s = true → s.update.state = .staging → CompletesWith (exec (.updateEnd []) s) (fun t =>
    t.update.state = .validating ∧ t.update.lastStatus = 0x01 ∧ t.flash = s.flash)) ∧
  (∀ s : State, pilotUp s = true → s.jrn.buffer = [] → s.update.state = .validating → CompletesWith (exec (.updateValidateDone true) s) (fun t =>
    if areaGood s slipBase = false then t.update.state = .idle ∧ t.update.lastStatus = 0x09 ∧ t.flash = s.flash
    else if revokes (slipManifest s) (slice (headerAt s slipBase) 128 7416) = true then
      t.update.state = .idle ∧ t.update.lastStatus = 0x0C ∧ t.flash = s.flash
    else t.update.state = .staged)) ∧
  (∀ s : State, pilotUp s = true → s.update.state = .staging → CompletesWith (exec (.updateAbort []) s) (fun t =>
    t.update.state = .idle ∧ t.flash = s.flash)) ∧
  (∀ s : State, pilotUp s = true → s.jrn.buffer = [] → s.update.state = .trial → exec (.updateAbort []) s =
    .next (updateReply (programWord s .slipway 68 0) 0x24 0)) ∧
  (∀ s : State, pilotUp s = true → s.update.state = .trial → s.pilot.ready = true → CompletesWith (exec (.updateConfirm []) s)
    (fun t => if holdConfirm s = true then t.update.confirmed = true else t = updateReply s 0x25 0x02)) ∧
  (∀ s : State, pilotUp s = true → s.jrn.buffer = [] → CompletesWith (exec .trialConfirm s) (fun t =>
    if confirmReady s = true then t.update.state = .copying ∧ t.flash = (programWord s .slipway 88 0x434E464D).flash else t = s)) ∧
  (∀ s : State, pilotUp s = true → s.jrn.buffer = [] → s.update.state = .burning → CompletesWith (exec .counterBurn s) (fun t =>
    if countersDue s (slipManifest s) = [] ∧ revokesDue s (slipManifest s) = [] then t.update.state = .idle ∧ t.fuse = s.fuse
    else t.update = s.update ∧ t.flash = s.flash)) ∧
  (∀ (s : State) (ok : Bool), pilotUp s = true → s.jrn.buffer = [] → s.update.state = .copying → CompletesWith (exec (.slipwayCopy ok) s) (fun t =>
    t.update.resumed = false ∧
    if s.update.resumed = true ∧ (matchingBank s).isSome = true then
      t.update.state = .burning ∧ t.flash = (programWord s .slipway 92 0x43504944).flash
    else if ok = false ∧ s.update.copyTries < 2 then
      t.update.state = .copying ∧ t.update.copyTries = s.update.copyTries + 1
    else t.fuse = s.fuse))

/-! ### Berths and the rinse (09) -/

/-- A PF1 berth command that none of the codes common to all refuses: firmware runs, MB3 is ready, the berth named by bytes 0-1
exists and no commit of it runs, and the body has its length (R319, R320). -/
def BerthCmd (s : State) (body : Bytes) (len b : Nat) : Prop :=
  pilotUp s = true ∧ s.pilot.ready = true ∧ body.length = len ∧ leAt body 0 2 = b ∧ b < 4096 ∧ (s.berth b).commit = none

/-- R309-R311, R315, R318-R320, R501: BERTH_QUERY gives the state and level in its 784 bytes; BERTH_ASSIGN of a FREE berth opens its record
and leaves every other berth and record as they were, and of one that is not FREE is refused with 0x02; BERTH_WINDOW, BERTH_SITES and
FERRY_SHARE stage or set what their checks accept; BERTH_ROTATE during a commit is refused with 0x0D -/
def Obligations.BerthPreparation : Prop :=
  (∀ (s : State) (body : Bytes) (b : Nat), pilotUp s = true → s.pilot.ready = true → body.length = 2 → leAt body 0 2 = b →
    b < 4096 → CompletesWith (exec (.berthQuery body) s) (fun t =>
    ∃ r, t = reply s .pf1 0x40 r ∧ r.length = 784 ∧ r.take 3 = [0, stateCode (s.berth b).state, BitVec.ofNat 8 (levelNo (s.berth b).level)])) ∧
  (∀ (s : State) (body : Bytes) (b : Nat), BerthCmd s body 5 b → leAt body 4 1 ≤ 8 → vfExists s b = true →
    (s.berth b).state = .free → vaultClosed s = false → runFree s (leAt body 2 2) (leAt body 4 1) = true → s.vault.drbgOk = true →
    CompletesWith (exec (.berthAssign body) s) (fun t =>
      if (drawSeed s b false 8).1.isSome = true then
        t.berth b = { berthInit with
          state := .assigned, level := (s.berth b).level, ferryCount := leAt body 4 1
          ferryBase := if leAt body 4 1 = 0 then 0 else leAt body 2 2 } ∧
        (t.record b).opened = true ∧ (t.record b).epoch = 1 ∧ (∀ c, c ≠ b → t.berth c = s.berth c ∧ t.record c = s.record c) ∧
        t.vault.slots = s.vault.slots ∧ t.fuse = s.fuse
      else t = reply s .pf1 0x41 [0x0C, 0, 0, 0])) ∧
  (∀ (s : State) (body : Bytes) (b : Nat), BerthCmd s body 5 b → leAt body 4 1 ≤ 8 → vfExists s b = true →
    (s.berth b).state ≠ .free → exec (.berthAssign body) s = .next (reply s .pf1 0x41 [0x02, 0, 0, 0])) ∧
  (∀ (s : State) (body : Bytes) (b tier slot : Nat) (w : Window), BerthCmd s body 14 b → (s.berth b).state = .assigned →
    tier = leAt body 2 1 → tier = 1 ∨ tier = 2 → slot = leAt body 3 1 → slot < 16 → w.unit = leAt body 4 1 →
    w.unit < (if tier = 1 then 8 else 16) → leAt body 5 1 ≤ 1 → w.readOnly = (leAt body 5 1 == 1) → w.base = leAt body 6 4 →
    w.size = leAt body 10 4 → exec (.berthWindow body) s = .next
      (if w.size = 0 then
        reply (s.setBerth b (putStaged (s.berth b) tier (tdel (stagedOf (s.berth b) tier) slot))) .pf1 0x42 [0, 0, 0, 0]
      else match windowCheck s b tier w (windowsOf (tdel (stagedOf (s.berth b) tier) slot)) true with
        | 0 => reply (s.setBerth b (putStaged (s.berth b) tier (tset (stagedOf (s.berth b) tier) slot w))) .pf1 0x42 [0, 0, 0, 0]
        | e => reply s .pf1 0x42 [e, 0, 0, 0])) ∧
  (∀ (s : State) (body : Bytes) (b : Nat), BerthCmd s body 4 b → (s.berth b).state = .assigned → leAt body 2 2 < 4096 →
    exec (.berthSites body) s = .next (if sitesOk s b (BitVec.ofNat 12 (leAt body 2 2)) = true then
      reply (s.setBerth b { s.berth b with sitesStaged := BitVec.ofNat 12 (leAt body 2 2) }) .pf1 0x43 [0, 0, 0, 0]
    else reply s .pf1 0x43 [0x06, 0, 0, 0])) ∧
  (∀ (s : State) (body : Bytes) (b : Nat), BerthCmd s body 4 b → rinsable (s.berth b) = true →
    leAt body 2 1 < (s.berth b).ferryCount → exec (.ferryShare body) s = .next (reply (modCh s ((s.berth b).ferryBase + leAt body 2 1)
      (fun x => { x with share := byteAt body 3 })) .pf1 0x48 [0, 0, 0, 0])) ∧
  (∀ (s : State) (body : Bytes) (b : Nat), pilotUp s = true → s.pilot.ready = true → leAt body 0 2 = b → b < 4096 →
    (s.berth b).commit.isSome = true → exec (.berthRotate body) s = .next (reply s .pf1 0x46 [0x0D, 0, 0, 0]))

/-- R229, R308, R313-R317, R321, R255: BERTH_COMMIT that its checks accept and that has windows to zero and nothing to keep uninitialised
begins zeroing, and one that a check refuses is answered with the code; once nothing is left to zero the tables are broadcast; BERTH_ROTATE
draws the other generation; a SUSPENDED berth is resumed to ASSIGNED; a site's WIPE is acknowledged with version 2 or with a signed record,
and one that is not signed or does not come fails the site -/
def Obligations.BerthCommitAndWipe : Prop :=
  (∀ (s : State) (body : Bytes) (b : Nat), BerthCmd s body 2 b → (s.berth b).state = .assigned → commitCheck s b = 0 →
    droppedSites s (s.berth b) = [] → commitZero s (s.berth b) ≠ [] → commitUninit (s.berth b) = [] →
    CompletesWith (exec (.berthCommit body) s) (fun t => (t.berth b).commit = some .zeroing ∧ (t.berth b).t1 = (s.berth b).t1 ∧
      (t.berth b).state = .assigned ∧ t.out = .reply .pf1 0x44 0 [0x01, 0, 0, 0] :: s.out ∧ (∀ c, c ≠ b → t.berth c = s.berth c) ∧
      t.vault = s.vault)) ∧
  (∀ (s : State) (body : Bytes) (b : Nat), BerthCmd s body 2 b → (s.berth b).state = .assigned → commitCheck s b ≠ 0 →
    exec (.berthCommit body) s = .next (reply s .pf1 0x44 [commitCheck s b, 0, 0, 0])) ∧
  (∀ (s : State) (b : Nat), pilotUp s = true → (s.berth b).commit = some .zeroing → (s.berth b).toZero = [] →
    (s.berth b).zeroing = [] → everyLane s ≠ [] → CompletesWith (exec (.berthCommitContinue b) s) (fun t =>
      (t.berth b).commit = some .broadcast ∧ t.lanes.seq = s.lanes.seq + 1 ∧ t.lanes.bcasts = s.lanes.bcasts ++
        [{ kind := some (.tables b), seq := s.lanes.seq, waiting := everyLane s }] ∧ t.vault = s.vault)) ∧
  (∀ (s : State) (body : Bytes) (b : Nat), BerthCmd s body 3 b → rinsable (s.berth b) = true → (s.berth b).t2.isEmpty = false →
    (s.record b).opened = true → (s.record b).rotating = false → recordSound s b = true → s.vault.drbgOk = true →
    CompletesWith (exec (.berthRotate body) s) (fun t => t.berths = s.berths ∧ (∀ c, c ≠ b → t.record c = s.record c) ∧
      if (drawSeed s b (!(s.record b).curGen) 8).1.isSome = true then
        (t.record b).curGen = !(s.record b).curGen ∧ (t.record b).rotating = true ∧
        (t.record b).epoch = (s.record b).epoch + 1 ∧ (t.record b).sweepShare = byteAt body 2
      else t.record b = s.record b)) ∧
  (∀ (s : State) (body : Bytes) (b : Nat), BerthCmd s body 2 b → (s.berth b).state = .suspended →
    CompletesWith (exec (.berthResume body) s) (fun t => (t.berth b).state = .assigned ∧ t.fuse = s.fuse)) ∧
  (∀ (s : State) (k : Nat) (m : Bytes) (signed : Bool), pilotUp s = true → (s.site k).wiping = true →
    (s.site k).step = .boarded → (s.site k).version = 2 → s.berths = [] →
    exec (.wipeAck k m signed) s = .next (s.setSite k { s.site k with wiping := false, unwiped := false })) ∧
  (∀ (s : State) (k : Nat) (m : Bytes), pilotUp s = true → (s.site k).wiping = true → (s.site k).step = .boarded →
    (s.site k).version = 3 → CompletesWith (exec (.wipeAck k m true) s) (fun t => (t.site k).wiping = false ∧
      (t.site k).unwiped = false ∧ (t.site k).record = sha384 m ∧ (∀ b, (t.berth b).owed = (s.berth b).owed &&& ~~~(1#12 <<< k)) ∧
      tfind t.pilot.measurements (16 + k) = some (sha384 ((s.site k).staged ++ sha384 m)))) ∧
  (∀ (s : State) (k : Nat) (m : Bytes), pilotUp s = true → (s.site k).wiping = true → (s.site k).version = 3 →
    CompletesWith (exec (.wipeAck k m false) s) (fun t => (t.site k).step = .failed ∧ (t.site k).wiping = false ∧
      t.pilot.measurements = tdel s.pilot.measurements (16 + k))) ∧
  (∀ (s : State) (k : Nat), pilotUp s = true → (s.site k).wiping = true → CompletesWith (exec (.wipeTimeout k) s) (fun t =>
    (t.site k).step = .failed ∧ (t.site k).unwiped = true ∧ (t.site k).wiping = false ∧
    (∀ b, t.berth b = { s.berth b with owed := (s.berth b).owed &&& ~~~(1#12 <<< k) }) ∧
    t.vault.slots = s.vault.slots))

/-- R22, R322-R329, R332: BERTH_RINSE makes a berth with no open job RINSING at once, or after the broadcast that runs, and a FREE berth
with the level "memory only" too; one already RINSING absorbs it; step 3 goes on to step 4 and step 6 ends with the berth FREE; the
sequencer takes over at step 0 -/
def Obligations.RinseSteps : Prop :=
  (∀ (s : State) (body : Bytes) (b : Nat), BerthCmd s body 2 b → rinsable (s.berth b) = true → openJob (s.bp b) = none →
    bcastRuns s (.tables b) = false → CompletesWith (exec (.berthRinse body) s) (fun t =>
      (t.berth b).state = .rinsing ∧ (t.berth b).sequencer = false ∧ t.out.head? = some (.reply .pf1 0x45 0 [0x01, 0, 0, 0]) ∧
      t.fuse = s.fuse)) ∧
  (∀ (s : State) (body : Bytes) (b : Nat), BerthCmd s body 2 b → rinsable (s.berth b) = true → openJob (s.bp b) = none →
    bcastRuns s (.tables b) = true → CompletesWith (exec (.berthRinse body) s) (fun t =>
      (t.berth b).state = (s.berth b).state ∧ (t.berth b).gateDue = true ∧ t.fuse = s.fuse)) ∧
  (∀ (s : State) (body : Bytes) (b : Nat), BerthCmd s body 2 b → (s.berth b).state = .free → (s.berth b).level = .memoryOnly →
    bcastRuns s (.tables b) = false → CompletesWith (exec (.berthRinse body) s) (fun t =>
      (t.berth b).state = .rinsing ∧ (t.berth b).levelKept = ((s.berth b).owed != 0) ∧
      t.out.head? = some (.reply .pf1 0x45 0 [if (s.berth b).owed = 0 then 0x01 else 0x00, 0, 0, 0]) ∧ t.fuse = s.fuse)) ∧
  (∀ (s : State) (body : Bytes) (b : Nat), BerthCmd s body 2 b → (s.berth b).state = .rinsing →
    exec (.berthRinse body) s = .next (reply s .pf1 0x45 [0, 0, 0, 0])) ∧
  (∀ (s : State) (b : Nat), pilotUp s = true → (s.berth b).state = .rinsing → (s.berth b).step = 3 → (s.berth b).sequencer = false →
    CompletesWith (exec (.rinseStepDone b) s) (fun t => (t.berth b).step = 4 ∧ (t.berth b).state = .rinsing ∧ t.fuse = s.fuse)) ∧
  (∀ (s : State) (b : Nat), pilotUp s = true → (s.berth b).state = .rinsing → (s.berth b).step = 6 → (s.berth b).sequencer = false →
    CompletesWith (exec (.rinseStepDone b) s) (fun t => (t.berth b).state = .free ∧ (t.berth b).level = rinseLevel (s.berth b) ∧
      (t.berth b).portFault = (s.berth b).portFault ∧ (t.berth b).stackFault = (s.berth b).stackFault ∧
      (t.berth b).integrity = (s.berth b).integrity ∧
      (t.berth b).t1 = [] ∧ (t.berth b).t2 = [] ∧ (t.berth b).sites = 0 ∧ (t.berth b).ferryCount = 0 ∧ (t.berth b).binding = [] ∧
      (∀ c, c ≠ b → t.berth c = s.berth c) ∧ t.fuse = s.fuse)) ∧
  (∀ (s : State) (b : Nat), accepts s = true → s.pilot.phase ≠ .halted → (s.berth b).state = .rinsing → (s.berth b).step = 0 →
    (s.berth b).sequencer = false → (s.berth b).recorded5 = false → CompletesWith (exec (.rinseSequencerTakeover b) s) (fun t =>
      (t.berth b).sequencer = true ∧ (t.berth b).step = 1 ∧ (t.berth b).state = .rinsing ∧ t.vault = s.vault ∧ t.out = s.out))

/-! ### Piers (10) -/

/-- A line of a site's initiator code reaches Bind and Check with its berth's key in hand (R337, R341). -/
def LineBound (s : State) (n home b : Nat) (k : KeyFill) (l : FabricLine) : Prop :=
  accepts s = true ∧ n < 136 ∧ homeOf s n = some home ∧ laneUp s n = true ∧ l.init < 12 ∧
  (s.pier n).missQ = [] ∧ (s.pier n).park = false ∧
  tfind (s.pier n).bind l.init = some b ∧ keyEntry (s.pier n) b = some (some k) ∧ keyUsable k = true

/-- R337-R342, R346, R349-R351: on a Tier-1 Pier, a site's read inside a window of its berth goes to memory, one outside every window is
refused with cause 0x02 and a write to a read-only window with 0x03; a line whose key is not cached waits and asks for it; with 32 waiting
the Pier takes none; the data of a read for the fabric comes back through the code: clean, corrected and counted, or poisoned -/
def Obligations.PierLines : Prop :=
  (∀ (s : State) (n home b : Nat) (k : KeyFill) (l : FabricLine), LineBound s n home b k l → l.op = .read →
    (findWindow (s.pier n) n home l.line b).isSome = true → lineBusy (s.pier n) l.line = false →
    CompletesWith (exec (.pierLine n l) s) (fun t => t.out = .memRead n l.line :: s.out ∧
      (t.pier n).outs = (s.pier n).outs ++ [admitted l (some b) (some k)] ∧
      { t with piers := s.piers, out := s.out } = s)) ∧
  (∀ (s : State) (n home b : Nat) (k : KeyFill) (l : FabricLine), LineBound s n home b k l → l.op = .read →
    findWindow (s.pier n) n home l.line b = none → (s.pier n).refuseAlarm = false → CompletesWith (exec (.pierLine n l) s) (fun t =>
      t.out = .fabric n l.init .accessErr (zeros 64) :: s.out ∧ (t.pier n).lastBerth = b ∧ (t.pier n).lastCause = 0x02 ∧
      (t.pier n).err.getLsbD 0 = true ∧ { t with piers := s.piers, out := s.out } = s)) ∧
  (∀ (s : State) (n home b : Nat) (k : KeyFill) (l : FabricLine), LineBound s n home b k l → l.op = .write →
    findWindow (s.pier n) n home l.line b = some true → (s.pier n).refuseAlarm = false → CompletesWith (exec (.pierLine n l) s) (fun t =>
      t.out = .fabric n l.init .accessErr (zeros 64) :: s.out ∧ (t.pier n).lastCause = 0x03)) ∧
  (∀ (s : State) (n home b : Nat) (l : FabricLine), accepts s = true → n < 136 → homeOf s n = some home → laneUp s n = true →
    l.init < 12 → (s.pier n).missQ = [] → (s.pier n).park = false → tfind (s.pier n).bind l.init = some b →
    keyEntry (s.pier n) b = none →
    CompletesWith (exec (.pierLine n l) s) (fun t => (t.pier n).missQ = [{ line := l, asked := some b }] ∧
      t.vault.ports = tmod [] s.vault.ports (n / 17) (joinMiss · b n) ∧ t.out = s.out)) ∧
  (∀ (s : State) (n : Nat) (l : FabricLine), accepts s = true → 32 ≤ (s.pier n).missQ.length → exec (.pierLine n l) s = .next s) ∧
  (∀ (s : State) (n home : Nat) (o : OutRead) (rest : List OutRead) (stored side : Bytes), HostOpen s → (s.pier n).park = false → n < 136 →
    homeOf s n = some home → (s.pier n).outs = o :: rest → o.use = .toFabric → o.berth = none →
    CompletesWith (exec (.pierReadReturn n stored side) s) (fun t => (t.pier n).outs = rest ∧
      match rsDecode stored side with
      | .clean p => t.out = .fabric n o.line.init .ok p :: s.out
      | .corrected p => t.out = .fabric n o.line.init .ok p :: s.out ∧ (t.pier n).err.getLsbD 1 = true
      | .uncorrectable => t.out = .fabric n o.line.init .poison (zeros 64) :: s.out ∧ (t.pier n).err.getLsbD 2 = true))

/-- R229-R231, R324, R343, R350, R356, R357, R360, R369: the oldest corrected line is written back; one zero line of a Tier-1 zeroing; one
line of encrypted zeros of a fill that has its key; a sweep of no windows ends, and is reported; a cursor past its last line is DONE; the
oldest drained COMMIT is acknowledged; PARK of an idle lane parks it, with lines outstanding waits, and 0 returns a tested lane to service;
COMMIT.GO of one Pier is sent to it; ZERO.GO of a lane that serves begins zeroing, and UNINIT marks exactly its range -/
def Obligations.PierUpkeep : Prop :=
  (∀ (s : State) (n line : Nat) (p : Bytes) (rest : List (Nat × Bytes)), HostOpen s → (s.pier n).scrub = (line, p) :: rest →
    lineBusy (s.pier n) line = false → exec (.pierScrubWrite n) s = .next (emit (s.setPier n { s.pier n with scrub := rest }) (.memWrite n line p (rsSide p)))) ∧
  (∀ (s : State) (n home : Nat) (z : ZeroRun), HostOpen s → n < 136 → homeOf s n = some home → (s.pier n).zero = some z →
    z.pos + 1 < 1024 * z.size → lineBusy (s.pier n) (Config.channelLine (home % 17) (1024 * z.base + z.pos)) = false →
    CompletesWith (exec (.pierZeroWrite n) s) (fun t =>
      t.out = .memWrite n (Config.channelLine (home % 17) (1024 * z.base + z.pos)) (zeros 64) (zeros 8) :: s.out ∧
      (t.pier n).zero = some { z with pos := z.pos + 1 } ∧ { t with piers := s.piers, out := s.out } = s)) ∧
  (∀ (s : State) (n home mib i b : Nat) (k : KeyFill) (kk : Bytes), HostOpen s → homeOf s n = some home →
    (s.pier n).fill = some (mib, i) → i + 1 < 16384 → i % 8 = 0 ∨ (metaFind (s.pier n) (16384 * mib + i)).isSome = true →
    fillBerth (s.pier n) home mib = some b →
    keyEntry (s.pier n) b = some (some k) → genKeys k (curGen k) = some kk → CompletesWith (exec (.uninitFillWrite n) s) (fun t =>
      (t.pier n).fill = some (mib, i + 1) ∧
      t.out.head? = some (.memWrite n (16384 * mib + i) (lineEnc kk (portNo home) b (curGen k) (16384 * mib + i) (zeros 64)) []))) ∧
  (∀ (s : State) (n home b : Nat) (st ml : Bytes), HostOpen s → 136 ≤ n → n < 154 → homeOf s n = some home →
    sweepOf s home = some b → (s.pier n).sweepDue = false → sweepWins (s.pier n) home b = [] →
    CompletesWith (exec (.pierSweepLine n st ml) s) (fun t => (t.pier n).sweepDue = true ∧ (t.pier n).sweep = none ∧
      (t.pier n).sweepBerth = b ∧ (∀ e ∈ (t.pier n).metaCache, e.2.2 = false))) ∧
  (∀ (s : State) (n home : Nat), accepts s = true → homeOf s n = some home → (s.pier n).sweepDue = true → s.vault.sweeps = [] →
    exec (.sweepDoneReport n) s = .next (s.setPier n { s.pier n with sweepDue := false, sweepDone := true })) ∧
  (∀ (s : State) (n home i : Nat) (c : Cursor) (st sd : Bytes), HostOpen s → homeOf s n = some home →
    tfind (s.pier n).cursors i = some c → c.closing = true → c.done = false → c.size / 64 ≤ c.pos →
    exec (.pairCompletionRead n i st sd) s =
      .next (s.setPier n { s.pier n with cursors := tset (s.pier n).cursors i { c with done := true } })) ∧
  (∀ (s : State) (n : Nat) (seq : BitVec 16) (rest : List (BitVec 16)), accepts s = true → (s.pier n).drain = seq :: rest →
    rest.contains seq = false → drained (s.pier n) = true → CompletesWith (exec (.pierCommitDrainDone n) s) (fun t =>
      (t.pier n).drain = rest ∧ t.lanes.acks.contains (n, seq) = true)) ∧
  (∀ (s : State) (n : Nat), commanded s = true → n < 154 → (s.pier n).outs = [] → (s.pier n).held = [] → (s.pier n).missQ = [] →
    CompletesWith (exec (.pierPark n true) s) (fun t =>
      (t.pier n).park = true ∧ (t.island (.pier n)).parked = true ∧ (∀ e ∈ (t.pier n).metaCache, e.2.2 = false))) ∧
  (∀ (s : State) (n : Nat), commanded s = true → n < 154 → (s.pier n).outs ≠ [] →
    exec (.pierPark n true) s = .next (s.setPier n { s.pier n with park := true })) ∧
  (∀ (s : State) (n : Nat), commanded s = true → n < 154 → (s.island (.pier n)).ucOk = true → (s.island (.pier n)).test = .passed →
    s.power.domUp.getLsbD (domainOf (.pier n)) = true → CompletesWith (exec (.pierPark n false) s) (fun t =>
      (t.pier n).park = false ∧ (t.island (.pier n)).parked = false ∧ (t.island (.pier n)).ucLocked = true)) ∧
  (∀ (s : State) (n : Nat) (seq : BitVec 16), commanded s = true → n < 154 → holdsKeys s n = true →
    exec (.pierCommitGo (.pier n) seq) s = .next { s with lanes := { s.lanes with
      cmds := tset s.lanes.cmds n (tget [] s.lanes.cmds n ++ [.commit seq]) } }) ∧
  (∀ (s : State) (n : Nat), commanded s = true → n < 154 → laneServes s n = true → (s.pier n).zeroSize ≠ 0 → (s.pier n).zero = none →
    exec (.pierZeroGo (.pier n)) s = .next (s.setPier n { s.pier n with
      zero := some { base := (s.pier n).zeroBase.toNat, size := (s.pier n).zeroSize.toNat, pos := 0 } })) ∧
  (∀ (s : State) (n m : Nat), commanded s = true → 136 ≤ n → n < 154 → (s.pier n).fill = none → CompletesWith (exec (.pierZeroUninit (.pier n)) s)
    (fun t => (m ∈ (t.pier n).ready ↔ m ∈ (s.pier n).ready ∧
      ¬((s.pier n).zeroBase.toNat ≤ m ∧ m < (s.pier n).zeroBase.toNat + (s.pier n).zeroSize.toNat)) ∧
      { t with piers := s.piers } = s))

/-- R28, R42, R228, R343, R344, R346-R348: a Pier takes a COMMIT, a fill and an invalidation from its channel; the broadcast of a commit's
tables goes to every lane with the next SEQ; an acknowledgement is taken off the list, and the last one ends the commit; a COMMIT whose SEQ
is the last one applied is acknowledged again and changes no Pier -/
def Obligations.LaneHandshakes : Prop :=
  (∀ (s : State) (n : Nat) (seq : BitVec 16), accepts s = true → n < 154 → holdsKeys s n = true →
    (s.island (.pier n)).service ≠ .spotTest → tget [] s.lanes.cmds n = [.commit seq] → (s.pier n).seqSeen = false → exec (.laneCommandAccept (.pier n)) s =
      .next (State.setPier { s with lanes := { s.lanes with cmds := tset s.lanes.cmds n [] } } n (applyStaged (s.pier n) n seq))) ∧
  (∀ (s : State) (n b : Nat) (f : KeyFill), accepts s = true → n < 154 → holdsKeys s n = true → tget [] s.lanes.cmds n = [] →
    tget [] s.vault.channels n = [.fill b (some f)] → (s.pier n).missQ = [] →
    (s.pier n).park = false → CompletesWith (exec (.keyFillArrive (.pier n)) s) (fun t =>
      keyEntry (t.pier n) b = some (some f) ∧ tget [] t.vault.channels n = [] ∧ (t.pier n).err = (s.pier n).err ∧ t.out = s.out)) ∧
  (∀ (s : State) (n b : Nat) (e : Word), accepts s = true → n < 154 → holdsKeys s n = true →
    tget [] s.vault.channels n = [.invalidate b e] →
    pinned (s.pier n) = [] → CompletesWith (exec (.invalidation (.pier n)) s) (fun t =>
      keyEntry (t.pier n) b = none ∧ t.vault.acks = s.vault.acks ++ [n] ∧ tget [] t.vault.channels n = [] ∧ t.out = s.out ∧
      (∀ c, c ≠ b → keyEntry (t.pier n) c = keyEntry (s.pier n) c))) ∧
  (∀ (s : State) (b : Nat), pilotUp s = true → (s.berth b).commit = some .broadcast → bcastRuns s (.tables b) = false →
    everyLane s ≠ [] → CompletesWith (exec (.broadcast (.tables b)) s) (fun t => t.lanes.seq = s.lanes.seq + 1 ∧
      t.lanes.bcasts = s.lanes.bcasts ++ [{ kind := some (.tables b), seq := s.lanes.seq, waiting := everyLane s }] ∧
      (∀ i ∈ everyLane s, .commit s.lanes.seq ∈ tget [] t.lanes.cmds i) ∧
      t.berths = s.berths ∧ t.vault = s.vault)) ∧
  (∀ (s : State) (n j : Nat) (seq : BitVec 16) (k : Option BroadcastKind), pilotUp s = true → n < 154 → j ≠ n →
    s.lanes.acks = [(n, seq)] → s.lanes.bcasts = [{ kind := k, seq := seq, waiting := [n, j] }] →
    exec (.broadcastAck (.pier n)) s = .next { s with lanes := { s.lanes with
      acks := [], bcasts := [{ kind := k, seq := seq, waiting := [j] }] } }) ∧
  (∀ (s : State) (n b : Nat) (seq : BitVec 16), pilotUp s = true → n < 154 → s.lanes.acks = [(n, seq)] →
    s.lanes.bcasts = [{ kind := some (.tables b), seq := seq, waiting := [n] }] → (s.berth b).commit = some .broadcast →
    (s.berth b).replyDue = true → (s.berth b).gateDue = false → CompletesWith (exec (.broadcastAck (.pier n)) s) (fun t =>
      (t.berth b).t1 = (s.berth b).t1Staged ∧ (t.berth b).t2 = (s.berth b).t2Staged ∧ (t.berth b).sites = (s.berth b).sitesStaged ∧
      (t.berth b).commit = none ∧ t.lanes.bcasts = [] ∧ t.out = .reply .pf1 0x44 0 [0, 0, 0, 0] :: s.out)) ∧
  (∀ (s : State) (n : Nat) (seq : BitVec 16), accepts s = true → n < 154 → holdsKeys s n = true →
    tget [] s.lanes.cmds n = [.commit seq] → (s.pier n).seqSeen = true → (s.pier n).lastSeq = seq → (s.pier n).drain = [] →
    (s.island (.pier n)).service ≠ .spotTest →
    CompletesWith (exec (.laneCommandAccept (.pier n)) s) (fun t => t.piers = s.piers ∧ (n, seq) ∈ t.lanes.acks ∧
      tget [] t.lanes.cmds n = [] ∧ t.links = s.links ∧ t.berths = s.berths ∧ t.vault = s.vault ∧ t.out = s.out))

/-- Pier 0 serves its own channel and its stack's spare, Pier 16, stands by: both have passed their tests and are in service, no
test of the group runs, and nothing is on its way to Pier 0. -/
def SpareReady (s : State) : Prop :=
  Quiet s ∧ (s.island (.pier 0)).service = .inService ∧ (s.island (.pier 0)).test = .passed ∧ s.power.domUp.getLsbD 2 = true ∧
  spareFree s 16 = true ∧ s.cover = [] ∧ (s.pgroup 0).test = none ∧ tget [] s.lanes.cmds 0 = [] ∧ tget [] s.vault.channels 0 = []

/-- What a Darn of Pier 0 leaves (R361-R363): its spare covers it with what it held, it is failed and parked, the group counts it. -/
def Darned (s t : State) : Prop :=
  tfind t.cover 16 = some 0 ∧ (t.island (.pier 0)).service = .failed ∧ (t.island (.pier 0)).parked = true ∧
  (t.pier 16).keys = (s.pier 0).keys ∧ (t.pier 16).outs = (s.pier 0).outs ∧ (t.pier 16).ready = (s.pier 0).ready ∧
  (t.pier 16).win = (s.pier 16).win ∧ (t.pgroup 0).darns = (s.pgroup 0).darns + 1 ∧ (t.pgroup 0).darnSpare = 16 ∧
  (t.pgroup 0).darnLane = 0 ∧ t.berths = s.berths

/-- R33, R361-R368: for Pier 0 with its stack's spare free, a Darn, also one by a missing acknowledgement, moves its state to the spare; one
whose state cannot be read loses the channel; a spot test covers the lane while it runs, and ends with the lane back in service or failed -/
def Obligations.DarnAndSpotTests : Prop :=
  (∀ (s : State) (c : DarnCause), SpareReady s → CompletesWith (exec (.darn (.pier 0) c true true) s) (Darned s)) ∧
  (∀ s : State, SpareReady s → s.lanes.bcasts.any (fun x => x.waiting.contains 0) = true →
    CompletesWith (exec (.broadcastAckTimeout (.pier 0)) s) (Darned s)) ∧
  (∀ (s : State) (c : DarnCause), SpareReady s → CompletesWith (exec (.darn (.pier 0) c false true) s) (fun t =>
    (t.island (.pier 0)).service = .failed ∧ t.cover = [] ∧ (t.pier 0).keys = [] ∧
    ((∀ x ∈ s.berths, x.2.t1.any (fun w => w.2.unit == 0) = false) → t.berths = s.berths))) ∧
  (∀ s : State, SpareReady s → (s.pgroup 0).period ≠ 0 → (s.pgroup 0).hold = false → (s.pgroup 0).next = 0 →
    groupWaits s (.piers 0) = false → laneUp s 0 = true → laneUp s 16 = true →
    CompletesWith (exec (.spotTestStart (.piers 0)) s) (fun t => (t.pgroup 0).test = some (0, some 16) ∧ (t.pgroup 0).next = 1 ∧
      (t.island (.pier 0)).service = .spotTest ∧ tfind t.cover 16 = some 0 ∧ (t.pier 16).keys = (s.pier 0).keys ∧
      (t.pgroup 0).darns = (s.pgroup 0).darns)) ∧
  (∀ s : State, Quiet s → (s.pgroup 0).test = some (0, some 16) → s.cover = [(16, 0)] → tget [] s.lanes.cmds 16 = [] →
    tget [] s.vault.channels 16 = [] → CompletesWith (exec (.spotTestEnd (.piers 0) true) s) (fun t =>
      (t.pgroup 0).test = none ∧ (t.island (.pier 0)).service = .inService ∧ t.cover = [] ∧ (t.pier 0).keys = (s.pier 16).keys ∧
      (t.pgroup 0).darns = (s.pgroup 0).darns)) ∧
  (∀ s : State, Quiet s → (s.pgroup 0).test = some (0, some 16) → s.cover = [(16, 0)] →
    CompletesWith (exec (.spotTestEnd (.piers 0) false) s) (fun t => (t.pgroup 0).test = none ∧
      (t.island (.pier 0)).service = .failed ∧ t.cover = [(16, 0)] ∧ (t.pgroup 0).darns = (s.pgroup 0).darns + 1))

/-! ### Gangway links (11) -/

/-- The frames of R374: command, KIND and class (0 open, 1 link, 2 job). -/
def linkFrames : List ((Nat → GwFrame → Instr) × Byte × Nat) :=
  [(.payload, 0x01, 2), (.keepalive, 0x10, 1), (.rekey, 0x11, 1), (.jobOffer, 0x12, 1), (.jobAccept, 0x13, 1), (.discover, 0x18, 1),
   (.echo, 0x19, 1), (.formed, 0x1A, 1), (.route, 0x1B, 1), (.linkHello, 0x20, 0), (.linkKex, 0x21, 0), (.linkEvidence, 0x22, 0),
   (.linkFin, 0x23, 1), (.linkError, 0x24, 0)]

/-- A lane in service covers link n and awaits no refill. -/
def AtLink (s : State) (lane n : Nat) : Prop :=
  accepts s = true ∧ laneLink s lane = some n ∧ (s.link n).refill = false ∧ laneServes s (linkLane s n) = true

/-- A frame of a class that the link's state lets in reaches it, and verifies with body p; no rekey of the link class runs, and
the receive queue is empty. -/
def Arrives (s : State) (lane n : Nat) (kind : Byte) (cls : Nat) (f : GwFrame) (p : Bytes) : Prop :=
  AtLink s lane n ∧ kindClass kind = some cls ∧ classIn (s.link n) kind cls = true ∧ (s.link n).rxq = [] ∧
  (s.link n).genLinkRx = (s.link n).genLink ∧ openFrame (s.link n) kind f cls = .good p

/-- The link once such a frame is counted: its class's counter one higher, and one more frame received. -/
def tookFrame (x : GwLink) (cls : Nat) : GwLink :=
  gwCount (if cls = 0 then x else { x with ctrs := tset x.ctrs (ctrIx cls true) (ctr x (ctrIx cls true) + 1) }) 1

/-- R374-R378, R382, R386: for each KIND, a frame on a link that is down or closed is dropped and one during a refill held; in OPENING a
frame of the link or job class other than LINK_FIN, and a job-class frame while the job is not KEYED, is dropped; a wrong counter or tag
closes the link with its cause; a reserved KIND is counted; a frame that verifies is counted and queued, or joined to its message while
Pilot runs; an open-class frame on an attested link closes it; KEEPALIVE ends there, and PAYLOAD becomes a bundle of its channel or is
refused -/
def Obligations.LinkFrames : Prop :=
  (∀ c ∈ linkFrames, ∀ (s : State) (lane n : Nat) (f : GwFrame), accepts s = true → laneLink s lane = some n →
    (((s.link n).link = .down ∨ (s.link n).link = .closed) → exec (c.1 lane f) s = .next s) ∧
    ((s.link n).link = .opening ∨ (s.link n).link = .attested → (s.link n).refill = true → exec (c.1 lane f) s =
      .next (s.setLink n { s.link n with heldRx := (s.link n).heldRx ++ [{ f with kind := c.2.1 }] }))) ∧
  (∀ c ∈ linkFrames, ∀ (s : State) (lane n : Nat) (f : GwFrame), AtLink s lane n → (s.link n).rxq = [] →
    ((s.link n).link = .opening → c.2.2 ≠ 0 → c.2.1 ≠ 0x23 → exec (c.1 lane f) s = .next s) ∧
    ((s.link n).link = .attested → c.2.2 = 2 → (s.link n).job ≠ .keyed → exec (c.1 lane f) s = .next s)) ∧
  (∀ c ∈ linkFrames, ∀ (s : State) (lane n : Nat) (f : GwFrame), AtLink s lane n → (s.link n).rxq = [] →
    classIn (s.link n) c.2.1 c.2.2 = true → (s.link n).genLinkRx = (s.link n).genLink →
    (openFrame (s.link n) c.2.1 f c.2.2 = .ctrFail → exec (c.1 lane f) s = .next (closeLink (s.setLink n
      { s.link n with err := (s.link n).err ||| 4, lastCause := 0x06 }) n)) ∧
    (openFrame (s.link n) c.2.1 f c.2.2 = .tagFail → exec (c.1 lane f) s = .next (closeLink (s.setLink n
      { gwCount (s.link n) 2 with err := (s.link n).err ||| 2, lastCause := 0x02 }) n)) ∧
    (openFrame (s.link n) c.2.1 f c.2.2 = .discard → exec (c.1 lane f) s = .next s)) ∧
  (∀ (x : GwLink) (kind : Byte) (f : GwFrame), f.ctrLo ≠ BitVec.ofNat 32 (ctr x 1) → openFrame x kind f 2 = .ctrFail) ∧
  (∀ (x : GwLink) (kind : Byte) (f : GwFrame), f.flags.getLsbD 3 ≠ decide (x.genLinkRx % 2 = 1) → openFrame x kind f 1 = .ctrFail) ∧
  (∀ (s : State) (lane n : Nat) (f : GwFrame), AtLink s lane n → (s.link n).rxq = [] → kindClass f.kind = none →
    (s.link n).link = .opening ∨ (s.link n).link = .attested → exec (.reservedKindFrame lane f) s =
      .next (s.setLink n { gwCount (s.link n) 5 with err := (s.link n).err ||| 16 })) ∧
  (∀ c ∈ linkFrames, ∀ (s : State) (lane n : Nat) (f : GwFrame) (p : Bytes), Arrives s lane n c.2.1 c.2.2 f p →
    (pilotUp s = false → c.2.1 ≠ 0x01 → c.2.1 ≠ 0x10 → (c.2.2 = 0 → (s.link n).link = .opening) → exec (c.1 lane f) s =
      .next (s.setLink n { tookFrame (s.link n) c.2.2 with rxq := [(c.2.1, f.flags.getLsbD 4, p)] })) ∧
    (pilotUp s = true → f.flags.getLsbD 4 = true → c.2.1 ≠ 0x01 → c.2.1 ≠ 0x10 → (c.2.2 = 0 → (s.link n).link = .opening) →
      exec (c.1 lane f) s = .next (s.setLink n { tookFrame (s.link n) c.2.2 with
        rxq := [], parts := tset (s.link n).parts c.2.1.toNat (tget [] (s.link n).parts c.2.1.toNat ++ p) })) ∧
    (c.2.2 = 0 → (s.link n).link = .attested → exec (c.1 lane f) s = .next (closeLink (s.setLink n (gwCount (s.link n) 1)) n))) ∧
  (∀ (s : State) (lane n : Nat) (f : GwFrame) (p : Bytes), Arrives s lane n 0x10 1 f p →
    exec (.keepalive lane f) s = .next (s.setLink n (tookFrame (s.link n) 1))) ∧
  (∀ (s : State) (lane n : Nat) (f : GwFrame) (p : Bytes), Arrives s lane n 0x01 2 f p →
    (f.flags.toNat % 8 < (s.link n).chCount → exec (.payload lane f) s = .next (assertRequest
      (modFerry (s.setLink n { tookFrame (s.link n) 2 with
        bundles := (s.link n).bundles ++ [{ ch := (s.link n).chBase + f.flags.toNat % 8, data := p, order := s.ferry.bundleNo }] })
          (fun y => { y with bundleNo := y.bundleNo + 1 })) (.gangway (linkLane s n - 154)))) ∧
    (¬f.flags.toNat % 8 < (s.link n).chCount → exec (.payload lane f) s = .next (s.setLink n { tookFrame (s.link n) 2 with
      err := (s.link n).err ||| 32, lastCause := 0x03 })))

/-- A whole message of a KIND reaches running Pilot firmware in a frame of its own. -/
def Reads (s : State) (lane n : Nat) (kind : Byte) (cls : Nat) (f : GwFrame) (p : Bytes) : Prop :=
  Arrives s lane n kind cls f p ∧ pilotUp s = true ∧ f.flags.getLsbD 4 = false ∧ (s.link n).parts = [] ∧
  (cls = 0 → (s.link n).link = .opening)

/-- R378-R381, R388-R394, R399, R402-R404: what LINK_HELLO, LINK_KEX at the lower side, LINK_EVIDENCE, LINK_FIN, LINK_ERROR, JOB_ACCEPT that
retries, JOB_OFFER that is refused for a job in the way, the answer to a job rekey, DISCOVER, ECHO that is not the last, FORMED and ROUTE
for another package do with a whole message under the conditions each clause names -/
def Obligations.LinkMessages : Prop :=
  (∀ (s : State) (lane n : Nat) (f : GwFrame) (p : Bytes), Reads s lane n 0x20 0 f p → (s.link n).peerHello = [] →
    CompletesWith (exec (.linkHello lane f) s) (fun t => p.length = 1689 → slice p 4 16 ≠ selfId s → (byteAt p 0).getLsbD 0 = true →
      linkVersions s = 1 → idLess (slice p 4 16) (selfId s) = false →
      t = s.setLink n { tookFrame (s.link n) 0 with peerHello := p, peerLink := byteAt p 20 })) ∧
  (∀ (s : State) (lane n : Nat) (f : GwFrame) (p : Bytes), Reads s lane n 0x20 0 f p → (s.link n).peerHello = [] → s.ferry.engs = [] →
    CompletesWith (exec (.linkHello lane f) s) (fun t => p.length = 1689 →
      slice p 4 16 = selfId s ∨ (byteAt p 0).getLsbD 0 = false ∨ linkVersions s = 0 → (t.link n).link = .closed)) ∧
  (∀ (s : State) (lane n : Nat) (f : GwFrame) (p : Bytes), Reads s lane n 0x21 0 f p → (s.link n).peerHello ≠ [] →
    sideHigher s n = false → (s.link n).sid = [] → (s.slot (16 + n)).valid = true → slotSound s (16 + n) = true →
    CompletesWith (exec (.linkKex lane f) s) (fun t => p.length = 1572 → allZero (linkSeed (s.slot (16 + n)).material) = false →
      (t.link n).link = .opening ∧ (t.link n).refill = true ∧ (t.link n).sid = (linkCtx t (16 + n)).sid)) ∧
  (∀ (s : State) (lane n : Nat) (f : GwFrame) (p : Bytes), Reads s lane n 0x22 0 f p → (s.link n).evidence = false →
    (s.link n).finGot = false → CompletesWith (exec (.linkEvidence lane f) s) (fun t =>
      match parseEvidence p with
      | none => s.ferry.engs = [] → (t.link n).link = .closed
      | some e => if evidenceCheck (s.setLink n (tookFrame (s.link n) 0)) n e = 0 then
            (t.link n).evidence = true ∧ (t.link n).finSent = true ∧ (t.link n).link = .opening
          else s.ferry.engs = [] → (t.link n).link = .closed)) ∧
  (∀ (s : State) (lane n : Nat) (f : GwFrame) (p : Bytes), Reads s lane n 0x23 1 f p → (s.link n).link = .opening →
    (s.link n).finSent = false → CompletesWith (exec (.linkFin lane f) s) (fun t =>
      (p = (s.link n).sid → t = s.setLink n { tookFrame (s.link n) 1 with finGot := true }) ∧
      (p ≠ (s.link n).sid → s.ferry.engs = [] → (t.link n).link = .closed))) ∧
  (∀ (s : State) (lane n : Nat) (f : GwFrame) (p : Bytes), Reads s lane n 0x24 0 f p → s.ferry.engs = [] →
    CompletesWith (exec (.linkError lane f) s) (fun t => (t.link n).link = .closed ∧ (t.slot (16 + n)).valid = false ∧
      ((s.link n).sid ≠ [] → t.crossing = s.crossing ∧ t.jrn = s.jrn))) ∧
  (∀ (s : State) (lane n b g : Nat) (f : GwFrame) (p : Bytes) (j : Job), Reads s lane n 0x13 1 f p → (s.link n).link = .attested →
    (s.link n).jobBerth = some b → openJob (s.bp b) = some j → sideHigher s n = false → (s.link n).job = .agreeing →
    (s.link n).jobId = [] → (s.link n).offerRetry = false → (s.link n).offers = g → CompletesWith (exec (.jobAccept lane f) s) (fun t =>
      p.length = 1588 → slice p 0 16 = padTo 16 j.jobId → byteAt p 18 = 1 →
      (g ≤ 50 → t = s.setLink n { tookFrame (s.link n) 1 with offerRetry := true }) ∧
      (50 < g → (t.link n).job = .none ∧ ∃ j', openJob (t.bp b) = some j' ∧ n ∈ j'.unavailable))) ∧
  (∀ (s : State) (lane n : Nat) (f : GwFrame) (p : Bytes), Reads s lane n 0x12 1 f p → (s.link n).link = .attested →
    sideHigher s n = true → (s.link n).job ≠ .none → CompletesWith (exec (.jobOffer lane f) s) (fun t => p.length = 1685 →
      ∃ b : Nat, t = sendMessage (s.setLink n { tookFrame (s.link n) 1 with parts := [] }) n 0x13
        (slice p 0 16 ++ toLe 2 b ++ [0x03, 0] ++ zeros 1568))) ∧
  (∀ (s : State) (lane n : Nat) (f : GwFrame) (p : Bytes), Reads s lane n 0x11 1 f p → (s.link n).link = .attested →
    (s.link n).job = .keyed → (s.link n).genTx = (s.link n).genRx + 1 → (s.slot (16 + n)).valid = true →
    slotSound s (16 + n) = true → CompletesWith (exec (.rekey lane f) s) (fun t => byteAt p 0 = 1 →
      leAt p 4 4 = (s.link n).genRx + 1 → (t.link n).genRx = (s.link n).genTx ∧ (t.link n).genTx = (s.link n).genTx ∧
      (t.link n).refill = true ∧ (linkCtx t (16 + n)).gen = (linkCtx s (16 + n)).gen + 1)) ∧
  (∀ (s : State) (lane n : Nat) (f : GwFrame) (p : Bytes), Reads s lane n 0x18 1 f p → (s.link n).link = .attested →
    (∀ k, k < 48 → k ≠ n → (s.link k).link ≠ .attested) → s.press.berths = [] → CompletesWith (exec (.discover lane f) s) (fun t =>
      p.length = 20 →
      (beats (leAt p 0 4) (slice p 4 16) s.crossing = true → t.crossing.epoch = leAt p 0 4 ∧
        t.crossing.candidate = some (slice p 4 16) ∧ t.crossing.parent = some n ∧ t.crossing.forming = true ∧
        t.crossing.children = [] ∧ t.crossing.members = s.crossing.members) ∧
      (beats (leAt p 0 4) (slice p 4 16) s.crossing = false → t.crossing = s.crossing))) ∧
  (∀ (s : State) (lane n : Nat) (f : GwFrame) (p : Bytes), Reads s lane n 0x19 1 f p → s.crossing.forming = true →
    s.crossing.awaiting.contains n = true → (s.crossing.awaiting.filter (· != n)) ≠ [] → s.press.berths = [] →
    CompletesWith (exec (.echo lane f) s) (fun t => p.length = 22 + 16 * leAt p 20 2 → leAt p 0 4 = s.crossing.epoch →
      s.crossing.candidate = some (slice p 4 16) → t.crossing = { s.crossing with
        awaiting := s.crossing.awaiting.filter (· != n)
        children := if leAt p 20 2 = 0 then s.crossing.children else tset s.crossing.children n (idsAt p 22 (leAt p 20 2)) })) ∧
  (∀ (s : State) (lane n : Nat) (f : GwFrame) (p : Bytes), Reads s lane n 0x1A 1 f p → s.crossing.forming = true →
    s.crossing.parent = some n → s.crossing.held = [] → s.crossing.children = [] → s.press.berths = [] →
    CompletesWith (exec (.formed lane f) s) (fun t => p.length = 22 + 16 * leAt p 20 2 → leAt p 0 4 = s.crossing.epoch →
      s.crossing.candidate = some (slice p 4 16) → t.crossing.forming = false ∧
      ((idsAt p 22 (leAt p 20 2)).contains (selfId s) = true → t.crossing.members = idsAt p 22 (leAt p 20 2) ∧
        t.crossing.coordinator = some (slice p 4 16)) ∧
      ((idsAt p 22 (leAt p 20 2)).contains (selfId s) = false → t.crossing.members = [] ∧ t.crossing.coordinator = none))) ∧
  (∀ (s : State) (lane n : Nat) (f : GwFrame) (p : Bytes), Reads s lane n 0x1B 1 f p → s.crossing.forming = false →
    CompletesWith (exec (.route lane f) s) (fun t => p.length = 38 + leAt p 36 2 → slice p 0 16 ≠ allMembers → slice p 0 16 ≠ selfId s →
      (leAt p 32 2 = 0 ∨ s.crossing.members.contains (slice p 0 16) = false → t = s.setLink n { tookFrame (s.link n) 1 with parts := [] }) ∧
      (∀ l, leAt p 32 2 ≠ 0 → s.crossing.members.contains (slice p 0 16) = true → routeLink s.crossing (slice p 0 16) = some l →
        t = sendMessage (s.setLink n { tookFrame (s.link n) 1 with parts := [] }) l 0x1B
          (routeBody (slice p 0 16) (slice p 16 16) (leAt p 32 2 - 1) (byteAt p 34) (p.drop 38)))))

/-- A Gangway lane in service covers link n of the 48, and Ferry moves nothing. -/
def LinkUp (s : State) (lane n : Nat) : Prop := accepts s = true ∧ laneLink s lane = some n ∧ n < 48 ∧ s.ferry.engs = []

/-- R378, R381-R383, R388, R393, R394, R405: a link that trains, or whose time to open again comes, opens; the loss of the link layer,
CLOSE, silence and withheld credit close it; the last attested link's closing forms a set of this package alone; LINK_HELLO that does not
come; KEEPALIVE when it is due; signing the batch of evidence; the next JOB_OFFER; a rekey that falls due while Pilot is down; PARK of a
serving lane and of an idle spare; COMMIT.GO; GW_CF_TX's refusals and a KEEPALIVE of its own; GW_CF_RX freed -/
def Obligations.LinkEvents : Prop :=
  (∀ (s : State) (lane n : Nat), LinkUp s lane n → laneServes s (linkLane s n) = true → pilotUp s = true → s.pilot.ready = true → (s.link n).dead = false →
    (s.link n).park = false → (s.link n).link = .down ∨ (s.link n).link = .closed → slotFree s (16 + n) = true → s.vault.drbgOk = true →
    CompletesWith (exec (.linkTrainedEvent lane) s) (fun t => (t.link n).trained = true ∧ (t.link n).link = .opening ∧
      (t.link n).refill = true ∧ (t.slot (16 + n)).valid = true)) ∧
  (∀ (s : State) (lane n : Nat), LinkUp s lane n → laneServes s (linkLane s n) = true → pilotUp s = true → s.pilot.ready = true → (s.link n).dead = false →
    (s.link n).park = false → (s.link n).trained = true → (s.link n).link = .closed → slotFree s (16 + n) = true →
    s.vault.drbgOk = true → CompletesWith (exec (.linkReopenTimer lane) s) (fun t => (t.link n).link = .opening ∧
      (t.link n).refill = true ∧ (t.slot (16 + n)).valid = true)) ∧
  (∀ (s : State) (lane n : Nat), LinkUp s lane n → (s.link n).link = .attested → pilotUp s = false →
    (CompletesWith (exec (.linkLayerDown lane) s) (fun t => (t.link n).link = .closed ∧ (t.link n).job = .none ∧
      (t.link n).key = none ∧ (t.link n).trained = false ∧ t.crossing = s.crossing)) ∧
    (commanded s = true → CompletesWith (exec (.close lane) s) (fun t => (t.link n).link = .closed ∧ (t.link n).job = .none ∧
      (t.link n).key = none ∧ (t.link n).trained = (s.link n).trained ∧ t.crossing = s.crossing)) ∧
    (withholds (s.link n) = false → CompletesWith (exec (.linkSilenceTimeout lane) s) (fun t => (t.link n).link = .closed ∧
      (t.link n).err.getLsbD 3 = true)) ∧
    (withholds (s.link n) = true → exec (.linkSilenceTimeout lane) s = .next s ∧
      CompletesWith (exec (.creditWithholdTimeout lane) s) (fun t => (t.link n).link = .closed ∧ (t.link n).err.getLsbD 3 = true))) ∧
  (∀ (s : State) (lane n : Nat), LinkUp s lane n → (s.link n).link = .attested → pilotUp s = true →
    (∀ k, k < 48 → k ≠ n → (s.link k).link ≠ .attested) → s.press.berths = [] → s.crossing.held = [] →
    CompletesWith (exec (.close lane) s) (fun t => (t.link n).link = .closed ∧ (t.slot (16 + n)).valid = false ∧
      t.crossing.epoch = s.crossing.epoch + 1 ∧ t.crossing.members = [selfId s] ∧ t.crossing.coordinator = some (selfId s))) ∧
  (∀ (s : State) (lane n : Nat), LinkUp s lane n → (s.link n).link = .opening → (s.link n).peerHello = [] →
    CompletesWith (exec (.linkHelloTimeout lane) s) (fun t => (t.link n).link = .closed ∧ t.crossing = s.crossing)) ∧
  (∀ (s : State) (lane n : Nat), LinkUp s lane n → (s.link n).link = .attested →
    ((s.link n).refill = false → exec (.keepaliveTimer lane) s = .next (sendMessage s n 0x10 [])) ∧
    ((s.link n).refill = true → exec (.keepaliveTimer lane) s = .next s)) ∧
  (∀ s : State, pilotUp s = true → batchLinks s ≠ [] → touchSlot s 4 = s → slotServes s 4 6 = true →
    CompletesWith (exec .evidenceBatchTimer s) (fun t =>
    (∀ n ∈ batchLinks s, (t.link n).signed = true) ∧ t.pilot.drawn = s.pilot.drawn + 1)) ∧
  (∀ (s : State) (lane n b : Nat) (j : Job), LinkUp s lane n → pilotUp s = true → (s.link n).offerRetry = true →
    (s.link n).jobBerth = some b → openJob (s.bp b) = some j → (s.slot (16 + n)).valid = true → slotSound s (16 + n) = true →
    s.vault.drbgOk = true → CompletesWith (exec (.jobOfferRetry lane) s) (fun t => (t.link n).job = .agreeing ∧
      (t.link n).offers = (s.link n).offers + 1 ∧ (t.link n).offerRetry = false ∧ (t.link n).refill = true)) ∧
  (∀ (s : State) (lane n : Nat), LinkUp s lane n → (s.link n).link = .attested → pilotUp s = false →
    (rekeyDue (s.link n) 1 = true → exec (.rekeyThreshold lane false) s = .next (s.setLink n { s.link n with pendLink := true })) ∧
    (rekeyDue (s.link n) 2 = true → (s.link n).job = .keyed → exec (.rekeyThreshold lane true) s =
      .next (s.setLink n { s.link n with pendJob := true }))) ∧
  (∀ (s : State) (lane h : Nat), commanded s = true → lane < 52 → homeOf s (154 + lane) = some h → servedBy s h = 154 + lane → pilotUp s = false →
    s.ferry.engs = [] → CompletesWith (exec (.gwPark lane true) s) (fun t => (t.link (h - 154)).park = true ∧ (t.link (h - 154)).link ≠ .attested ∧
      (t.link (h - 154)).link ≠ .opening ∧ (t.island (.gangway lane)).parked = true)) ∧
  (∀ (s : State) (lane : Nat), commanded s = true → 48 ≤ lane → lane < 52 → homeOf s (154 + lane) = none →
    CompletesWith (exec (.gwPark lane true) s) (fun t => (t.link lane).park = true ∧ (t.island (.gangway lane)).parked = true ∧
      (∀ n, n < 48 → t.link n = s.link n) ∧ { t with links := s.links, isl := s.isl } = s)) ∧
  (∀ (s : State) (n : Nat) (seq : BitVec 16), commanded s = true → n < 52 → holdsKeys s (154 + n) = true →
    exec (.gwCommitGo (.lane n) seq) s = .next { s with lanes := { s.lanes with
      cmds := tset s.lanes.cmds (154 + n) (tget [] s.lanes.cmds (154 + n) ++ [.commit seq]) } }) ∧
  (∀ (s : State) (lane n : Nat), commanded s = true → lane < 52 → laneRegs s lane = n →
    (kindClass (s.link n).cfKind = none ∨ (s.link n).cfKind = 0x01 → exec (.gwCfSend lane) s = .next (s.setLink n
      { gwCount (s.link n) 4 with err := (s.link n).err ||| 1, lastCause := 0x04 })) ∧
    ((s.link n).cfKind = 0x20 → laneUp s (154 + lane) = false → exec (.gwCfSend lane) s = .next (s.setLink n
      { gwCount (s.link n) 4 with err := (s.link n).err ||| 1, lastCause := 0x05 })) ∧
    ((s.link n).cfKind = 0x10 → (s.link n).cfLen.toNat ≤ 1024 → (s.link n).link = .attested → laneUp s (154 + lane) = true → exec (.gwCfSend lane) s =
      .next (sendFrame s n { kind := 0x10, stream := 0, more := (s.link n).cfMore, body := mread 0 (s.link n).cfTx 0 (s.link n).cfLen.toNat }))) ∧
  (∀ (s : State) (lane n : Nat) (e : Byte × Bool × Bytes) (rest : List (Byte × Bool × Bytes)), LinkUp s lane n → commanded s = true → pilotUp s = false →
    (s.link n).rxq = e :: rest → (s.link n).heldRx = [] →
    exec (.gwCfRxFree lane) s = .next (s.setLink n { s.link n with rxq := rest }))

/-- R373, R375: a KEEPALIVE that can be sent leaves with its class's counter as its low 32 bits and as the IV, under the link's key, and the
counter rises by one; a frame of the link or job class during a refill is held -/
def Obligations.SentFrames : Prop :=
  (∀ (s : State) (lane n : Nat) (k : Bytes), LinkUp s lane n → (s.link n).link = .attested → (s.link n).refill = false →
    laneServes s (linkLane s n) = true → gwKey (s.link n) 1 false = some k → gwRoom (s.link n) 1 = true → (s.link n).moveDue = false →
    CompletesWith (exec (.keepaliveTimer lane) s) (fun t => ∃ (c : Nat) (fl : Byte), c = ctr (s.link n) 2 ∧
      fl.getLsbD 3 = decide ((s.link n).genLinkTx % 2 = 1) ∧ fl.getLsbD 4 = false ∧ ctr (t.link n) 2 = c + 1 ∧
      t.out = .gangway n (GwFrame.mk 0x10 fl (BitVec.ofNat 32 c) []
        (gcmTag k (zeros 4 ++ toBe 8 c) ([0x10, fl, 0, 0] ++ toLe 4 (c % 2 ^ 32)) [])) :: s.out ∧
      { t with links := s.links, out := s.out } = s)) ∧
  (∀ (s : State) (n : Nat) (o : OutFrame), kindClass o.kind = some 1 ∨ kindClass o.kind = some 2 → (s.link n).refill = true →
    sendFrame s n o = s.setLink n { s.link n with heldTx := (s.link n).heldTx ++ [o] })


/-! ### Jobs, Press, Line hold and Pair (12, 13) -/

/-- The commands of Press, Line hold and Pair that a VF sends, with their codes (R487). -/
def vfCommands : List ((Nat → Bytes → Instr) × Byte) :=
  [(.jobOpen, 0x60), (.jobClose, 0x61), (.holdQuery, 0x62), (.jobPeers, 0x63), (.pairPoint, 0x64), (.pairStatus, 0x65)]

/-- A VF command finds firmware ready and its berth in a state. -/
def VfAsks (s : State) (b : Nat) (st : BerthState) : Prop :=
  pilotUp s = true ∧ Quiet s ∧ vfExists s b = true ∧ s.pilot.ready = true ∧ (s.berth b).state = st

/-- R411-R416, R472-R474, R487, R533: the six VF commands answer 0x06, 0x04 and 0x02 before they are looked at; JOB_OPEN answers 0x26, 0x20
and 0x22 where its body, the berth or the arrays forbid it, 0x20 and 0x29 where the vault refuses the fresh seed and 0x21 with no ring left,
and otherwise draws the seed, opens the page and makes the berth RUNNING with D_EFF; JOB_CLOSE empties the ring and waits, and
JOB_CLOSE_COMPLETE of a single-package job gives back the ring and answers; JOB_PEERS stages one member -/
def Obligations.Jobs : Prop :=
  (∀ c ∈ vfCommands, ∀ (s : State) (b : Nat) (m : Bytes), pilotUp s = true → Quiet s → vfExists s b = true →
    (s.pilot.ready = false → exec (c.1 b m) s = .next (replyMs s (.vf b) c.2 0x06 [])) ∧
    (s.pilot.ready = true → (s.berth b).state = .free → exec (c.1 b m) s = .next (replyMs s (.vf b) c.2 0x04 [])) ∧
    (s.pilot.ready = true → (s.berth b).state = .rinsing → exec (c.1 b m) s = .next (replyMs s (.vf b) c.2 0x02 []))) ∧
  (∀ (s : State) (b : Nat) (m : Bytes), VfAsks s b .assigned → (s.berth b).commit = none → jobMalformed m = true →
    exec (.jobOpen b m) s = .next (reply s (.vf b) 0x60 [0x26, 0, 0, 0, 0, 0, 0, 0])) ∧
  (∀ (s : State) (b : Nat) (m : Bytes), VfAsks s b .running → exec (.jobOpen b m) s =
    .next (reply s (.vf b) 0x60 [0x20, 0, 0, 0, 0, 0, 0, 0])) ∧
  (∀ (s : State) (b : Nat) (m : Bytes), VfAsks s b .assigned → (s.berth b).commit = none → jobMalformed m = false → arraysIn s = 0 →
    exec (.jobOpen b m) s = .next (reply s (.vf b) 0x60 [0x22, 0, 0, 0, 0, 0, 0, 0])) ∧
  (∀ (s : State) (b : Nat) (m : Bytes), VfAsks s b .assigned → jobCheck s b m = 0 → (s.record b).opened = true →
    (s.record b).unusable = false → s.vault.drbgOk = true → ringsHeld s < 64 →
    CompletesWith (exec (.jobOpen b m) s) (fun t => (t.berth b).state = .running ∧ (t.bp b).ringHeld = true ∧
      (∃ j, (t.bp b).job = some j ∧ j.isOpen = true ∧ j.fixed = (leAt m 0 1 == 1) ∧ j.version = 1 ∧ j.floor = leAt m 8 4 ∧
        j.dEff = (if leAt m 8 4 = 0 then leAt m 4 2 else min (leAt m 4 2) (max 1 (leAt m 12 4 / leAt m 8 4)))) ∧
      (t.bp b).ring = [] ∧ (t.bp b).accepted = 0 ∧ (t.bp b).err = 0 ∧ (t.bp b).flags = 0 ∧ (t.bp b).sealed = (s.bp b).sealed ∧
      (t.record b).pressSeed = some (drawBytes s 48) ∧ (t.record b).epoch = (s.record b).epoch + 2 ∧
      (∀ c, c ≠ b → t.berth c = s.berth c ∧ t.bp c = s.bp c))) ∧
  (∀ (s : State) (b : Nat) (m : Bytes), VfAsks s b .assigned → jobCheck s b m = 0 → (s.record b).opened = false →
    exec (.jobOpen b m) s = .next (reply s (.vf b) 0x60 [0x20, 0, 0, 0, 0, 0, 0, 0])) ∧
  (∀ (s : State) (b : Nat) (m : Bytes), VfAsks s b .assigned → jobCheck s b m = 0 → (s.record b).opened = true →
    (s.record b).unusable = false → s.vault.drbgOk = false →
    CompletesWith (exec (.jobOpen b m) s) (fun t => (t.berth b).state = .assigned ∧ t.pilot = s.pilot ∧
      (t.record b).pressSeed = none ∧ (t.record b).epoch = (s.record b).epoch + 1 ∧
      (∃ s', t = reply s' (.vf b) 0x60 [0x29, 0, 0, 0, 0, 0, 0, 0]))) ∧
  (∀ (s : State) (b : Nat) (m : Bytes), VfAsks s b .assigned → jobCheck s b m = 0 → (s.record b).opened = true →
    (s.record b).unusable = false → s.vault.drbgOk = true → 64 ≤ ringsHeld s →
    CompletesWith (exec (.jobOpen b m) s) (fun t => (t.berth b).state = .assigned ∧ (t.bp b).ringHeld = (s.bp b).ringHeld ∧
      (t.record b).pressSeed = some (drawBytes s 48) ∧ (∃ s', t = reply s' (.vf b) 0x60 [0x21, 0, 0, 0, 0, 0, 0, 0]))) ∧
  (∀ (s : State) (b : Nat) (j : Job), VfAsks s b .running → openJob (s.bp b) = some j → j.closing = false → (s.bp b).armed = [] →
    (s.bp b).points = [] → CompletesWith (exec (.jobClose b []) s) (fun t => (t.bp b).job = some { j with closing := true, answer := true } ∧
      (t.bp b).ring = [] ∧ (t.bp b).head = none ∧ (t.berth b).state = .running ∧ t.out = s.out ∧
      (∀ c, c ≠ b → t.bp c = s.bp c) ∧ { t with press := s.press } = s)) ∧
  (∀ (s : State) (b : Nat) (m : Bytes), VfAsks s b .assigned → openJob (s.bp b) = none →
    exec (.jobClose b m) s = .next (reply s (.vf b) 0x61 [0x20])) ∧
  (∀ (s : State) (b : Nat) (j : Job), pilotUp s = true → Quiet s → (s.berth b).state = .running → (s.bp b).job = some j →
    j.isOpen = true → j.closing = true → j.answer = true → j.members = [] → (s.bp b).armed = [] → (s.bp b).outbox = [] → (s.bp b).unread = [] →
    (s.bp b).points = [] → (s.berth b).sites = 0 → CompletesWith (exec (.jobCloseComplete b) s) (fun t => (t.berth b).state = .assigned ∧
      openJob (t.bp b) = none ∧ (t.bp b).ringHeld = false ∧ (t.bp b).ring = [] ∧ (t.bp b).reserved = 0 ∧
      (∃ r, t.out = .reply (.vf b) 0x61 0 [0] :: r))) ∧
  (∀ (s : State) (b : Nat) (m : Bytes), VfAsks s b .assigned → m.length = 22 → leAt m 2 1 = 1 → leAt m 3 1 = 0 → leAt m 0 2 < 1024 →
    leAt m 20 2 < 1024 → exec (.jobPeers b m) s = .next (reply (s.setBp b { s.bp b with
      peers := tset (s.bp b).peers (leAt m 0 2) (slice m 4 16, leAt m 20 2) }) (.vf b) 0x63 [0])) ∧
  (∀ (s : State) (b : Nat) (m : Bytes), VfAsks s b .running → exec (.jobPeers b m) s = .next (reply s (.vf b) 0x63 [0x30]))

/-- R331, R417, R418, R421, R438-R440, R449, R452, R464: a declaration written to the port or sent by a site that serves a RUNNING berth
joins the ring, and one that the port, the job or a full ring refuses sets its bit; the head is accepted or rejected with its code; it waits
behind earlier heads and for what its own berth owes it, asks the vault for the seed it lacks, and is otherwise armed with the sample, areas
and ranges that the Piers take, or waits for a pin or for room; a write of PRESS_VERDICT_CONS inside the window takes effect and one outside
sets PORT; a commit of regions takes the staged ones that have a size. A berth that is RINSING takes none of these writes -/
def Obligations.PressRing : Prop :=
  (∀ (s : State) (b : Nat) (d : Bytes) (j : Job), Quiet s → HostOpen s → vfExists s b = true → (s.fn (.vf b)).mse = true → d.length = 64 → openJob (s.bp b) = some j →
    j.closing = false → (s.berth b).state = .running → (s.bp b).ring.length < 256 → exec (.pressDeclPort b 0x2040 d) s =
      .next (s.setBp b { s.bp b with ring := (s.bp b).ring ++ [d], accepted := (s.bp b).accepted + 1 })) ∧
  (∀ (s : State) (b o : Nat) (d : Bytes), Quiet s → HostOpen s → vfExists s b = true → (s.fn (.vf b)).mse = true → (s.berth b).state ≠ .rinsing → o ≠ 0x2040 ∨ d.length ≠ 64 ∨ openJob (s.bp b) = none →
    CompletesWith (exec (.pressDeclPort b o d) s) (fun t => (t.bp b).err = (s.bp b).err ||| 1 ∧ (t.bp b).ring = (s.bp b).ring ∧
      (t.bp b).accepted = (s.bp b).accepted)) ∧
  (∀ (s : State) (b : Nat) (d : Bytes) (j : Job), Quiet s → HostOpen s → vfExists s b = true → (s.fn (.vf b)).mse = true → d.length = 64 → openJob (s.bp b) = some j →
    j.closing = false → (s.berth b).state = .running → 256 ≤ (s.bp b).ring.length →
    CompletesWith (exec (.pressDeclPort b 0x2040 d) s) (fun t => (t.bp b).err = (s.bp b).err ||| 2 ∧ (t.bp b).ring = (s.bp b).ring)) ∧
  (∀ (s : State) (k b : Nat) (d : Bytes) (j : Job), Quiet s → k < 12 → siteBerth s k = some b → d.length = 64 →
    openJob (s.bp b) = some j → j.closing = false → (s.berth b).state = .running → (s.bp b).ring.length < 256 →
    CompletesWith (exec (.declare k d) s) (fun t => Sent s t (.declStatus k ((s.bp b).accepted + 1) (s.bp b).acked) ∧
      { t with out := s.out } = s.setBp b { s.bp b with ring := (s.bp b).ring ++ [d], accepted := (s.bp b).accepted + 1 })) ∧
  (∀ (s : State) (k : Nat) (d : Bytes), Quiet s → k < 12 → siteBerth s k = none → CompletesWith (exec (.declare k d) s) (fun t =>
    t.press = s.press ∧ (∃ a c, Sent s t (.declStatus k a c)))) ∧
  (∀ (s : State) (b : Nat) (d : Bytes) (rest : List Bytes) (j : Job), Quiet s → (s.bp b).ring = d :: rest →
    openJob (s.bp b) = some j → (s.bp b).head = none → j.closing = false → (s.berth b).state ≠ .rinsing → (s.bp b).points = [] →
    (s.bp b).entries = [] → (s.bp b).exports = [] →
    (s.bp b).segments = [] → s.ferry.engs = [] → (s.berth b).ferryCount = 0 →
    CompletesWith (exec (.declHeadCheck b) s) (fun t =>
      if declCheck s b (s.bp b) j (s.bp b).regions d = 0 then
        (t.bp b).head = some (s.bp b).regions ∧ (t.bp b).ring = d :: rest ∧ (t.bp b).lastDecl = declId d ∧
        (t.bp b).lastSeg = declSegment d ∧ t.press.waiting = s.press.waiting ++ [b] ∧ (t.bp b).acked = (s.bp b).acked
      else
        (t.bp b).ring = rest ∧ (t.bp b).acked = (s.bp b).acked + 1 ∧ (t.bp b).lastReject = declCheck s b (s.bp b) j (s.bp b).regions d ∧
        (t.bp b).err.getLsbD 2 = true ∧ (t.bp b).entries.length = 1 ∧ (t.bp b).outbox = (s.bp b).outbox ++
          [verdictRecord d 5 0xFFFF 0xFFFF 0 0xFF 0xFF (declCheck s b (s.bp b) j (s.bp b).regions d).toNat])) ∧
  (∀ (s : State) (b : Nat) (j : Job) (slots : Tbl (Nat × Nat)) (d : Bytes), Quiet s → waitingHead s b = some (j, slots, d) →
    ownReady (s.bp b) j slots d = false ∨ s.press.waiting.head? ≠ some b →
    exec (.declArm b) s = .next s ∧ exec (.capturePinRetry b) s = .next s) ∧
  (∀ (s : State) (b : Nat) (j : Job) (slots : Tbl (Nat × Nat)) (d : Bytes), Quiet s → waitingHead s b = some (j, slots, d) →
    j.closing = false → ownReady (s.bp b) j slots d = true → s.press.waiting.head? = some b → samplerSeed s b = none →
    exec (.declArm b) s = .next (vaultMiss s (.press 0) b) ∧ exec (.capturePinRetry b) s = .next (vaultMiss s (.press 0) b)) ∧
  (∀ (s : State) (b : Nat) (j : Job) (slots : Tbl (Nat × Nat)) (d seed : Bytes) (i : Instr),
    i = .declArm b ∨ i = .capturePinRetry b → Quiet s → waitingHead s b = some (j, slots, d) → j.closing = false →
    ownReady (s.bp b) j slots d = true → s.press.waiting.head? = some b → samplerSeed s b = some (some seed) → exec i s = .next
      (match (declPlaces s b slots d).bind (fun pl =>
          placeAreas s b (declId d) (captureParts d pl (sampleTiles seed d (sampleCount d j.dEff)))) with
        | none => s
        | some rs => match loadPiers s b rs with
          | .done t w => armed t b j slots d (sampleTiles seed d (sampleCount d j.dEff)) rs w
          | .noPin => s
          | .noRoom => s)) ∧
  (∀ (s : State) (b : Nat) (v : Word), Quiet s → HostOpen s → vfExists s b = true → (s.fn (.vf b)).mse = true → (v - (s.bp b).cons).toNat ≤ ((s.bp b).prod - (s.bp b).cons).toNat →
    (s.bp b).ledger = [] → (s.bp b).outbox = [] → exec (.pressVerdictCons b v) s = .next (s.setBp b { s.bp b with cons := v })) ∧
  (∀ (s : State) (b : Nat) (v : Word), Quiet s → HostOpen s → vfExists s b = true → (s.fn (.vf b)).mse = true → ((s.bp b).prod - (s.bp b).cons).toNat < (v - (s.bp b).cons).toNat →
    CompletesWith (exec (.pressVerdictCons b v) s) (fun t => (t.bp b).cons = (s.bp b).cons ∧ (t.bp b).err = (s.bp b).err ||| 1)) ∧
  (∀ (s : State) (b : Nat), Quiet s → HostOpen s → vfExists s b = true → (s.fn (.vf b)).mse = true → (s.berth b).state ≠ .rinsing → exec (.pressRegionCommit b) s =
    .next (s.setBp b { s.bp b with regions := (s.bp b).regionsStaged.filter (fun r => r.2.2 != 0) })) ∧
  (∀ (s : State) (b o : Nat) (d : Bytes), Quiet s → HostOpen s → vfExists s b = true → (s.fn (.vf b)).mse = true → (s.berth b).state = .rinsing →
    exec (.pressDeclPort b o d) s = .next s ∧ exec (.pressRegionCommit b) s = .next s)

/-- A tile of a berth's declaration, alone in it and in the ready queue. -/
def OneTile (s : State) (b : Nat) (a : Armed) (u : Tile) (st : TileStage) : Prop :=
  Quiet s ∧ (s.bp b).armed = [a] ∧ a.tiles = [u] ∧ u.stage = st

/-- R438, R441-R447, R454, R461: a tile whose last range is done is ready, runs on an idle array in service once its operands are in the
Basket, and gets the record of the comparison when its feed and its result are there, which frees the array; it gets INCOMPLETE where its
operands do not come, LOST where a Pier lost a line of it and REWRITTEN where its result was written again; an array that faults leaves
service and its tile is the next to run; PARK of an idle array parks it, of a busy one waits, and 0 takes it back; Line hold applies a MATCH
to no entry and a MISMATCH to the entry it names -/
def Obligations.PressTiles : Prop :=
  (∀ (s : State) (n i : Nat) (r : CapRange), Quiet s → tfind (s.pier n).ranges i = some r → r.done = true →
    exec (.rangeDone n i) s = .next s) ∧
  (∀ (s : State) (n i b home : Nat) (r : CapRange) (a : Armed) (u : Tile), OneTile s b a u .capturing → homeOf s n = some home →
    tfind (s.pier n).ranges i = some r → r.done = false → rangeFull (s.pier n) home r = true → r.vf = b → r.declId = a.declId →
    u.operands = [(home, i)] → (s.bp b).segments = [] → s.press.ready = [] →
    CompletesWith (exec (.rangeDone n i) s) (fun t => t.press.ready = [(b, a.declId, u.ti, u.tj)] ∧
      tfind (t.pier n).ranges i = some { r with done := true })) ∧
  (∀ (s : State) (b : Nat) (a : Armed) (u : Tile), OneTile s b a u .capturing → u.result = [] → u.operands ≠ [] →
    CompletesWith (exec (.operandWaitTimeout b a.declId 0) s) (fun t => (t.bp b).armed = [] ∧
      (t.bp b).outbox = (s.bp b).outbox ++ [verdictRecord a.decl 2 u.ti u.tj 0 0xFF 0xFF 0])) ∧
  (∀ (s : State) (b : Nat) (a : Armed) (u : Tile), OneTile s b a u .capturing → u.result ≠ [] →
    exec (.operandWaitTimeout b a.declId 0) s = .next s) ∧
  (∀ (s : State) (n b : Nat) (a : Armed) (u : Tile), OneTile s b a u .ready → arrayUp s n = true → (s.array n).run = none →
    (s.array n).park = false → s.ferry.bursts.contains (.press n) = false → unwritten s b a.declId false = false →
    s.press.ready = [(b, a.declId, u.ti, u.tj)] → CompletesWith (exec (.tileDispatch n) s) (fun t =>
      (t.array n).run = some (b, a.declId, u.ti, u.tj) ∧ t.press.ready = [] ∧ t.ferry.requests.contains (.press n) = true ∧
      (t.array n).fmt = BitVec.ofNat 8 (declFmtA a.decl) ∧ (t.array n).fed = 0)) ∧
  (∀ (s : State) (n : Nat), Quiet s → arrayUp s n = false ∨ (s.array n).run.isSome = true ∨ s.press.ready = [] →
    exec (.tileDispatch n) s = .next s) ∧
  (∀ (s : State) (n b : Nat) (a : Armed) (u : Tile) (d : TileData), OneTile s b a u (.running n) →
    (s.array n).run = some (b, a.declId, u.ti, u.tj) → u.result = [] → (s.array n).park = false → unwritten s b a.declId true = false →
    fedAll s n u = true → CompletesWith (exec (.tileComplete n d) s) (fun t => (t.bp b).armed = [] ∧ (t.array n).run = none ∧
      (t.array n).clocks = (s.array n).clocks + tileClocks (declFmtA a.decl) (declFmtB a.decl) (declK a.decl) ∧
      (t.bp b).outbox = (s.bp b).outbox ++ [judgeTile a.decl d u.ti u.tj])) ∧
  (∀ (s : State) (n b : Nat) (id : DWord) (ti tj : Nat), Quiet s → n < 16 → (s.island (.press n)).service ≠ .failed →
    (s.array n).run = some (b, id, ti, tj) → s.press.ready = [] → CompletesWith (exec (.arrayFault n .residue) s) (fun t =>
      (t.array n).run = none ∧ t.press.ready = [(b, id, ti, tj)] ∧ (t.array n).err.getLsbD 0 = true ∧ t.press.test ≠ some n ∧
      (t.island (.press n)).service = .failed)) ∧
  (∀ (s : State) (n : Nat) (c : ArrayCause), Quiet s → n < 16 → (s.island (.press n)).service ≠ .failed →
    CompletesWith (exec (.arrayFault n c) s) (fun t => (t.island (.press n)).service = .failed ∧ (t.array n).run = none)) ∧
  (∀ (s : State) (n : Nat), commanded s = true → n < 16 → (s.array n).run = none → CompletesWith (exec (.pressPark n true) s) (fun t =>
    (t.array n).park = true ∧ (t.island (.press n)).parked = true)) ∧
  (∀ (s : State) (n : Nat), commanded s = true → n < 16 → (s.array n).run.isSome = true → CompletesWith (exec (.pressPark n true) s) (fun t =>
    (t.array n).park = true ∧ t.isl = s.isl ∧ (t.array n).run = (s.array n).run)) ∧
  (∀ (s : State) (n : Nat), commanded s = true → n < 16 → (s.island (.press n)).ucOk = true → (s.island (.press n)).test = .passed →
    s.power.domUp.getLsbD (domainOf (.press n)) = true → CompletesWith (exec (.pressPark n false) s) (fun t =>
      (t.array n).park = false ∧ (t.island (.press n)).parked = false)) ∧
  (∀ (s : State) (b : Nat) (r : Bytes) (rest : List Bytes), Quiet s → (s.bp b).unread = r :: rest → leAt r 0 1 = 0 →
    (s.bp b).entries = [] → (s.bp b).segments = [] → (s.berth b).ferryCount = 0 →
    CompletesWith (exec (.verdictApply b) s) (fun t => (t.bp b).unread = rest ∧ (t.bp b).entries = [])) ∧
  (∀ (s : State) (b : Nat) (r : Bytes) (rest : List Bytes) (e : HoldEntry), Quiet s → (s.bp b).unread = r :: rest → leAt r 0 1 = 1 →
    (s.bp b).entries = [e] → (s.bp b).segments = [] → segSettled (s.bp b) e.segment = false → (s.berth b).ferryCount = 0 → e.declId = BitVec.ofNat 64 (leAt r 4 8) → e.left = 1 →
    e.orphan = false → e.state = .damp → e.own = 0 → CompletesWith (exec (.verdictApply b) s) (fun t => (t.bp b).unread = rest ∧
      (t.bp b).entries = [{ e with own := 1, left := 0, state := .failed, cause := 1 }])) ∧
  (∀ (s : State) (n b : Nat) (a : Armed) (u : Tile) (r : TileRef), accepts s = true → (s.bp b).armed = [a] → a.tiles = [u] →
    u.stage = .capturing → (s.bp b).segments = [] → s.reports = { rewritten := [], lost := [r], pairBad := [] } → r.vf = b →
    r.declId = a.declId → r.result = false → u.parts.contains r.tag = true → arrayUp s n = false →
    CompletesWith (exec (.tileDispatch n) s) (fun t => (t.bp b).armed = [] ∧ t.reports.lost = [] ∧
      (t.bp b).outbox = (s.bp b).outbox ++ [verdictRecord a.decl 3 u.ti u.tj 0 0xFF 0xFF 0])) ∧
  (∀ (s : State) (n b : Nat) (a : Armed) (u : Tile) (r : TileRef), accepts s = true → (s.bp b).armed = [a] → a.tiles = [u] →
    u.stage = .capturing → (s.bp b).segments = [] → s.reports = { rewritten := [r], lost := [], pairBad := [] } → r.vf = b →
    r.declId = a.declId → r.result = true → r.tag = 0 → arrayUp s n = false →
    CompletesWith (exec (.tileDispatch n) s) (fun t => (t.bp b).armed = [] ∧ t.reports.rewritten = [] ∧
      (t.bp b).outbox = (s.bp b).outbox ++ [verdictRecord a.decl 4 u.ti u.tj 0 0xFF 0xFF 0]))

/-- R457, R463, R466-R468, R487, R488: the hold check of a waiting export gives GO and notes the range, or waits, or halts the channel with
0x07, by the answer of Line hold; a sealed berth and a FAILED entry in the range refuse, a DAMP one waits, and with no job, no entry and no
seal the answer is GO; HOLD_QUERY answers 0x37 with no job open or for a segment too old to be kept, 0x31 for a body of another length, and
otherwise the state of a segment it has met -/
def Obligations.LineHold : Prop :=
  (∀ (s : State) (c : Nat), accepts s = true → (s.ch c).state = .waiting → isExport (dOp (s.ch c).desc) = true → (s.ch c).hold ≠ some .go →
    (holdAnswer (s.bp (chBerth s c)) (srcSpan (s.ch c).desc).1 (srcSpan (s.ch c).desc).2 (exportLabel (s.ch c).desc) = .go →
      CompletesWith (exec (.holdCheck c) s) (fun t => (t.ch c).hold = some .go ∧
        (c, (srcSpan (s.ch c).desc).1, (srcSpan (s.ch c).desc).2 - (srcSpan (s.ch c).desc).1) ∈ (t.bp (chBerth s c)).exports)) ∧
    (holdAnswer (s.bp (chBerth s c)) (srcSpan (s.ch c).desc).1 (srcSpan (s.ch c).desc).2 (exportLabel (s.ch c).desc) = .wait →
      exec (.holdCheck c) s = .next (modCh s c (fun x => { x with hold := some .wait }))) ∧
    (holdAnswer (s.bp (chBerth s c)) (srcSpan (s.ch c).desc).1 (srcSpan (s.ch c).desc).2 (exportLabel (s.ch c).desc) = .refuse →
      exec (.holdCheck c) s = .next (haltCh s c 0x07))) ∧
  (∀ (x : BerthPress) (lo hi : Nat) (l : Option Nat), x.sealed = true → holdAnswer x lo hi l = .refuse) ∧
  (∀ (x : BerthPress) (lo hi : Nat) (l : Option Nat) (e : HoldEntry), e ∈ x.entries → e.state = .failed →
    overlaps (lo, hi - lo) (entryRange e) = true → holdAnswer x lo hi l = .refuse) ∧
  (∀ (x : BerthPress) (lo hi : Nat) (l : Option Nat) (e : HoldEntry), x.sealed = false →
    (∀ f ∈ x.entries, f.state ≠ .failed) → e ∈ x.entries → e.state = .damp → overlaps (lo, hi - lo) (entryRange e) = true →
    holdAnswer x lo hi l = .wait) ∧
  (∀ (x : BerthPress) (lo hi : Nat) (l : Option Nat), x.sealed = false → x.entries = [] → openJob x = none → holdAnswer x lo hi l = .go) ∧
  (∀ (s : State) (b : Nat) (m : Bytes), VfAsks s b .assigned → m.length = 4 → openJob (s.bp b) = none →
    exec (.holdQuery b m) s = .next (reply s (.vf b) 0x62 ([0x37, 0, if (s.bp b).sealed then 2 else 0] ++ zeros 29))) ∧
  (∀ (s : State) (b : Nat) (m : Bytes) (j : Job) (g : Segment), VfAsks s b .running → m.length = 4 → openJob (s.bp b) = some j →
    findSeg (s.bp b) (leAt m 0 4) = some g → tooOld (s.bp b) (leAt m 0 4) = false → CompletesWith (exec (.holdQuery b m) s) (fun t => ∃ r, t = reply s (.vf b) 0x62 r ∧
      r.take 2 = [0, match g.settled with
        | some true => 2
        | some false => 3
        | none => if g.closed then 1 else 0])) ∧
  (∀ (s : State) (b : Nat) (m : Bytes) (j : Job), VfAsks s b .running → m.length = 4 → openJob (s.bp b) = some j →
    segState (s.bp b) (leAt m 0 4) = .old →
    exec (.holdQuery b m) s = .next (reply s (.vf b) 0x62 ([0x37, 0, if (s.bp b).sealed then 2 else 0] ++ zeros 29))) ∧
  (∀ (s : State) (b : Nat) (m : Bytes), VfAsks s b .running → m.length ≠ 4 →
    exec (.holdQuery b m) s = .next (reply s (.vf b) 0x62 ([0x31, 0, if (s.bp b).sealed then 2 else 0] ++ zeros 29)))

/-- R475-R484, R404: PAIR_POINT answers 0x30, 0x31 or the code of its check, or 0x33, or stores an open point; PAIR_STATUS answers the
outcome of a point, and 0x32 with no job; the last cursor of a closed point makes its digest final and sends it, and JOB_CLOSE sends STATUS
0x04 for a point still open and leaves a closed one to its reads; the leader stores a digest of its class; a verdict of disagreement
suspends the berth; JOB_LEAVE of another member marks it gone; a message for no job does nothing; the leader votes when the digests are
late, and a verdict that does not come leaves the point LOST; two equal votes of three make a majority, and two members agree or disagree -/
def Obligations.Pair : Prop :=
  (∀ (s : State) (b : Nat) (m : Bytes), VfAsks s b .assigned → exec (.pairPoint b m) s = .next (reply s (.vf b) 0x64 [0x30])) ∧
  (∀ (s : State) (b : Nat) (m : Bytes), VfAsks s b .running → pointMalformed m = true →
    exec (.pairPoint b m) s = .next (reply s (.vf b) 0x64 [0x31])) ∧
  (∀ (s : State) (b : Nat) (m : Bytes), VfAsks s b .running → CompletesWith (exec (.pairPoint b m) s) (fun t =>
    if pointCheck s b m = 0 then
      t = reply s (.vf b) 0x64 [0x33] ∨ ∃ p, (t.bp b).points = (s.bp b).points ++ [p] ∧ p.point.toNat = leAt m 0 4 ∧
        p.closeDecl.toNat = leAt m 8 8 ∧ p.closed = false ∧ p.sent = none ∧ p.outcome = 0
    else t = reply s (.vf b) 0x64 [pointCheck s b m])) ∧
  (∀ (s : State) (b : Nat) (m : Bytes) (j : Job) (p : PairPoint), VfAsks s b .running → m.length = 4 → (s.bp b).job = some j →
    j.members ≠ [] → (s.bp b).points = [p] → p.point.toNat = leAt m 0 4 → CompletesWith (exec (.pairStatus b m) s) (fun t =>
      ∃ r, t = reply s (.vf b) 0x65 r ∧ r.take 4 = [0, p.outcome, p.role, 0])) ∧
  (∀ (s : State) (b : Nat) (m : Bytes), VfAsks s b .running → m.length = 4 → (s.bp b).job = none →
    exec (.pairStatus b m) s = .next (reply s (.vf b) 0x65 (0x32 :: zeros 11))) ∧
  (∀ (s : State) (n i b home : Nat) (x : BerthPress) (j : Job) (p : PairPoint), Quiet s → pilotUp s = true → homeOf s n = some home →
    s.press.berths = [(b, x)] → openJob x = some j → x.points = [p] → p.closed = true → p.cursors = [(home, i)] → p.sent = none →
    p.outcome = 0 → leaderOf s j ≠ selfId s → s.crossing.forming = true → tfind (s.pier n).cursors i = none →
    CompletesWith (exec (.pairCursorDone n i) s) (fun t => ∃ q, (t.bp b).points = [q] ∧ q.cursors = [] ∧
      q.sent = some (ownVote s b p p.status) ∧ q.point = p.point)) ∧
  (∀ (s : State) (m : Bytes) (b : Nat) (j : Job), pilotUp s = true → Quiet s → jobBerthOf s (slice m 0 16) = some b →
    openJob (s.bp b) = some j → (s.bp b).points = [] → (s.bp b).votes = [] → m.length = 40 + 32 * leAt m 39 1 →
    (classIds s j).contains (slice m 20 16) = true → exec (.pairDigest m) s =
      .next (s.setBp b { s.bp b with votes := [(BitVec.ofNat 32 (leAt m 16 4), digestVote m)] })) ∧
  (∀ (s : State) (m : Bytes), pilotUp s = true → Quiet s → jobBerthOf s (slice m 0 16) = none →
    exec (.pairDigest m) s = .next s ∧ exec (.pairVerdict m) s = .next s ∧ exec (.jobLeave m) s = .next s) ∧
  (∀ (s : State) (m : Bytes) (b : Nat) (p : PairPoint), pilotUp s = true → Quiet s → jobBerthOf s (slice m 0 16) = some b →
    m.length = 59 → leAt m 38 1 = 3 → leAt m 40 2 = 1 → slice m 42 16 = selfId s → byteAt m 58 = 2 → (s.bp b).points = [p] →
    p.point = BitVec.ofNat 32 (leAt m 16 4) → p.outcome = 0 → (s.bp b).entries = [] → (s.bp b).segments = [] →
    (s.berth b).state = .running → (s.berth b).ferryCount = 0 → CompletesWith (exec (.pairVerdict m) s) (fun t =>
      (t.berth b).state = .suspended ∧ ∃ q, (t.bp b).points = [q] ∧ q.outcome = 3 ∧ q.role = 2)) ∧
  (∀ (s : State) (m : Bytes) (b : Nat) (j : Job), pilotUp s = true → Quiet s → jobBerthOf s (slice m 0 16) = some b → m.length = 36 →
    openJob (s.bp b) = some j → (presentIds j).contains (slice m 16 16) = true → slice m 16 16 ≠ selfId s → (s.bp b).points = [] →
    jobLinks s b = [] → (s.bp b).votes = [] →
    exec (.jobLeave m) s = .next (s.setBp b { s.bp b with job := some { j with gone := j.gone ++ [slice m 16 16] } })) ∧
  (∀ (s : State) (b : Nat) (j : Job) (p : PairPoint), pilotUp s = true → Quiet s → openJob (s.bp b) = some j → (s.bp b).points = [p] →
    p.sent.isSome = true → p.outcome = 0 → leaderOf s j = selfId s → exec (.pairDigestTimeout b p.point) s =
      .next (castVote s b j p.point)) ∧
  (∀ (vs : List PairVote) (x y z : Bytes) (e : List (Word × Nat × BitVec 128)), x ≠ y → x ≠ z → y ≠ z → voteKey vs x = some e →
    voteKey vs y = some e → voteKey vs z ≠ some e → (pairDecide vs [x, y, z]).1 = 2 ∧
      (x, (0 : Byte)) ∈ (pairDecide vs [x, y, z]).2 ∧ (y, (0 : Byte)) ∈ (pairDecide vs [x, y, z]).2 ∧
      (z, if vs.any (fun v => v.sender == z) then (1 : Byte) else 4) ∈ (pairDecide vs [x, y, z]).2) ∧
  (∀ (vs : List PairVote) (x y : Bytes) (e f : List (Word × Nat × BitVec 128)), x ≠ y → voteKey vs x = some e → voteKey vs y = some f →
    pairDecide vs [x, y] = (if e = f then (1, [(x, 0), (y, 0)]) else (3, [(x, 2), (y, 2)]))) ∧
  (∀ (s : State) (b : Nat) (p : PairPoint), pilotUp s = true → Quiet s → (s.bp b).points = [p] → p.sent.isSome = true → p.outcome = 0 →
    (s.bp b).entries = [] → (s.bp b).segments = [] → (s.berth b).ferryCount = 0 →
    CompletesWith (exec (.pairVerdictTimeout b p.point) s) (fun t => (t.bp b).points = [{ p with outcome := 6 }] ∧
      (t.berth b).state = (s.berth b).state)) ∧
  (∀ (s : State) (b : Nat) (j : Job) (p : PairPoint), VfAsks s b .running → openJob (s.bp b) = some j → j.closing = false → (s.bp b).armed = [] →
    (s.bp b).points = [p] → p.closed = true →
    CompletesWith (exec (.jobClose b []) s) (fun t => (t.bp b).points = [p] ∧ t.links = s.links)) ∧
  (∀ (s : State) (b : Nat) (j : Job) (p : PairPoint), VfAsks s b .running → openJob (s.bp b) = some j → j.closing = false → (s.bp b).armed = [] →
    (s.bp b).points = [p] → p.closed = false → p.sent = none → p.outcome = 0 → leaderOf s j ≠ selfId s → s.crossing.forming = true →
    CompletesWith (exec (.jobClose b []) s) (fun t => ∃ q, (t.bp b).points = [q] ∧ q.status = 4 ∧ q.sent = some (ownVote s b p 4)))

/-- R486: with a test period of 0 no site is tested; a test is sent to a site that is boarded, serves a berth and has version 2, and its
number is kept; a report that it passed ends that test, one that it did not run is journalled, and any other, or none, fails the site; the
report of a test that is not awaited does nothing. That RESULT 0x02 makes a record whose KIND and arguments are free is the model's choice
(log entry 182). -/
def Obligations.IdleTests : Prop :=
  (∀ s : State, pilotUp s = true → testPeriod s.fuse = 0 → exec .idleTest s = .next s) ∧
  (∀ (s : State) (k : Nat), pilotUp s = true → testPeriod s.fuse ≠ 0 → (List.range 12).filter (testable s) = [k] →
    CompletesWith (exec .idleTest s) (fun t =>
      Sent s t (.idleTest k (s.press.testId + 1) (testBudget s.fuse) (min 65535 (1000 * testPeriod s.fuse))) ∧
      { t with out := s.out } = { s with press := { s.press with
        tests := tset s.press.tests k (tget [] s.press.tests k ++ [s.press.testId + 1]), testId := s.press.testId + 1 } })) ∧
  (∀ (s : State) (k : Nat) (id : Word) (d : DWord), pilotUp s = true → Quiet s → id ∈ tget [] s.press.tests k →
    exec (.idleTestReport k id 0 d) s = .next (testOver s k id) ∧ tget [] (testOver s k id).press.tests k = (tget [] s.press.tests k).filter (· != id) ∧
    exec (.idleTestReport k id 2 d) s = .next (recordQuiet (testOver s k id)
      (Config.notRunRecord k).1 (Config.notRunRecord k).2.1 (Config.notRunRecord k).2.2)) ∧
  (∀ (s : State) (k : Nat) (id : Word) (r : Byte) (d : DWord), pilotUp s = true → Quiet s → id ∈ tget [] s.press.tests k →
    r ≠ 0 → r ≠ 2 → s.berths = [] → CompletesWith (exec (.idleTestReport k id r d) s) (fun t => (t.site k).step = .failed ∧
      (t.site k).unwiped = true ∧ t.press = (testOver s k id).press)) ∧
  (∀ (s : State) (k : Nat) (id : Word) (rest : List Word), pilotUp s = true → Quiet s → tget [] s.press.tests k = id :: rest → s.berths = [] →
    CompletesWith (exec (.idleTestTimeout k) s) (fun t => (t.site k).step = .failed ∧ (t.site k).unwiped = true ∧
      t.press = (testOver s k id).press)) ∧
  (∀ (s : State) (k : Nat) (id : Word) (r : Byte) (d : DWord), pilotUp s = true → Quiet s → id ∉ tget [] s.press.tests k →
    exec (.idleTestReport k id r d) s = .next s) ∧
  (∀ (s : State) (k : Nat), pilotUp s = true → Quiet s → tget [] s.press.tests k = [] → exec (.idleTestTimeout k) s = .next s)

/-! ### Ferry (14) -/

/-- A VF's write to the page of channel k of its run reaches channel c, which is in a state. -/
def ChUp (s : State) (vf k c : Nat) (st : ChState) : Prop :=
  HostOpen s ∧ vfExists s vf = true ∧ (s.fn (.vf vf)).mse = true ∧ (s.berth vf).state ≠ .rinsing ∧ runCh s vf k = some c ∧ (s.ch c).state = st

/-- R8, R499, R508, R509, R512, R513, R528, R545: a doorbell counts, and on an IDLE channel begins a chain at HEAD or reads its tail once
more, under the RETRY of that moment, waits where no tag is free, and halts with 0x0C while Bus Master Enable is 0; STOP of a RUNNING
channel is noted; SKIP of a HALTED one goes to NEXT or, at the end of its chain, to IDLE, and RESUME reads its descriptor again and keeps
DONE; SKIP and RESUME of another state, and any of the four for a channel that is not there or is SILENCED, do nothing; with Memory Space
Enable 0 each is an Unsupported Request -/
def Obligations.FerryChannels : Prop :=
  (∀ (s : State) (vf k c : Nat) (st : ChState), ChUp s vf k c st → st ≠ .idle → st ≠ .silenced →
    exec (.ferryChDoorbell vf k) s = .next (s.setCh c { s.ch c with dbcount := (s.ch c).dbcount + 1 })) ∧
  (∀ (s : State) (vf k : Nat) (i : Instr), accepts s = true → (vfExists s vf = false ∨ (s.fn (.vf vf)).mse = true ∧ (runCh s vf k = none ∨
      ∃ c, runCh s vf k = some c ∧ (s.ch c).state = .silenced)) →
    i = .ferryChDoorbell vf k ∨ i = .stop vf k ∨ i = .skip vf k ∨ i = .resume vf k → exec i s = .next s) ∧
  (∀ (s : State) (vf k : Nat) (i : Instr), HostOpen s → vfExists s vf = true → (s.fn (.vf vf)).mse = false →
    i = .ferryChDoorbell vf k ∨ i = .stop vf k ∨ i = .skip vf k ∨ i = .resume vf k →
    exec i s = .next { s with out := .aer (.vf vf) 0 :: s.out }) ∧
  (∀ (s : State) (vf k c : Nat), ChUp s vf k c .idle → (s.ch c).chain = false → (s.fn (.vf vf)).bme = true → (s.fn (.vf vf)).ats = false →
    tagReady s (vf + 2) = true → CompletesWith (exec (.ferryChDoorbell vf k) s) (fun t => (t.ch c).state = .fetching ∧ (t.ch c).cur = (s.ch c).head ∧
      (t.ch c).chain = true ∧ (t.ch c).dbcount = (s.ch c).dbcount + 1 ∧ (t.ch c).cap = (s.ch c).dbcount + 1 ∧ (t.ch c).done = 0 ∧
      (t.ch c).retryNow = (s.ch c).retry ∧ t.out = .hostRead (vf + 2) (nextTag s (vf + 2)) (s.ch c).head.toNat 64 false false :: s.out ∧
      { t with ferry := s.ferry, host := s.host, out := s.out } = s)) ∧
  (∀ (s : State) (vf k c : Nat), ChUp s vf k c .idle → (s.ch c).chain = true → (s.fn (.vf vf)).bme = true → (s.fn (.vf vf)).ats = false →
    tagReady s (vf + 2) = true → CompletesWith (exec (.ferryChDoorbell vf k) s) (fun t => (t.ch c).state = .fetching ∧ (t.ch c).cur = (s.ch c).cur ∧
      (t.ch c).why = .reread ∧ (t.ch c).cap = (s.ch c).dbcount + 1 ∧
      t.out = .hostRead (vf + 2) (nextTag s (vf + 2)) (s.ch c).cur.toNat 64 false false :: s.out)) ∧
  (∀ (s : State) (vf k c : Nat), ChUp s vf k c .idle → (s.ch c).chain = false → (s.fn (.vf vf)).bme = true → (s.fn (.vf vf)).ats = false →
    tagReady s (vf + 2) = false → CompletesWith (exec (.ferryChDoorbell vf k) s) (fun t => (t.ch c).state = .fetching ∧
      (t.ch c).stuck.isSome = true ∧ t.out = s.out ∧ t.host = s.host)) ∧
  (∀ (s : State) (vf k c : Nat), ChUp s vf k c .idle → (s.fn (.vf vf)).bme = false →
    CompletesWith (exec (.ferryChDoorbell vf k) s) (fun t => (t.ch c).state = .halted ∧ (t.ch c).cause = 0x0C ∧
      (t.ch c).irqPend = true ∧ t.host = s.host)) ∧
  (∀ (s : State) (vf k c : Nat), ChUp s vf k c .running → exec (.stop vf k) s = .next (s.setCh c { s.ch c with stop := true })) ∧
  (∀ (s : State) (vf k c : Nat), ChUp s vf k c .halted → (s.ch c).desc ≠ [] → dFlag (s.ch c).desc 0 = true →
    (s.ch c).dbcount = (s.ch c).cap → exec (.skip vf k) s = .next (s.setCh c { s.ch c with state := .idle })) ∧
  (∀ (s : State) (vf k c : Nat), ChUp s vf k c .halted → (s.ch c).desc ≠ [] → dFlag (s.ch c).desc 0 = false →
    (s.fn (.vf vf)).bme = true → (s.fn (.vf vf)).ats = false → CompletesWith (exec (.skip vf k) s) (fun t =>
      (t.ch c).state = .fetching ∧ (t.ch c).cur = dNext (s.ch c).desc ∧ (t.ch c).done = 0)) ∧
  (∀ (s : State) (vf k c : Nat), ChUp s vf k c .halted → (s.fn (.vf vf)).bme = true → (s.fn (.vf vf)).ats = false →
    CompletesWith (exec (.resume vf k) s) (fun t => (t.ch c).state = .fetching ∧ (t.ch c).cur = (s.ch c).cur ∧
      (t.ch c).done = (s.ch c).done ∧ (t.ch c).why = .run)) ∧
  (∀ (s : State) (vf k c : Nat) (st : ChState), ChUp s vf k c st → st ≠ .halted → st ≠ .silenced →
    exec (.skip vf k) s = .next s ∧ exec (.resume vf k) s = .next s)

/-- Channel c waits for the descriptor that its one request asks for. -/
def Fetching (s : State) (c : Nat) (r : HostReq) : Prop :=
  HostOpen s ∧ s.host.reqs = [r] ∧ r.use = .fetch c ∧ (s.ch c).state = .fetching ∧ (s.ch c).needKey = false ∧ (s.ch c).why = .run

/-- The 64 bytes that answer a host read of a descriptor. -/
def wholeCpl (r : HostReq) (d : Bytes) : HostCpl := { status := .ok, byteCount := 64, lowerAddr := r.addr % 128, data := d }

/-- R8, R493-R495, R502, R511, R544-R546: the descriptor that a channel waits for is checked, and the channel waits for an engine, waits for
the key or halts with the cause of the check; a whole completion delivers it, part of one is kept, an unsupported one halts with 0x0B and
one that nothing asked for is reported and counted; a timeout quarantines the tag and, by the RETRY captured with the descriptor, has the
read made again or halts with 0x0A; a tag leaves quarantine to the tail of the free list; a failed read is made again with a new tag -/
def Obligations.FerryReads : Prop :=
  (∀ (s : State) (c : Nat) (r : HostReq) (d : Bytes), Fetching s c r → d.length = 64 →
    CompletesWith (exec (.descriptorFetchDone c d) s) (fun t =>
      if descShape d false ≠ 0 then (t.ch c).state = .halted ∧ (t.ch c).cause = descShape d false
      else if needsFill (dOp d) = false then (t.ch c).state = .waiting ∧ (t.ch c).desc = d ∧ (t.ch c).place = s.ferry.place
      else match ferryFill s (chBerth s c) with
        | none => (t.ch c).state = .fetching ∧ (t.ch c).needKey = true ∧ (t.ch c).desc = d
        | some f => if descKeys d f = 0 then (t.ch c).state = .waiting ∧ (t.ch c).desc = d
          else (t.ch c).state = .halted ∧ (t.ch c).cause = descKeys d f)) ∧
  (∀ (s : State) (c vf : Nat) (r : HostReq) (d : Bytes), Fetching s c r → s.host.quarantine = [] → r.fn = vf + 2 → r.len = 64 →
    r.got = [] → d.length = 64 → tagReady s (vf + 2) = true →
    exec (.hostCompletion (.vf vf) r.tag (wholeCpl r d)) s = exec (.descriptorFetchDone c d) s) ∧
  (∀ (s : State) (vf tag : Nat) (c : HostCpl), HostOpen s → s.host.quarantine = [] → s.host.reqs = [] →
    CompletesWith (exec (.hostCompletion (.vf vf) tag c) s) (fun t => t.out = .aer (.vf vf) 2 :: s.out ∧
      tget 0 (t.fn (.vf vf)).counts 3 = min (tget 0 (s.fn (.vf vf)).counts 3 + 1) 0xFFFFFFFF ∧
      { t with fns := s.fns, out := s.out } = s)) ∧
  (∀ (s : State) (c vf : Nat) (r : HostReq) (d : Bytes), Fetching s c r → s.host.quarantine = [] → r.fn = vf + 2 → r.len = 64 →
    r.got = [] → tagReady s (vf + 2) = true →
    CompletesWith (exec (.hostCompletion (.vf vf) r.tag { wholeCpl r d with status := .ur }) s) (fun t =>
      (t.ch c).state = .halted ∧ (t.ch c).cause = 0x0B ∧ ∀ q ∈ t.host.reqs, q.use ≠ .fetch c)) ∧
  (∀ (s : State) (c vf : Nat) (r : HostReq) (d : Bytes), Fetching s c r → s.host.quarantine = [] → r.fn = vf + 2 → r.len = 64 →
    r.got = [] → d.length < 64 → CompletesWith (exec (.hostCompletion (.vf vf) r.tag (wholeCpl r d)) s) (fun t =>
      t.host.reqs = [{ r with got := d }] ∧ (t.ch c).state = .fetching ∧ t.out = s.out)) ∧
  (∀ (s : State) (c vf : Nat) (r : HostReq), Fetching s c r → r.fn = vf + 2 → 8 ≤ c → r.ch = c → r.timedOut = false →
    CompletesWith (exec (.completionTimeout (.vf vf) r.tag) s) (fun t => (∀ q ∈ t.host.reqs, q.use ≠ .fetch c) ∧
      t.host.quarantine = s.host.quarantine ++ [{ r with timedOut := true }] ∧
      tget 0 (t.fn (.vf vf)).counts 4 = min (tget 0 (s.fn (.vf vf)).counts 4 + 1) 0xFFFFFFFF ∧
      (r.tries < (s.ch c).retryNow.toNat → (t.ch c).state = .fetching ∧ t.host.failed = s.host.failed ++ [{ r with got := [] }]) ∧
      (¬r.tries < (s.ch c).retryNow.toNat → (t.ch c).state = .halted ∧ (t.ch c).cause = 0x0A))) ∧
  (∀ (s : State) (vf : Nat) (r : HostReq), accepts s = true → s.host.quarantine = [r] → r.fn = vf + 2 →
    tagReady s (vf + 2) = true → CompletesWith (exec (.tagQuarantineExpiry (.vf vf) r.tag) s) (fun t => t.host.quarantine = [] ∧
      tget [] t.host.freed (vf + 2) = tget [] s.host.freed (vf + 2) ++ [r.tag] ∧ { t with host := s.host } = s)) ∧
  (∀ (s : State) (vf c : Nat) (r : HostReq), HostOpen s → s.host.failed = [r] → r.fn = vf + 2 → r.use = .fetch c →
    (s.fn (.vf vf)).bme = true → (s.fn (.vf vf)).ats = false → tagReady s (vf + 2) = true →
    CompletesWith (exec (.hostRequestRetry (.vf vf) r.tag) s) (fun t =>
      t.host.failed = [] ∧ t.out = .hostRead (vf + 2) (nextTag s (vf + 2)) r.addr r.len false false :: s.out ∧
      (∃ q : HostReq, t.host.reqs = s.host.reqs ++ [q] ∧ q.tries = r.tries + 1 ∧ q.tag = nextTag s (vf + 2) ∧ q.use = .fetch c)))

/-- Engine e is free and in service, no privileged channel is ready, and channel c, whose descriptor copies from fabric to fabric,
is the one that waits; no waiting channel's credit is negative. -/
def CopyReady (s : State) (e c : Nat) : Prop :=
  accepts s = true ∧ engReady s e = true ∧ nextRestart s = none ∧ nextPrivileged s = none ∧ s.ferry.chs.any (fun x => creditHeld x.2) = false ∧
  nextWaiting s = some c ∧ 8 ≤ c ∧ (s.ch c).done = 0 ∧
  dOp (s.ch c).desc = 1 ∧ 0 < dTotal (s.ch c).desc ∧ 0 < dstRun (s.ch c).desc 0

/-- R118, R497, R500, R501, R509-R513, R515, R516, R518, R562: an engine that is free and has nothing of a failed engine's and no privileged
descriptor takes the waiting channel, begins its copy and moves a line of it; an access error or poison halts the channel; the end of a
descriptor frees the engine, takes its bytes from the credit and ends the chain or halts after STOP, and ends a privileged one; GO of a
privileged channel checks the descriptor, or is held back while it would write a measured image area, and ABORT ends it; a COMMIT takes the
staged map once; a request is asserted and withdrawn; a burst of the sampler writes its record to the ledger, and one of an array feeds it
its lines; an engine that faults leaves service with the feed of its two arrays, and its descriptor waits ahead of all; a channel in debt
starts once its credit is no longer negative. That a COMMIT with a staged REL of 8-15 changes nothing at all is the model's choice (log
entry 170), as is the time that passes (log entry 136) -/
def Obligations.FerryEngines : Prop :=
  (∀ (s : State) (e c : Nat), CopyReady s e c → CompletesWith (exec (.engineStart e) s) (fun t => (t.ch c).state = .running ∧
    t.out = .ferryFabric e (0x10 + c) (srcAddr (s.ch c).desc 0 / 64 * 64) .read [] :: s.out ∧
    (∃ r, tfind t.ferry.engs e = some r ∧ r.ch = c ∧ r.w = 0 ∧
      r.wait = .fabricRead (srcAddr (s.ch c).desc 0 % 64) (srcRun (s.ch c).desc 0)))) ∧
  (∀ (s : State) (e : Nat), accepts s = true → engReady s e = false ∨ (nextRestart s = none ∧ nextPrivileged s = none ∧ nextWaiting (creditLook s) = none) →
    exec (.engineStart e) s = .next (if engReady s e then creditLook s else s)) ∧
  (∀ (s : State) (e o n : Nat) (r : EngRun) (d : Bytes), accepts s = true → tfind s.ferry.engs e = some r → r.wait = .fabricRead o n →
    r.ch ≠ noCh → 8 ≤ r.ch →
    (CompletesWith (exec (.fabricResponse e .accessErr d) s) (fun t => (t.ch r.ch).state = .halted ∧ (t.ch r.ch).cause = 0x08)) ∧
    (CompletesWith (exec (.fabricResponse e .poison d) s) (fun t => (t.ch r.ch).state = .halted ∧ (t.ch r.ch).cause = 0x09)) ∧
    (dOp (s.ch r.ch).desc = 1 → r.w < dTotal (s.ch r.ch).desc → r.buf = [] → d.length = 64 → o + n ≤ 64 →
      n = dstRun (s.ch r.ch).desc r.w → CompletesWith (exec (.fabricResponse e .ok d) s) (fun t =>
        (∃ q, tfind t.ferry.engs e = some q ∧ q.wait = .fabricWrite n ∧ q.w = r.w) ∧
        t.out.head? = some (.ferryFabric e (0x10 + r.ch) (dstAddr (s.ch r.ch).desc r.w / 64 * 64)
          (if n = 64 then .write else .partialWrite (BitVec.ofNat 64 ((2 ^ n - 1) * 2 ^ (dstAddr (s.ch r.ch).desc r.w % 64))))
          (padTo 64 (zeros (dstAddr (s.ch r.ch).desc r.w % 64) ++ slice d o n)))))) ∧
  (∀ (s : State) (e : Nat) (r : EngRun), accepts s = true → tfind s.ferry.engs e = some r → r.wait = .finished → 8 ≤ r.ch →
    (s.ch r.ch).stop = false → dFlag (s.ch r.ch).desc 0 = true → dFlag (s.ch r.ch).desc 1 = false →
    (s.ch r.ch).dbcount = (s.ch r.ch).cap → CompletesWith (exec (.descriptorDone e) s) (fun t => (t.ch r.ch).state = .idle ∧
      (t.ch r.ch).descCnt = (s.ch r.ch).descCnt + 1 ∧ (t.ch r.ch).credit = max (-67108864)
        (min 4194304 ((s.ch r.ch).credit + ((s.ch r.ch).rate.toNat + 1) * Config.creditClocks s.ferry.looks) - 4 * (dTotal (s.ch r.ch).desc : Int)) ∧
      t.ferry.engs = tdel s.ferry.engs e ∧ t.out = s.out)) ∧
  (∀ (s : State) (e : Nat) (r : EngRun), accepts s = true → tfind s.ferry.engs e = some r → r.wait = .finished → 8 ≤ r.ch →
    (s.ch r.ch).stop = true → CompletesWith (exec (.descriptorDone e) s) (fun t => (t.ch r.ch).state = .halted ∧ (t.ch r.ch).cause = 0x10)) ∧
  (∀ (s : State) (e : Nat) (r : EngRun), accepts s = true → tfind s.ferry.engs e = some r → r.wait = .finished → r.ch < 8 →
    CompletesWith (exec (.descriptorDone e) s) (fun t => (t.pch r.ch).busy = false ∧ (t.pch r.ch).done = true ∧ (t.pch r.ch).cause = 0 ∧
      (t.pch r.ch).halted = false)) ∧
  (∀ (s : State) (p : Nat), pilotUp s = true → p < 8 → (s.pch p).busy = false → areaHit s p = false → CompletesWith (exec (.ferryPchGo p) s) (fun t =>
    if descShape (engDesc s p) true = 0 then (t.pch p).busy = true ∧ (t.pch p).bytes = 0 ∧ (t.pch p).halted = false
    else (t.pch p).busy = false ∧ (t.pch p).done = true ∧ (t.pch p).halted = true ∧ (t.pch p).cause = descShape (engDesc s p) true)) ∧
  (∀ (s : State) (p : Nat), pilotUp s = true → areaHit s p = true → exec (.ferryPchGo p) s = .next s) ∧
  (∀ (s : State) (p : Nat), pilotUp s = true → (s.pch p).busy = true → s.ferry.engs = [] → CompletesWith (exec (.ferryPchAbort p) s)
    (fun t => (t.pch p).busy = false ∧ (t.pch p).done = true ∧ (t.pch p).cause = 0x10 ∧ (t.pch p).halted = true)) ∧
  (∀ (s : State) (seq : BitVec 16) (c : Nat) (m : ChMap), pilotUp s = true → s.ferry.lastSeq ≠ some seq → s.ferry.mapsStaged = [(c, m)] →
    exec (.ferryCommit seq) s = .next (if 8 ≤ m.rel.toNat then s else { s with ferry := { s.ferry with
      maps := tset s.ferry.maps c m, lastSeq := some seq } })) ∧
  (∀ (s : State) (seq : BitVec 16), pilotUp s = true → s.ferry.lastSeq = some seq → exec (.ferryCommit seq) s = .next s) ∧
  (∀ (s : State) (n : Nat), Quiet s → (s.array n).run = none → s.ferry.requests.contains (.press n) = false →
    exec (.peripheralRequest (.press n) true) s = .next { s with ferry := { s.ferry with requests := s.ferry.requests ++ [.press n] } }) ∧
  (∀ (s : State) (p : Peripheral), Quiet s → exec (.peripheralRequest p false) s =
    .next { s with ferry := { s.ferry with requests := s.ferry.requests.filter (· != p) } }) ∧
  (∀ (s : State) (b : Nat) (r : Bytes), Quiet s → s.ferry.bursts = [.sampler b] → s.ferry.requests = [.sampler b] → (s.bp b).outbox = [r] →
    leAt r 0 1 ≠ 5 → CompletesWith (exec (.peripheralBurstDone (.sampler b)) s) (fun t => (t.bp b).outbox = [] ∧
      (t.bp b).unread = (s.bp b).unread ++ [r] ∧ (t.bp b).reserved = (s.bp b).reserved - 1 ∧ t.ferry.bursts = [] ∧ t.ferry.requests = [] ∧
      ledgerWrite b ((recordEngine s b).getD (b % 8)) ((s.bp b).prod.toNat + (s.bp b).ledger.length) r ∈ t.out)) ∧
  (∀ (s : State) (n b k line lines : Nat) (a : Armed) (u : Tile), Quiet s → s.ferry.bursts = [.press n] → feedBurst s n = some (k, line, lines) →
    runTile s n = some (b, a, u) → CompletesWith (exec (.peripheralBurstDone (.press n)) s) (fun t =>
      t.out = .feed n (0x10 + n / 2) k line lines :: s.out ∧ (t.array n).fed = (s.array n).fed + lines ∧ t.ferry.bursts = [] ∧
      t.ferry.requests.contains (.press n) = !decide (areaLines (u.feed ++ u.outcome) ≤ (s.array n).fed + lines))) ∧
  (∀ (s : State) (n : Nat), Quiet s → s.ferry.bursts = [.press n] → feedBurst s n = none → exec (.peripheralBurstDone (.press n)) s = .next { s with
    ferry := { s.ferry with bursts := [], requests := s.ferry.requests.filter (· != .press n) } }) ∧
  (∀ (s : State) (e : Nat), Quiet s → e < 8 → (s.island (.ferry e)).service ≠ .failed → tfind s.ferry.engs e = none →
    CompletesWith (exec (.ferryEngineFault e) s) (fun t => (t.island (.ferry e)).service = .failed ∧
      (t.array (2 * e)).noFeed = true ∧ (t.array (2 * e + 1)).noFeed = true ∧ (t.island (.press (2 * e))).service = .failed)) ∧
  (∀ (s : State) (e : Nat) (r : EngRun), Quiet s → e < 8 → (s.island (.ferry e)).service ≠ .failed → tfind s.ferry.engs e = some r →
    8 ≤ r.ch → r.ch < noCh → CompletesWith (exec (.ferryEngineFault e) s) (fun t => (t.ch r.ch).state = .waiting ∧ (t.ch r.ch).place = 0 ∧ (t.ch r.ch).redo = true)) ∧
  (∀ (s : State) (e c : Nat) (x : FerryCh), accepts s = true → engReady s e = true → nextPrivileged s = none → s.ferry.chs = [(c, x)] →
    8 ≤ c → x.state = .waiting → dOp x.desc = 1 → x.rate ≠ 0xFF → x.redo = false → x.credit < 0 → CompletesWith (exec (.engineStart e) s) (fun t =>
      (t.ch c).credit = min 4194304 (x.credit + (x.rate.toNat + 1) * Config.creditClocks s.ferry.looks) ∧
      (t.ch c).state = if 0 ≤ (t.ch c).credit then .running else .waiting))


/-! ### The host endpoint (15) -/

/-- R526, R528, R539, R547, R554, R557: a request that is unsupported gets UR status or, posted, an AER report, and a vendor-defined Type 1
message nothing; a change of a mask sends the vector that was pending and may now go, or of a VF with ATS on asks for its translation first,
and one with nothing pending sends nothing; Bus Master Enable set queues its event, cleared it halts the VF's waiting channel with 0x0C and
queues its event; PRI Enable set again lifts the block; POP takes the oldest event -/
def Obligations.HostConfiguration : Prop :=
  (∀ (s : State) (f : Func) (r : UrReason), HostOpen s → r ≠ .vendorType1 → urHolds s f r = true →
    exec (.hostUnsupportedRequest f false r) s = .next { s with out := .hostUr f :: s.out } ∧
    exec (.hostUnsupportedRequest f true r) s = .next { s with out := .aer f 0 :: s.out }) ∧
  (∀ (s : State) (f : Func) (p : Bool), HostOpen s → exec (.hostUnsupportedRequest f p .vendorType1) s = .next s) ∧
  (∀ (s : State) (f : Func) (v : Nat), HostOpen s → fnExists s f = true → v < 2 → (s.fn f).msixPend = 1#10 <<< v →
    (s.fn f).bme = true → (s.fn f).ats = false → exec (.msixMaskChange f v false true) s = .next { s.setFn f { s.fn f with
      msixEn := true, msixMask := (s.fn f).msixMask &&& ~~~(1#10 <<< v), msixPend := 0 } with out := .msix f v :: s.out }) ∧
  (∀ (s : State) (f : Func) (v : Nat) (m e : Bool), HostOpen s → fnExists s f = true → v < 2 → (s.fn f).msixPend = 0 →
    CompletesWith (exec (.msixMaskChange f v m e) s) (fun t => t.out = s.out ∧ (t.fn f).msixEn = e ∧ (t.fn f).msixMask.getLsbD v = m ∧
      { t with fns := s.fns } = s)) ∧
  (∀ (s : State) (b v : Nat), HostOpen s → vfExists s b = true → v < 10 → (s.fn (.vf b)).msixPend = 1#10 <<< v → (s.fn (.vf b)).bme = true →
    (s.fn (.vf b)).ats = true → s.host.atc = [] → s.host.reqs = [] → s.host.failed = [] → tagReady s (b + 2) = true →
    CompletesWith (exec (.msixMaskChange (.vf b) v false true) s) (fun t => (t.fn (.vf b)).msixWait.getLsbD v = true ∧ (t.fn (.vf b)).msixPend = 0 ∧
      t.out = .translationRequest (b + 2) (nextTag s (b + 2)) (rangeOf (msixAddr (s.fn (.vf b)) v) * 2097152) true :: s.out)) ∧
  (∀ (s : State) (f : Func), HostOpen s → fnExists s f = true → (s.fn f).msixPend = 0 → s.host.events = [] →
    exec (.busMasterSet f) s = .next { s.setFn f { s.fn f with bme := true } with
      host := { s.host with linkUp := true, events := [{ kind := 3, slot := 0, func := fnIx f }] } }) ∧
  (∀ (s : State) (b c : Nat), HostOpen s → vfExists s b = true → berthChs s b = [c] → (s.ch c).state = .waiting →
    s.ferry.engs = [] → s.host.reqs = [] → CompletesWith (exec (.busMasterClear (.vf b)) s) (fun t => (t.fn (.vf b)).bme = false ∧
      (t.ch c).state = .halted ∧ (t.ch c).cause = 0x0C)) ∧
  (∀ (s : State) (f : Func), HostOpen s → f = .pf0 ∨ f = .pf1 → s.host.events = [] → exec (.busMasterClear f) s =
    .next { s.setFn f { s.fn f with bme := false, msixPend := (s.fn f).msixPend ||| (s.fn f).msixWait, msixWait := 0 } with host := { s.host with events := [{ kind := 2, slot := 0, func := fnIx f }] } }) ∧
  (∀ (s : State) (b : Nat) (e : Bool), HostOpen s → vfExists s b = true → exec (.priEnableChange (.vf b) e) s =
    .next (s.setFn (.vf b) { s.fn (.vf b) with
      pri := e, prgFailed := (s.fn (.vf b)).prgFailed && !(e && !(s.fn (.vf b)).pri) })) ∧
  (∀ (s : State) (e : HostEvent) (rest : List HostEvent), commanded s = true → s.host.events = e :: rest → exec .hgPPop s =
    .next { s with host := { s.host with events := rest } })

/-- A function's mailbox is IDLE with a one-fragment request of no body in its buffer. -/
def OneFragment (s : State) (f : Func) (code tag0 tag1 : Byte) : Prop :=
  HostOpen s ∧ fnExists s f = true ∧ (s.fn f).mse = true ∧ (s.fn f).mbx = .idle ∧ (s.fn f).slot = none ∧ (s.fn f).got = 0 ∧ (s.fn f).txLen = 8 ∧
  (s.fn f).txLast = true ∧ mread 0 (s.fn f).buf 0 8 = [code, 0, tag0, tag1, 0, 0, 0, 0]

/-- R528, R530-R534, R536, R537, R557: a one-fragment request of PF0 is handed to Pilot, or answered 0x07 after a halt, 0x01 during a warm
restart or with its slot taken, and one of no length 0x05; the first full fragment of a longer request is kept in the function's slot with
TX_BUSY 1; GO while TX_BUSY is still 1, which is a free value (log entry 187), or while a request is served or answered, and NEXT with no
response, set PROTO, and GO once TX_BUSY has cleared takes the fragment; NEXT
after the last fragment frees the mailbox; ABORT and the expiry end what the mailbox holds, and of a request being served leave its slot to
Pilot and its later answer unsent; SEND shows a response or frees the slot of a mailbox that is gone; a code that the function does not
carry gets 0x03, by a VF only once its berth is looked at; UNIT_STATUS answers 8 bytes, or 0x05 with a body; with Memory Space Enable 0 a
write of the mailbox is an Unsupported Request -/
def Obligations.Mailbox : Prop :=
  (∀ (s : State) (code a b : Byte), OneFragment s .pf0 code a b → (s.hslot 0).owner = none → s.pilot.phase = .firmware → s.host.events = [] →
    CompletesWith (exec (.mbxGo .pf0) s) (fun t => (t.fn .pf0).mbx = .serving ∧ (t.fn .pf0).slot = some 0 ∧ (t.hslot 0).owner = some 0 ∧
      t.host.events = [{ kind := 6, slot := 0, func := 0 }] ∧ t.out = s.out)) ∧
  (∀ (s : State) (code a b : Byte), OneFragment s .pf0 code a b → (s.hslot 0).owner = none →
    (s.pilot.phase = .halted → CompletesWith (exec (.mbxGo .pf0) s) (fun t => (t.fn .pf0).mbx = .responding ∧ (t.fn .pf0).rxReady = true ∧
      (t.fn .pf0).rxLen = 8 ∧ (t.fn .pf0).rxLast = true ∧ .reply .pf0 code 0x07 [] ∈ t.out)) ∧
    (s.pilot.phase = .warm → CompletesWith (exec (.mbxGo .pf0) s) (fun t => (t.fn .pf0).mbx = .responding ∧
      .reply .pf0 code 0x01 [] ∈ t.out))) ∧
  (∀ (s : State) (f : Func), HostOpen s → fnExists s f = true → (s.fn f).mse = true → (s.fn f).mbx = .serving ∨ (s.fn f).mbx = .responding →
    exec (.mbxGo f) s = .next (s.setFn f { s.fn f with proto := true })) ∧
  (∀ (s : State) (a b : Byte) (n : Nat), HostOpen s → (s.fn .pf0).mse = true → (s.fn .pf0).mbx = .idle → (s.fn .pf0).slot = none →
    (s.fn .pf0).got = 0 → (s.fn .pf0).txLen = 256 → (s.fn .pf0).txLast = false → (s.hslot 0).owner = none → 248 < n → n ≤ 32768 →
    mread 0 (s.fn .pf0).buf 0 8 = [0x13, 0, a, b] ++ toLe 4 n →
    CompletesWith (exec (.mbxGo .pf0) s) (fun t => (t.fn .pf0).mbx = .receiving ∧ (t.fn .pf0).txBusy = true ∧ (t.fn .pf0).got = 256 ∧
      (t.fn .pf0).slot = some 0 ∧ (t.hslot 0).owner = some 0 ∧ t.out = s.out)) ∧
  (∀ (s : State) (f : Func), HostOpen s → fnExists s f = true → (s.fn f).mse = true → (s.fn f).mbx = .receiving → (s.fn f).txBusy = true →
    CompletesWith (exec (.mbxGo f) s) (fun t =>
      (Config.fragmentTaken s.host.looks = false → t.host.looks = s.host.looks + 1 ∧ (t.fn f).proto = true ∧ (t.fn f).mbx = .receiving ∧ (t.fn f).txBusy = true ∧
        (t.fn f).got = (s.fn f).got ∧ t.host.slots = s.host.slots ∧ t.out = s.out) ∧
      (Config.fragmentTaken s.host.looks = true → t = mbxTake { s.setFn f { s.fn f with txBusy := false } with
        host := { s.host with looks := s.host.looks + 1 } } f))) ∧
  (∀ (s : State) (f : Func), HostOpen s → fnExists s f = true → (s.fn f).mse = true → (s.fn f).mbx = .idle → (s.fn f).txLen = 0 →
    CompletesWith (exec (.mbxGo f) s) (fun t => (t.fn f).mbx = .responding ∧ (t.fn f).rxReady = true ∧ ∃ c, .reply f c 0x05 [] ∈ t.out)) ∧
  (∀ (s : State) (code a b : Byte), OneFragment s .pf0 code a b → (s.hslot 0).owner ≠ none →
    CompletesWith (exec (.mbxGo .pf0) s) (fun t => (t.fn .pf0).mbx = .responding ∧ .reply .pf0 code 0x01 [] ∈ t.out)) ∧
  (∀ (s : State) (f : Func), HostOpen s → fnExists s f = true → (s.fn f).mse = true → (s.fn f).rxReady = false →
    exec (.next f) s = .next (s.setFn f { s.fn f with proto := true })) ∧
  (∀ (s : State) (f : Func) (k : Nat), HostOpen s → fnExists s f = true → (s.fn f).mse = true → (s.fn f).mbx = .responding → (s.fn f).rxReady = true →
    (s.fn f).rxLast = true → (s.fn f).slot = some k → CompletesWith (exec (.next f) s) (fun t => (t.fn f).mbx = .idle ∧
      (t.fn f).slot = none ∧ (t.fn f).rxReady = false ∧ (t.hslot k).owner = none ∧ t.out = s.out)) ∧
  (∀ (s : State) (f : Func), HostOpen s → fnExists s f = true → (s.fn f).mse = true → (s.fn f).mbx = .receiving → (s.fn f).slot = none → s.host.events = [] →
    exec (.mbxAbort f) s = .next { s.setFn f (mbxIdle (s.fn f)) with
      host := { s.host with events := [{ kind := 7, slot := 0, func := fnIx f }] } }) ∧
  (∀ (s : State) (k : Nat), HostOpen s → (s.fn .pf0).mse = true → (s.fn .pf0).mbx = .serving → (s.fn .pf0).slot = some k →
    CompletesWith (exec (.mbxAbort .pf0) s) (fun t => (t.fn .pf0).mbx = .idle ∧ (t.fn .pf0).slot = none ∧ (t.hslot k).owner = some goneFn ∧
      t.pilot.settings.answer = false ∧ (∀ x ∈ t.board.sites, x.2.answer = false) ∧ t.out = s.out)) ∧
  (∀ (s : State) (f : Func) (i : Instr), HostOpen s → fnExists s f = true → (s.fn f).mse = false → i = .mbxGo f ∨ i = .next f ∨ i = .mbxAbort f →
    exec i s = .next { s with out := .aer f 0 :: s.out }) ∧
  (∀ (s : State) (f : Func), HostOpen s → (s.fn f).mse = true → (s.fn f).mbx = .idle → exec (.mbxAbort f) s = .next s ∧ exec (.mbxExpiry f) s = .next s) ∧
  (∀ (s : State) (f : Func), accepts s = true → fnExists s f = true → (s.fn f).mbx = .receiving →
    CompletesWith (exec (.mbxExpiry f) s) (fun t => (t.fn f).mbx = .idle ∧ (t.fn f).slot = none ∧ (t.fn f).expired = true)) ∧
  (∀ (s : State) (k : BitVec 6) (f : Func), commanded s = true → (s.hslot k.toNat).owner = some (fnIx f) → fnIx f < 4098 →
    (s.fn f).mbx = .serving → (s.fn f).slot = some k.toNat → CompletesWith (exec (.hgPRespSend k) s) (fun t =>
      (t.fn f).mbx = .responding ∧ (t.fn f).rxReady = true ∧ t.host.respSlot = k ∧
      (t.fn f).buf = mwrite 0 (s.fn f).buf 0 ((slotMessage s k.toNat).take 256))) ∧
  (∀ (s : State) (k : BitVec 6), commanded s = true → (s.hslot k.toNat).owner = some goneFn → CompletesWith (exec (.hgPRespSend k) s)
    (fun t => (t.hslot k.toNat).owner = none ∧ t.out = s.out ∧ t.fns = s.fns)) ∧
  (∀ (s : State) (c : Byte), pilotUp s = true → carries .pf0 c.toNat = false →
    exec (.mailboxUnknownCode .pf0 c) s = .next (replyMs s .pf0 c 0x03 [])) ∧
  (∀ (s : State) (n : Nat) (c : Byte), pilotUp s = true → s.pilot.ready = true → vfExists s n = true → carries (.vf n) c.toNat = false →
    exec (.mailboxUnknownCode (.vf n) c) s = .next (match (s.berth n).state with
      | .free => replyMs s (.vf n) c 0x04 []
      | .rinsing => replyMs s (.vf n) c 0x02 []
      | _ => replyMs s (.vf n) c 0x03 [])) ∧
  (∀ s : State, pilotUp s = true → ∃ r, exec (.unitStatus []) s = .next (reply s .pf0 0x11 r) ∧ r.length = 8 ∧ r.take 2 = [s.pins.stat, 0]) ∧
  (∀ (s : State) (m : Bytes), pilotUp s = true → m ≠ [] → exec (.unitStatus m) s = .next (replyMs s .pf0 0x11 0x05 []))

/-- R521, R540-R542, R557: FLR of a VF with a berth begins its rinse, forgets its translations and resets the function, and of one whose
berth is FREE leaves the berths alone; FLR of PF0 and PF1 ends their mailboxes, and PF1's drops what is staged and, where it clears VF
Enable, queues that event; a change of VF Enable takes effect, with at most 4,096 VFs; a conventional reset ends both mailboxes with the
link down -/
def Obligations.HostResets : Prop :=
  (∀ (s : State) (n : Nat), pilotUp s = true → HostOpen s → vfExists s n = true → rinsable (s.berth n) = true → openJob (s.bp n) = none →
    CompletesWith (exec (.flr (.vf n)) s) (fun t => (t.berth n).state = .rinsing ∧ t.fn (.vf n) = fnInit ∧
      (∀ e ∈ t.host.atc, e.fn ≠ n + 2) ∧ (∀ v ∈ t.host.invals, v.fn ≠ n + 2) ∧ t.fuse = s.fuse)) ∧
  (∀ (s : State) (n : Nat), HostOpen s → vfExists s n = true → (s.berth n).state = .free →
    CompletesWith (exec (.flr (.vf n)) s) (fun t => t.berths = s.berths ∧ t.fn (.vf n) = fnInit ∧ (∀ e ∈ t.host.atc, e.fn ≠ n + 2))) ∧
  (∀ s : State, HostOpen s → CompletesWith (exec (.flr .pf0) s) (fun t => (t.fn .pf0).mbx = .idle ∧ (t.fn .pf0).slot = none ∧
    (t.fn .pf0).txLen = 0 ∧ (t.fn .pf0).bme = (s.fn .pf0).bme ∧ t.berths = s.berths ∧ t.out = s.out)) ∧
  (∀ s : State, HostOpen s → s.host.vfEnable = false → CompletesWith (exec (.flr .pf1) s) (fun t => (t.fn .pf1).mbx = .idle ∧
    (t.fn .pf1).slot = none ∧ t.host.vfEnable = false ∧
    (∀ b, (s.berth b).commit = none → (t.berth b).t1Staged = (s.berth b).t1 ∧ (t.berth b).t2Staged = (s.berth b).t2 ∧
      (t.berth b).sitesStaged = (s.berth b).sites))) ∧
  (∀ (s : State) (n : Nat), HostOpen s → s.host.vfEnable = false → CompletesWith (exec (.vfEnableChange true n) s) (fun t =>
    t.host.vfEnable = true ∧ t.host.numVfs = min n 4096 ∧ t.host.linkUp = true ∧ t.berths = s.berths)) ∧
  (∀ s : State, HostOpen s → s.host.vfEnable = true → s.host.numVfs = 0 → s.host.events = [] → CompletesWith (exec (.flr .pf1) s) (fun t =>
    t.host.vfEnable = false ∧ t.host.events = [{ kind := 4, slot := 0, func := fnIx .pf1 }, { kind := 1, slot := 0, func := fnIx .pf1 }])) ∧
  (∀ s : State, HostOpen s → s.host.vfEnable = false → CompletesWith (exec .conventionalReset s) (fun t => (t.fn .pf0).mbx = .idle ∧
    (t.fn .pf1).mbx = .idle ∧ t.host.linkUp = false ∧ t.host.vfEnable = false))

/-- An outstanding translation request of VF b, alone. -/
def Asking (s : State) (b range : Nat) (w : Bool) (r : HostReq) : Prop :=
  HostOpen s ∧ s.host.quarantine = [] ∧ s.host.reqs = [r] ∧ r.fn = b + 2 ∧ r.use = .trans range w ∧ r.stale = false

/-- R528, R546-R554: a translation that is given is cached and its tag freed, one that is refused halts the channel that waits with 0x0E,
and one that nothing asked for is reported; an invalidation drops what it names and is noted, is unsupported with ATS off, and is answered
once nothing it waits for is left; a page response ends its request, a failure blocks further ones, and one that names no request is
reported; a page request not answered in time halts the engine's channel with 0x0E and keeps its index, which is released later -/
def Obligations.Translation : Prop :=
  (∀ (s : State) (b range : Nat) (w : Bool) (r : HostReq) (c : TransCpl), Asking s b range w r → s.ferry.engs = [] → berthChs s b = [] → (s.fn (.vf b)).msixWait = 0 →
    c.status = .ok → c.canRead = true → c.untransOnly = false → 2097152 ≤ c.size → s.host.atc = [] →
    CompletesWith (exec (.translationCompletion (.vf b) r.tag c) s) (fun t => t.host.atc = [atcOf (b + 2) r.addr c] ∧ t.host.reqs = [] ∧
      tget [] t.host.freed (b + 2) = tget [] s.host.freed (b + 2) ++ [r.tag] ∧ t.out = s.out)) ∧
  (∀ (s : State) (b ch range : Nat) (w : Bool) (r : HostReq) (c : TransCpl), Asking s b range w r → s.ferry.engs = [] →
    berthChs s b = [ch] → (s.ch ch).state = .fetching → (s.ch ch).stuck = some range → c.status = .ur →
    CompletesWith (exec (.translationCompletion (.vf b) r.tag c) s) (fun t => (t.ch ch).state = .halted ∧ (t.ch ch).cause = 0x0E ∧
      (∀ e, e ∈ t.host.atc ↔ e ∈ s.host.atc))) ∧
  (∀ (s : State) (b tag : Nat) (c : TransCpl), HostOpen s → s.host.quarantine = [] → s.host.reqs = [] →
    CompletesWith (exec (.translationCompletion (.vf b) tag c) s) (fun t => t.out = .aer (.vf b) 2 :: s.out ∧ t.host = s.host)) ∧
  (∀ (s : State) (b itag base size : Nat), HostOpen s → vfExists s b = true → (s.fn (.vf b)).ats = true →
    CompletesWith (exec (.invalidateRequest (.vf b) itag base size) s) (fun t => t.out = s.out ∧
      (∀ e, e ∈ t.host.atc ↔ e ∈ s.host.atc ∧ ¬(e.fn = b + 2 ∧ e.base < base + size ∧ base < e.base + atcSize e)) ∧
      (∃ v, t.host.invals = s.host.invals ++ [v] ∧ v.fn = b + 2 ∧ v.itag = itag))) ∧
  (∀ (s : State) (b itag base size : Nat), HostOpen s → vfExists s b = true → (s.fn (.vf b)).ats = false →
    exec (.invalidateRequest (.vf b) itag base size) s = .next { s with out := .aer (.vf b) 0 :: s.out }) ∧
  (∀ (s : State) (b : Nat) (v : Inval), HostOpen s → s.host.invals = [v] → v.fn = b + 2 →
    (v.waiting = [] → exec (.invalidateCompletion (.vf b)) s = .next { s with
      host := { s.host with invals := [] }, out := .invalidateCompletion (b + 2) v.itag :: s.out }) ∧
    (v.waiting ≠ [] → exec (.invalidateCompletion (.vf b)) s = .next s)) ∧
  (∀ (s : State) (b : Nat) (p : PageReq), HostOpen s → s.host.pages = [p] → p.fn = b + 2 → p.dead = false → s.ferry.engs = [] →
    berthChs s b = [] → (s.fn (.vf b)).msixWait = 0 → CompletesWith (exec (.prgResponse (.vf b) p.index .success) s) (fun t => t.host.pages = [] ∧ t.out = s.out ∧
      (t.fn (.vf b)).prgFailed = (s.fn (.vf b)).prgFailed ∧ (∀ e ∈ t.host.atc, e ∈ s.host.atc))) ∧
  (∀ (s : State) (b : Nat) (p : PageReq), HostOpen s → s.host.pages = [p] → p.fn = b + 2 → p.dead = false → s.ferry.engs = [] →
    berthChs s b = [] → CompletesWith (exec (.prgResponse (.vf b) p.index .failure) s) (fun t => t.host.pages = [] ∧
      (t.fn (.vf b)).prgFailed = true)) ∧
  (∀ (s : State) (b i : Nat) (r : PrgCode), HostOpen s → s.host.pages = [] → exec (.prgResponse (.vf b) i r) s =
    .next { s with out := .aer (.vf b) 0 :: s.out }) ∧
  (∀ (s : State) (b e : Nat) (p : PageReq) (r : EngRun), accepts s = true → s.host.pages = [p] → p.fn = b + 2 → p.dead = false →
    s.ferry.engs = [(e, r)] → r.wait = .page p.range → 8 ≤ r.ch → r.ch < noCh → chFn s r.ch = b + 2 → berthChs s b = [] →
    CompletesWith (exec (.pageRequestTimeout (.vf b) p.index) s) (fun t => t.host.pages = [{ p with dead := true }] ∧
      (t.ch r.ch).state = .halted ∧ (t.ch r.ch).cause = 0x0E)) ∧
  (∀ (s : State) (b : Nat) (p : PageReq), accepts s = true → s.host.pages = [p] → p.fn = b + 2 → s.ferry.engs = [] → berthChs s b = [] →
    (s.fn (.vf b)).msixWait = 0 → exec (.pageRequestIndexRelease (.vf b) p.index) s = .next (if p.dead then { s with host := { s.host with pages := [] } } else s))


/-! ### The journal, external time and register writes (16, 17) -/

/-- R560, R565-R569, R571-R574, R576-R578: the oldest record goes into the next slot that is still erased, and a COUNTERS record marks the
anchors it has outrun; a failed program leaves a torn record, whose COMMIT stays erased unless the rest of it is whole, is tried once more
and then raises JOURNAL_FAIL with the Flash status and leaves the sector; a full sector is followed by the next, which a failed erase puts
off, and at INDEX 2^32 - 1 by the DROPPED record alone; nothing waiting is nothing done; RING sends an ALARM_NOTIFY where the unit has an
endpoint ID, HOST posts into the fault window, and FLT_CONS is taken inside its range; the hour counts, and the timer writes a COUNTERS
record of a change; JOURNAL_READ answers the records from an event on and raises TAG_BAD for those that fail their tag, COUNTERS the
counters, and TIME_MARK its status, an accepted one spending the nonce and taking an event number. That the one DROPPED record takes the
place of a SECTOR record is the model's choice (log entry 188) -/
def Obligations.Journal : Prop :=
  (∀ (s : State) (r : Bytes) (rest : List Bytes), pilotUp s = true → s.jrn.buffer = r :: rest → journalSectors s ≠ 0 →
    freeSlot s s.jrn.sector s.jrn.slot < 1024 → s.jrn.dropped = none → leAt r 8 2 ≠ 2 →
    exec (.journalRecordCommit .ok) s = .next { s with
      jrn := { s.jrn with
        buffer := rest, slot := freeSlot s s.jrn.sector s.jrn.slot + 1, fails := 0, sectorFails := 0, down := false }
      flash := (flashProgram s (slotAddr s.jrn.sector (freeSlot s s.jrn.sector s.jrn.slot)) r).flash }) ∧
  (∀ (s : State) (r : Bytes) (rest : List Bytes), pilotUp s = true → s.jrn.buffer = r :: rest → journalSectors s ≠ 0 →
    freeSlot s s.jrn.sector s.jrn.slot < 1024 → s.jrn.dropped = none → leAt r 8 2 = 2 →
    CompletesWith (exec (.journalRecordCommit .ok) s) (fun t => t.jrn.buffer = rest ∧
      t.jrn.slot = freeSlot s s.jrn.sector s.jrn.slot + 1 ∧
      t.flash = (flashProgram s (slotAddr s.jrn.sector (freeSlot s s.jrn.sector s.jrn.slot)) r).flash ∧
      (∀ i, i < 6 → tget 0 t.jrn.settled i = leAt r (16 + 4 * i) 4 ∧ (t.jrn.anchors.getLsbD i = true ↔
        anchorCount s i < 128 ∧ anchorCount s i < leAt r (16 + 4 * i) 4 / granule i)))) ∧
  (∀ (s : State) (start : Nat), freeSlot s s.jrn.sector start < 1024 → start ≤ freeSlot s s.jrn.sector start ∧
    (slotBytes s s.jrn.sector (freeSlot s s.jrn.sector start)).all (· == 0xFF) = true ∧
    (∀ k, start ≤ k → k < freeSlot s s.jrn.sector start → (slotBytes s s.jrn.sector k).all (· == 0xFF) = false)) ∧
  (∀ (s : State) (r u : Bytes) (rest : List Bytes) (st : Word), pilotUp s = true → s.jrn.buffer = r :: rest → journalSectors s ≠ 0 →
    freeSlot s s.jrn.sector s.jrn.slot < 1024 → s.jrn.fails = 0 →
    exec (.journalRecordCommit (.failed u st)) s = .next { s with
      jrn := { s.jrn with fails := 1, down := true }
      flash := (flashProgram s (slotAddr s.jrn.sector (freeSlot s s.jrn.sector s.jrn.slot)) (tornRecord r u)).flash }) ∧
  (∀ (r u : Bytes), r.length = 64 → (tornRecord r u).take 60 ≠ r.take 60 → committed (tornRecord r u) = false) ∧
  (∀ (s : State) (r u : Bytes) (rest : List Bytes) (st : Word), pilotUp s = true → s.jrn.buffer = r :: rest → journalSectors s ≠ 0 →
    freeSlot s s.jrn.sector s.jrn.slot < 1024 → s.jrn.fails ≠ 0 → s.pilot.ready = true →
    CompletesWith (exec (.journalRecordCommit (.failed u st)) s) (fun t => t.jrn.fails = 0 ∧ t.jrn.slot = 1024 ∧ t.jrn.down = true ∧
      t.jrn.sectorFails = s.jrn.sectorFails + 1 ∧ t.jrn.sector = s.jrn.sector ∧
      ∃ s', t = record s' 0x0007 (BitVec.ofNat 32 s.jrn.sector) st)) ∧
  (∀ (s : State) (r : Bytes) (rest : List Bytes), pilotUp s = true → s.jrn.buffer = r :: rest → journalSectors s ≠ 0 →
    1024 ≤ freeSlot s s.jrn.sector s.jrn.slot → s.jrn.index < 2 ^ 32 - 1 →
    CompletesWith (exec (.journalRecordCommit .ok) s) (fun t => t.jrn.sector = (s.jrn.sector + 1) % journalSectors s ∧ t.jrn.slot = 1 ∧
      t.jrn.fails = 0 ∧ t.jrn.down = false)) ∧
  (∀ (s : State) (r : Bytes) (rest : List Bytes) (st : Word), pilotUp s = true → s.jrn.buffer = r :: rest → journalSectors s ≠ 0 →
    1024 ≤ freeSlot s s.jrn.sector s.jrn.slot → s.jrn.index < 2 ^ 32 - 1 → s.jrn.fails = 0 →
    exec (.journalRecordCommit (.eraseFailed st)) s = .next { s with jrn := { s.jrn with fails := 1, down := true } }) ∧
  (∀ (s : State) (r : Bytes) (rest : List Bytes) (e : FlashEnd), pilotUp s = true → s.jrn.buffer = r :: rest → journalSectors s ≠ 0 →
    1024 ≤ freeSlot s s.jrn.sector s.jrn.slot → 2 ^ 32 - 1 ≤ s.jrn.index →
    exec (.journalRecordCommit e) s = .next (record s 0x0003 1 0xFFFFFFFF)) ∧
  (∀ (s : State) (e : FlashEnd), pilotUp s = true → s.jrn.buffer = [] → exec (.journalRecordCommit e) s = .next s) ∧
  (∀ s : State, commanded s = true → s.ring.eid ≠ 0 → (∀ k, (tget notifyInit s.ring.notify k).holdoff = false) →
    CompletesWith (exec .ring s) (fun t => (∃ o k c e, Sent s t (.alarmNotify o k c e)) ∧ t.jrn = s.jrn)) ∧
  (∀ s : State, commanded s = true → s.ring.eid = 0 → CompletesWith (exec .ring s) (fun t => t.out = s.out ∧ { t with ring := s.ring } = s)) ∧
  (∀ s : State, commanded s = true → CompletesWith (exec .hostPost s) (fun t => t.jrn.fltProd = s.jrn.fltProd + 1 ∧
    tget [] t.jrn.fltRecs (s.jrn.fltProd.toNat % 256) = mread 0 s.jrn.post 0 64 ∧ t.jrn.fltCons = s.jrn.fltCons ∧
    t.jrn.overrun = (s.jrn.overrun || decide (256 ≤ (s.jrn.fltProd - s.jrn.fltCons).toNat)))) ∧
  (∀ (s : State) (v : Word), HostOpen s → (s.fn .pf0).mse = true → exec (.fltCons v) s = .next { s with
    jrn := if (s.jrn.fltProd - v).toNat ≤ 256 then { s.jrn with fltCons := v } else { s.jrn with overrun := true } }) ∧
  (∀ s : State, pilotUp s = true → exec .powerOnHourTick s = .next { s with jrn := { s.jrn with
    counters := tset s.jrn.counters 1 (tget 0 s.jrn.counters 1 + 1), countersDirty := true } }) ∧
  (∀ s : State, pilotUp s = true → s.jrn.countersDirty = false → exec .countersRecordTimer s = .next s) ∧
  (∀ s : State, pilotUp s = true → s.jrn.countersDirty = true → s.jrn.scanned = true → s.jrn.index < 2 ^ 32 - 1 →
    s.jrn.buffer.length < 256 → CompletesWith (exec .countersRecordTimer s) (fun t => t.jrn.countersDirty = false ∧
      t.jrn.index = s.jrn.index + 1 ∧ (∃ r, t.jrn.buffer = s.jrn.buffer ++ [r] ∧ leAt r 8 2 = 2) ∧ t.jrn.counters = s.jrn.counters)) ∧
  (∀ (s : State) (m : Bytes), pilotUp s = true → m.length ≠ 10 ∨ leAt m 8 2 = 0 ∨ 500 < leAt m 8 2 →
    exec (.journalRead m) s = .next (reply s .pf0 0x30 ([0x01, 0, 0, 0] ++ zeros 63))) ∧
  (∀ (s : State) (m : Bytes), pilotUp s = true → m.length = 10 → 1 ≤ leAt m 8 2 → leAt m 8 2 ≤ 500 →
    ∃ bits : Nat, exec (.journalRead m) s = .next (tagsBad (reply s .pf0 0x30 ([0, 0] ++
      toLe 2 (((allRecords s).filter (fun r => decide (leAt m 0 8 ≤ leAt r 0 8))).take (leAt m 8 2)).length ++ toLe 63 bits ++
      (((allRecords s).filter (fun r => decide (leAt m 0 8 ≤ leAt r 0 8))).take (leAt m 8 2)).flatten))
      (((allRecords s).filter (fun r => decide (leAt m 0 8 ≤ leAt r 0 8))).take (leAt m 8 2)))) ∧
  (∀ s : State, pilotUp s = true → exec (.counters []) s = .next (reply s .pf0 0x33 ([0, 0, 0, 0] ++
    (List.range 6).flatMap (fun i => toLe 4 (tget 0 s.jrn.counters i)) ++
    (List.range 6).map (fun i => BitVec.ofNat 8 (stepCount s.fuse (14 + i))) ++ [s.jrn.anchors.setWidth 8, 0]))) ∧
  (∀ (s : State) (m : Bytes), pilotUp s = true → m ≠ [] → exec (.counters m) s = .next (replyMs s .pf0 0x33 0x05 [])) ∧
  (∀ (s : State) (m : Bytes), pilotUp s = true → m.length ≠ 7472 →
    exec (.timeMark m) s = .next (reply s .pf0 0x32 ([0x04, 0, 0, 0] ++ zeros 8))) ∧
  (∀ (s : State) (m : Bytes), pilotUp s = true → CompletesWith (exec (.timeMark m) s) (fun t =>
    if timeMarkStatus s m = 0 then t.pilot.timeNonce = none ∧
      (s.jrn.scanned = true → s.jrn.index < 2 ^ 32 → t.jrn.index = s.jrn.index + 1)
    else t = reply s .pf0 0x32 ([timeMarkStatus s m, 0, 0, 0] ++ zeros 8))) ∧
  (∀ (s : State) (m : Bytes), m.length = 7472 → allZero (slice m 57 3) = true → leAt m 56 1 ≤ 3 → s.pilot.timeNonce = none →
    timeMarkStatus s m = 0x01)

/-- R575: TIME_NONCE answers a fresh nonce from the DRBG, which replaces the one before it and ends with its 10 s; with DRBG_OK 0 it answers
0x05 and zeros. -/
def Obligations.TimeNonce : Prop :=
  (∀ s : State, pilotUp s = true → s.vault.drbgOk = true → CompletesWith (exec (.timeNonce []) s) (fun t =>
    t = reply { s with pilot := { s.pilot with timeNonce := some (drawBytes s 48), drawn := t.pilot.drawn }, vault := t.vault } .pf0 0x31
      ([0, 0, 0, 0] ++ drawBytes s 48) ∧ (drawBytes s 48).length = 48 ∧ t.pilot.drawn = s.pilot.drawn + 48)) ∧
  (∀ s : State, pilotUp s = true → s.vault.drbgOk = false →
    exec (.timeNonce []) s = .next (reply s .pf0 0x31 ([0x05, 0, 0, 0] ++ zeros 48))) ∧
  (∀ s : State, accepts s = true → exec .timeNonceExpiry s = .next { s with pilot := { s.pilot with timeNonce := none } }) ∧
  (∀ (s : State) (m : Bytes), pilotUp s = true → m ≠ [] → exec (.timeNonce m) s = .next (replyMs s .pf0 0x31 0x05 []))

/-- R7-R9, R202, R343, R508, R517, R527-R529, R537, R581, R582: a register write changes the field it names, by its access code: a live
field at once, a frozen one not while its operation runs, W1C bits cleared, staged fields kept for COMMIT; a store of Pilot's to a block or
the SRAM that is misaligned, to a block that is narrow, or outside the table raises an access fault and nothing else, and one to a hole does
nothing; the host writes 4 or 8 aligned bytes, bytes of the mailbox buffer by their enables, and reads, and any other shape, or Memory Space
Enable 0, is an Unsupported Request; a write to a VF that does not exist does nothing. The numbers of the configuration registers are the
model's (log entry 41) -/
def Obligations.RegisterWrites : Prop :=
  (∀ (s : State) (v : Word), commanded s = true →
    exec (.registerWrite .pilot 0x21000014 v) s = .next { s with fuse := { s.fuse with query := v.setWidth 12 } } ∧
    exec (.registerWrite .pilot 0x21000010 v) s = .next { s with fuse := { s.fuse with
      alarm := s.fuse.alarm &&& ~~~(v.extractLsb' 0 _) } } ∧
    (s.vault.busy = false → exec (.registerWrite .pilot 0x20000008 v) s = .next { s with vault := { s.vault with attr := v } }) ∧
    (s.vault.busy = true → exec (.registerWrite .pilot 0x20000008 v) s = .next { s with vault := { s.vault with err := 0x01 } }) ∧
    exec (.registerWrite .pilot 0x30000020 v) s = .next (s.setPier 0 { s.pier 0 with winPort := v.extractLsb' 10 4, winIndex := v.setWidth 10 }) ∧
    exec (.registerWrite .pilot 0x25000008 v) s =
      .next (if v.getLsbD 0 then { s with power := { s.power with refused := false } } else s)) ∧
  (∀ (s : State) (a : Nat) (v : Word), commanded s = true →
    (a % 4 ≠ 0 ∧ ((sramAt a).isSome = true ∨ (blockAt a).isSome = true)) ∨ a < 0x10000000 ∨ 0x37000000 ≤ a →
    exec (.registerWrite .pilot a v) s = .next { s with pilot := { s.pilot with
      accessFault := some { addr := a, size := 4, store := true, fetch := false, value := v } } }) ∧
  (∀ (s : State) (a : Nat) (v : Word) (half : Bool), commanded s = true → 0x20000000 ≤ a → a < 0x37000000 → blockAt a = none →
    exec (.registerWrite .pilot a v) s = .next s ∧ exec (.registerWrite (.pilotNarrow half) a v) s = .next s) ∧
  (∀ (s : State) (a : Nat) (v : Word) (half : Bool), commanded s = true → (blockAt a).isSome = true →
    exec (.registerWrite (.pilotNarrow half) a v) s = .next { s with pilot := { s.pilot with
      accessFault := some { addr := a, size := if half then 2 else 1, store := true, fetch := false, value := v } } }) ∧
  (∀ (s : State) (a : Nat) (v : Word), commanded s = false → exec (.registerWrite .pilot a v) s = .next s) ∧
  (∀ (s : State) (v : Word), accepts s = true → inserted s = true → mboxOpen s = true →
    exec (.registerWrite .jtag 0x220000C8 v) s = .next { s with lc := { s.lc with mboxLen := v.setWidth 15 } }) ∧
  (∀ (s : State) (a : Nat) (v : Word), accepts s = true → mboxOpen s = false → exec (.registerWrite .jtag a v) s = .next s) ∧
  (∀ (s : State) (f : Func) (v : Word), HostOpen s → fnExists s f = true → (s.fn f).mse = true → exec (.registerWrite (.bar f) 0x104 v) s =
    .next (s.setFn f { s.fn f with txLast := v.getLsbD 9, txLen := v.setWidth 9 })) ∧
  (∀ (s : State) (b c : Nat) (v : Word), HostOpen s → vfExists s b = true → (s.fn (.vf b)).mse = true →
    (s.berth b).state ≠ .rinsing → runCh s b 0 = some c → (s.ch c).state = .idle →
    exec (.registerWrite (.bar (.vf b)) 0x1004 v) s = .next (s.setCh c { s.ch c with
      head := BitVec.ofNat 64 (putHalf (s.ch c).head.toNat false v / 64 * 64), chain := false })) ∧
  (∀ (s : State) (b c : Nat) (v : Word), HostOpen s → vfExists s b = true → (s.fn (.vf b)).mse = true →
    (s.berth b).state ≠ .rinsing → runCh s b 0 = some c → (s.ch c).state = .running →
    exec (.registerWrite (.bar (.vf b)) 0x1004 v) s = .next (s.setCh c (s.ch c))) ∧
  (∀ (s : State) (b a : Nat) (v : Word), accepts s = true → vfExists s b = false →
    exec (.registerWrite (.bar (.vf b)) a v) s = .next s ∧ exec (.registerWrite (.config (.vf b)) a v) s = .next s) ∧
  (∀ (s : State) (f : Func) (v : Word), HostOpen s → fnExists s f = true →
    exec (.registerWrite (.config f) 0 v) s = .next (s.setFn f { s.fn f with mse := v.getLsbD 0 })) ∧
  (∀ (s : State) (f : Func) (v w : Word) (x : Byte), HostOpen s → fnExists s f = true → (s.fn f).mse = true →
    exec (.registerWrite (.barPair f w) 0x200 v) s =
      .next ((s.setFn f { s.fn f with buf := mputWord (s.fn f).buf 0 v }).setFn f { s.fn f with buf := mputWord (mputWord (s.fn f).buf 0 v) 4 w }) ∧
    exec (.registerWrite (.barBytes f [x] 1) 0x200 v) s = .next (s.setFn f { s.fn f with buf := mwrite 0 (s.fn f).buf 0 [x] }) ∧
    exec (.registerWrite (.barBytes f [x] 0) 0x200 v) s = .next (s.setFn f (s.fn f)) ∧
    exec (.registerWrite (.barRead f 4) 0x104 v) s = .next { s with out := .hostCpl f (toLe 4 (mbxRead s f 0x104).toNat) :: s.out }) ∧
  (∀ (s : State) (f : Func) (a : Nat) (v w : Word), HostOpen s → fnExists s f = true → (s.fn f).mse = true →
    (a % 4 ≠ 0 → exec (.registerWrite (.bar f) a v) s = .next { s with out := .aer f 0 :: s.out }) ∧
    (a % 8 ≠ 0 → exec (.registerWrite (.barPair f w) a v) s = .next { s with out := .aer f 0 :: s.out })) ∧
  (∀ (s : State) (f : Func) (a len : Nat) (v : Word), HostOpen s → fnExists s f = true → (s.fn f).mse = false →
    exec (.registerWrite (.bar f) a v) s = .next { s with out := .aer f 0 :: s.out } ∧
    exec (.registerWrite (.barRead f len) a v) s = .next { s with out := .hostUr f :: s.out }) ∧
  (∀ (s : State) (f : Func) (v : Word), HostOpen s → fnExists s f = true → exec (.registerWrite (.configRead f) 0 v) s =
    .next { s with out := .configData f (if (s.fn f).mse then 1 else 0) :: s.out })


/-! ### The whole block -/

/-- R582, R581, R104: a store of 4, 2 or 1 bytes to Pilot SRAM outside the locked code region puts them, low byte first, at its address,
leaves every other byte and the rest of the state alone, and keeps the SRAM's canonical form; a word inside the locked region only raises
the access fault -/
def Obligations.SramStores : Prop :=
  (∀ (s : State) (i : Nat) (v : Word), commanded s = true → i % 4 = 0 → i < 0x200000 →
    (s.pilot.codeLocked = true → s.pilot.codeLen ≤ i) → Memory.wf 0 s.pilot.sram = true →
    CompletesWith (exec (.registerWrite .pilot (0x10000000 + i) v) s) (fun t =>
      Memory.wf 0 t.pilot.sram = true ∧ mread 0 t.pilot.sram i 4 = toLe 4 v.toNat ∧
      (∀ a, a < i ∨ i + 4 ≤ a → mget 0 t.pilot.sram a = mget 0 s.pilot.sram a) ∧
      { t with pilot := { t.pilot with sram := s.pilot.sram } } = s)) ∧
  (∀ (s : State) (i : Nat) (v : Word) (half : Bool), commanded s = true → (half = true → i % 2 = 0) → i < 0x200000 →
    (s.pilot.codeLocked = true → s.pilot.codeLen ≤ i) → Memory.wf 0 s.pilot.sram = true →
    CompletesWith (exec (.registerWrite (.pilotNarrow half) (0x10000000 + i) v) s) (fun t =>
      Memory.wf 0 t.pilot.sram = true ∧
      mread 0 t.pilot.sram i (if half then 2 else 1) = toLe (if half then 2 else 1) v.toNat ∧
      (∀ a, a < i ∨ i + (if half then 2 else 1) ≤ a → mget 0 t.pilot.sram a = mget 0 s.pilot.sram a) ∧
      { t with pilot := { t.pilot with sram := s.pilot.sram } } = s)) ∧
  (∀ (s : State) (i : Nat) (v : Word), commanded s = true → i % 4 = 0 → i < 0x200000 → s.pilot.codeLocked = true →
    i < s.pilot.codeLen → exec (.registerWrite .pilot (0x10000000 + i) v) s = .next { s with pilot := { s.pilot with
      accessFault := some { addr := 0x10000000 + i, size := 4, store := true, fetch := false, value := v } } })

/-- What the spec's tables give at reset: the mailbox function, the channels, the Piers, a link, a berth, the fuse controller and the power
controller read so, and no command waits (R66, R47, R161, R307, R371, R405, R517, R537). -/
def Obligations.ResetState : Prop :=
  State.reset.pending = [] ∧ State.reset.power.domOn = 0xFFFFF ∧ State.reset.power.refused = false ∧ State.reset.fuse.busy = false ∧
  State.reset.vault.busy = false ∧ State.reset.vault.err = 0 ∧ State.reset.lc.busy = false ∧ State.reset.lc.grant = 0 ∧
  State.reset.crypto.busy = false ∧ State.reset.ring.ready = false ∧ State.reset.jrn.fltProd = 0 ∧ State.reset.jrn.fltCons = 0 ∧
  (∀ f, (State.reset.fn f).mbx = .idle ∧ (State.reset.fn f).txLen = 0 ∧ (State.reset.fn f).proto = false) ∧
  (∀ c, (State.reset.ch c).state = .idle ∧ (State.reset.ch c).retry = 3 ∧ (State.reset.ch c).share = 0xFF) ∧
  (∀ n, (State.reset.pier n).err = 0 ∧ (State.reset.pier n).keys = [] ∧ (State.reset.pier n).lastCause = 0) ∧
  (∀ n, (State.reset.link n).link = .down ∧ (State.reset.link n).job = .none ∧ (State.reset.link n).peerLink = 0xFF) ∧
  (∀ b, (State.reset.berth b).state = .free ∧ (State.reset.bp b).entries = [])

/-- Log entry 1 (the model's own queue): with a command at the front of the queue a step is that command on the state with the queue's rest;
an empty queue idles. -/
def Obligations.StepRunsFront : Prop :=
  (∀ (c : Instr) (rest : List Instr) (s : State), s.pending = c :: rest → step s = exec c { s with pending := rest }) ∧
  (∀ s : State, s.pending = [] → step s = .next s)

/-- Every command, in every state and with every operand, answers a next state and leaves the queue of waiting commands as it is; so every
step does, and takes exactly the first command. -/
def Obligations.CommandsComplete : Prop :=
  (∀ (c : Instr) (s : State), CompletesWith (exec c s) (fun t => t.pending = s.pending)) ∧
  (∀ s : State, CompletesWith (step s) (fun t => t.pending = s.pending.drop 1))

/-- The domains that lose power only with the package are on. -/
def AlwaysOn (s : State) : Prop :=
  s.power.domOn.getLsbD 0 = true ∧ s.power.domOn.getLsbD 1 = true ∧ s.power.domOn.getLsbD 19 = true

/-- R43, R44, R47: no step, whatever command it runs and in whatever state, switches off domain 0, 1 or 19. -/
def Obligations.AlwaysOnDomains : Prop :=
  ∀ s t : State, AlwaysOn s → step s = .next t → AlwaysOn t

/-- R46, R47: domains 0, 1 and 19 are on at reset, so the invariant of AlwaysOnDomains holds there. -/
def Obligations.AlwaysOnAtReset : Prop := AlwaysOn State.reset
end

