-- ==== Sys2Proof/Laws/Tables.lean ====
section
/-! SUPPORT. The laws of tables and byte memories: a read after a write, and the forms that every operation keeps. -/

namespace Sys2Proof.Machine

/-! ### Tables -/

@[simp] theorem tget_tset_self {α : Type} (d : α) (k : Nat) (v : α) : ∀ t : Tbl α, tget d (tset t k v) k = v
  | [] => by simp [tset, tget]
  | (j, w) :: t => by
    unfold tset
    split
    · simp [tget]
    · split
      · simp [tget]
      · simp [tget, Ne.symm ‹_›, tget_tset_self d k v t]

@[simp] theorem tget_tset_ne {α : Type} (d : α) {k j : Nat} (v : α) (h : j ≠ k) :
    ∀ t : Tbl α, tget d (tset t k v) j = tget d t j
  | [] => by simp [tset, tget, Ne.symm h]
  | (i, w) :: t => by
    unfold tset
    split
    · simp [tget, Ne.symm h]
    · split
      · rename_i e; subst e; simp [tget, Ne.symm h]
      · simp [tget, tget_tset_ne d v h t]

theorem tget_tset {α : Type} (d : α) (t : Tbl α) (k j : Nat) (v : α) : tget d (tset t k v) j = if j = k then v else tget d t j := by
  by_cases h : j = k
  · subst h; simp
  · simp [h]

@[simp] theorem tfind_tset_self {α : Type} (k : Nat) (v : α) : ∀ t : Tbl α, tfind (tset t k v) k = some v
  | [] => by simp [tset, tfind]
  | (j, w) :: t => by
    unfold tset
    split
    · simp [tfind]
    · split
      · simp [tfind]
      · simp [tfind, Ne.symm ‹_›, tfind_tset_self k v t]

@[simp] theorem tfind_tset_ne {α : Type} {k j : Nat} (v : α) (h : j ≠ k) : ∀ t : Tbl α, tfind (tset t k v) j = tfind t j
  | [] => by simp [tset, tfind, Ne.symm h]
  | (i, w) :: t => by
    unfold tset
    split
    · simp [tfind, Ne.symm h]
    · split
      · rename_i e; subst e; simp [tfind, Ne.symm h]
      · simp [tfind, tfind_tset_ne v h t]

theorem tget_eq_tfind {α : Type} (d : α) (k : Nat) : ∀ t : Tbl α, tget d t k = (tfind t k).getD d
  | [] => rfl
  | (j, v) :: t => by
    by_cases h : j = k
    · simp [tget, tfind, h]
    · simp [tget, tfind, h, tget_eq_tfind d k t]

@[simp] theorem tset_tset {α : Type} (k : Nat) (v w : α) : ∀ t : Tbl α, tset (tset t k v) k w = tset t k w
  | [] => by simp [tset]
  | (j, x) :: t => by
    by_cases h : k < j
    · simp [tset, h]
    · by_cases e : k = j
      · simp [tset, e]
      · simp [tset, h, e, tset_tset k v w t]

theorem tget_tmod {α : Type} (d : α) (t : Tbl α) (k j : Nat) (f : α → α) :
    tget d (tmod d t k f) j = if j = k then f (tget d t k) else tget d t j := tget_tset d t k j _

@[simp] theorem tget_tdel_ne {α : Type} (d : α) {k j : Nat} (h : j ≠ k) : ∀ t : Tbl α, tget d (tdel t k) j = tget d t j
  | [] => rfl
  | (i, v) :: t => by
    unfold tdel
    split
    · rename_i e; subst e; simp [tget, Ne.symm h]
    · simp [tget, tget_tdel_ne d h t]

@[simp] theorem tfind_tdel_ne {α : Type} {k j : Nat} (h : j ≠ k) : ∀ t : Tbl α, tfind (tdel t k) j = tfind t j
  | [] => rfl
  | (i, v) :: t => by
    unfold tdel
    split
    · rename_i e; subst e; simp [tfind, Ne.symm h]
    · simp [tfind, tfind_tdel_ne h t]

/-- In a sorted table a number below the first is not listed. -/
theorem tfind_below {α : Type} {k j : Nat} {v : α} : ∀ {t : Tbl α}, tsorted ((j, v) :: t) = true → k < j → tfind ((j, v) :: t) k = none
  | [], _, h => by simp [tfind, Nat.ne_of_gt h]
  | (i, w) :: t, hs, h => by
    simp only [tsorted, Bool.and_eq_true, decide_eq_true_eq] at hs
    have := tfind_below (t := t) (v := w) hs.2 (Nat.lt_trans h hs.1)
    unfold tfind
    simp [Nat.ne_of_gt h, this]

theorem tsorted_tail {α : Type} {j : Nat} {v : α} : ∀ {t : Tbl α}, tsorted ((j, v) :: t) = true → tsorted t = true
  | [], _ => rfl
  | (_, _) :: _, h => by simp only [tsorted, Bool.and_eq_true] at h; exact h.2

/-- A deleted entry of a sorted table is not listed. -/
theorem tfind_tdel_self {α : Type} (k : Nat) : ∀ t : Tbl α, tsorted t = true → tfind (tdel t k) k = none
  | [], _ => rfl
  | [(j, v)], _ => by
    by_cases h : j = k
    · simp [tdel, h, tfind]
    · simp [tdel, h, tfind]
  | (j, v) :: (i, w) :: t, hs => by
    have ih := tfind_tdel_self k ((i, w) :: t) (tsorted_tail hs)
    simp only [tsorted, Bool.and_eq_true, decide_eq_true_eq] at hs
    by_cases h : j = k
    · subst h
      simp only [tdel, if_true]
      exact tfind_below hs.2 hs.1
    · rw [tdel]
      simp only [h, if_false]
      rw [tfind]
      simp [h, ih]

theorem tsorted_cons {α : Type} {j k : Nat} {v w : α} : ∀ {t : Tbl α}, j < k → tsorted ((k, w) :: t) = true → tsorted ((j, v) :: (k, w) :: t) = true
  | _, h, ht => by simp [tsorted, h, ht]

/-- The first number of a table after a write. -/
theorem tset_head {α : Type} (k : Nat) (v : α) (j : Nat) (w : α) (t : Tbl α) :
    ∃ u r, tset ((j, w) :: t) k v = (min k j, u) :: r := by
  unfold tset
  split
  · exact ⟨v, (j, w) :: t, by rw [Nat.min_eq_left (Nat.le_of_lt ‹_›)]⟩
  · split
    · rename_i e; subst e; exact ⟨v, t, by simp⟩
    · exact ⟨w, tset t k v, by rw [Nat.min_eq_right (by omega)]⟩

/-- A write keeps the numbers rising. -/
theorem tsorted_tset {α : Type} (k : Nat) (v : α) : ∀ t : Tbl α, tsorted t = true → tsorted (tset t k v) = true
  | [], _ => rfl
  | [(j, w)], _ => by
    unfold tset
    split
    · simp [tsorted, *]
    · split
      · rfl
      · simp only [tset, tsorted, Bool.and_true, decide_eq_true_eq]; omega
  | (j, w) :: (i, x) :: t, hs => by
    have ih := tsorted_tset k v ((i, x) :: t) (tsorted_tail hs)
    simp only [tsorted, Bool.and_eq_true, decide_eq_true_eq] at hs
    unfold tset
    split
    · simp [tsorted, *]
    · split
      · rename_i e; subst e; simp [tsorted, hs]
      · obtain ⟨u, r, e⟩ := tset_head k v i x t
        rw [e] at ih ⊢
        exact tsorted_cons (by omega) ih

/-! ### Byte memories -/

theorem wf_tail {d : Byte} {c : Host.Cell} : ∀ {t : List Host.Cell}, Memory.wf d (c :: t) = true → Memory.wf d t = true
  | [], _ => rfl
  | _ :: _, h => by simp only [Memory.wf, Bool.and_eq_true] at h; exact h.2

/-- In a memory in canonical form an address below the first reads as the default. -/
theorem mget_below {d : Byte} {a j : Nat} {v : Byte} : ∀ {t : List Host.Cell}, Memory.wf d ((j, v) :: t) = true → a < j →
    mget d ((j, v) :: t) a = d
  | [], _, h => by simp [mget, Nat.ne_of_gt h]
  | (i, w) :: t, hs, h => by
    simp only [Memory.wf, Bool.and_eq_true, decide_eq_true_eq] at hs
    have := mget_below (t := t) (v := w) hs.2 (Nat.lt_trans h hs.1.2)
    rw [mget, if_neg (Nat.ne_of_gt h)]
    exact this

/-- The same past the head. -/
theorem mget_tail {d : Byte} {j : Nat} {v : Byte} : ∀ {t : List Host.Cell}, Memory.wf d ((j, v) :: t) = true → mget d t j = d
  | [], _ => rfl
  | (i, w) :: t, hs => by
    simp only [Memory.wf, Bool.and_eq_true, decide_eq_true_eq] at hs
    exact mget_below hs.2 hs.1.2

/-- A read of the byte written. -/
theorem mget_mset_self (d : Byte) (a : Nat) (v : Byte) : ∀ m : List Host.Cell, Memory.wf d m = true → mget d (mset d m a v) a = v
  | [], _ => by
    by_cases h : v = d
    · simp [mset, mget, h]
    · simp [mset, mget, h]
  | (j, w) :: t, hs => by
    unfold mset
    split
    · rename_i hlt
      by_cases h : v = d
      · simp only [h, if_true]; exact mget_below hs hlt
      · simp [h, mget]
    · split
      · rename_i e; subst e
        by_cases h : v = d
        · simp only [h, if_true]; exact mget_tail hs
        · simp [h, mget]
      · rename_i hne
        rw [mget, if_neg (Ne.symm hne)]
        exact mget_mset_self d a v t (wf_tail hs)

/-- A read of any other byte. -/
@[simp] theorem mget_mset_ne (d : Byte) {a b : Nat} (v : Byte) (h : b ≠ a) : ∀ m : List Host.Cell, mget d (mset d m a v) b = mget d m b
  | [] => by
    by_cases e : v = d
    · simp [mset, e]
    · simp [mset, mget, e, Ne.symm h]
  | (j, w) :: t => by
    unfold mset
    split
    · by_cases e : v = d
      · simp [e]
      · simp [e, mget, Ne.symm h]
    · split
      · rename_i e; subst e
        by_cases e : v = d
        · simp [e, mget, Ne.symm h]
        · simp [e, mget, Ne.symm h]
      · simp [mget, mget_mset_ne d v h t]

theorem wf_cons {d : Byte} {j k : Nat} {v w : Byte} {t : List Host.Cell} (hv : v ≠ d) (h : j < k) (ht : Memory.wf d ((k, w) :: t) = true) :
    Memory.wf d ((j, v) :: (k, w) :: t) = true := by simp [Memory.wf, hv, h, ht]

theorem wf_head {d : Byte} {j : Nat} {v : Byte} : ∀ {t : List Host.Cell}, Memory.wf d ((j, v) :: t) = true → v ≠ d
  | [], h => by simpa [Memory.wf] using h
  | _ :: _, h => by simp only [Memory.wf, Bool.and_eq_true, bne_iff_ne] at h; exact h.1.1

/-- Every address of a memory after a write above its floor stays above it. -/
theorem wf_put {d : Byte} {j : Nat} {w : Byte} (hw : w ≠ d) : ∀ {m : List Host.Cell}, Memory.wf d m = true → (∀ c ∈ m, j < c.1) →
    Memory.wf d ((j, w) :: m) = true
  | [], _, _ => by simp [Memory.wf, hw]
  | (k, x) :: t, hm, h => wf_cons hw (h (k, x) (by simp)) hm

theorem mset_mem (d : Byte) (a : Nat) (v : Byte) : ∀ (m : List Host.Cell) (c : Host.Cell), c ∈ mset d m a v → c ∈ m ∨ c.1 = a
  | [], c, h => by
    by_cases e : v = d
    · simp [mset, e] at h
    · simp only [mset, e, if_false, List.mem_singleton] at h; exact .inr (by rw [h])
  | (j, w) :: t, c, h => by
    unfold mset at h
    split at h
    · by_cases e : v = d
      · simp only [e, if_true] at h; exact .inl h
      · simp only [e, if_false, List.mem_cons] at h
        rcases h with rfl | h
        · exact .inr rfl
        · exact .inl (by simpa using h)
    · split at h
      · by_cases e : v = d
        · simp only [e, if_true] at h; exact .inl (List.mem_cons_of_mem _ h)
        · simp only [e, if_false, List.mem_cons] at h
          rcases h with rfl | h
          · exact .inr rfl
          · exact .inl (List.mem_cons_of_mem _ h)
      · simp only [List.mem_cons] at h
        rcases h with rfl | h
        · exact .inl (by simp)
        · exact (mset_mem d a v t c h).imp (List.mem_cons_of_mem _) id

theorem wf_above {d : Byte} {j : Nat} {v : Byte} : ∀ {t : List Host.Cell}, Memory.wf d ((j, v) :: t) = true → ∀ c ∈ t, j < c.1
  | [], _, _, h => by simp at h
  | (k, w) :: t, hs, c, h => by
    simp only [Memory.wf, Bool.and_eq_true, decide_eq_true_eq] at hs
    simp only [List.mem_cons] at h
    rcases h with rfl | h
    · exact hs.1.2
    · exact Nat.lt_trans hs.1.2 (wf_above hs.2 c h)

/-- A write of one byte keeps the canonical form. -/
theorem mset_wf (d : Byte) (a : Nat) (v : Byte) : ∀ m : List Host.Cell, Memory.wf d m = true → Memory.wf d (mset d m a v) = true
  | [], _ => by
    by_cases h : v = d
    · simp [mset, h, Memory.wf]
    · simp [mset, h, Memory.wf]
  | (j, w) :: t, hs => by
    unfold mset
    split
    · rename_i hlt
      by_cases h : v = d
      · simpa [h] using hs
      · simp only [h, if_false]; exact wf_cons h hlt hs
    · split
      · rename_i e; subst e
        by_cases h : v = d
        · simp only [h, if_true]; exact wf_tail hs
        · simp only [h, if_false]; exact wf_put h (wf_tail hs) (wf_above hs)
      · refine wf_put (wf_head hs) (mset_wf d a v t (wf_tail hs)) (fun c hc => ?_)
        rcases mset_mem d a v t c hc with h | h
        · exact wf_above hs c h
        · omega

/-- A write of a string keeps the canonical form. -/
theorem mwrite_wf (d : Byte) : ∀ (b : Bytes) (m : List Host.Cell) (a : Nat), Memory.wf d m = true → Memory.wf d (mwrite d m a b) = true
  | [], _, _, h => h
  | x :: b, m, a, h => mwrite_wf d b _ (a + 1) (mset_wf d a x m h)

theorem mputWord_wf (m : List Host.Cell) (a : Nat) (v : Word) (h : Memory.wf 0 m = true) : Memory.wf 0 (mputWord m a v) = true := mwrite_wf 0 _ m a h

theorem mOf_wf (b : Bytes) : Memory.wf 0 (mOf b) = true := mwrite_wf 0 b [] 0 rfl

/-- An erasure keeps the canonical form. -/
theorem filter_wf (d : Byte) (p : Host.Cell → Bool) : ∀ m : List Host.Cell, Memory.wf d m = true → Memory.wf d (m.filter p) = true
  | [], _ => rfl
  | (j, v) :: t, h => by
    have ih := filter_wf d p t (wf_tail h)
    by_cases hp : p (j, v) = true
    · rw [List.filter_cons_of_pos hp]
      exact wf_put (wf_head h) ih (fun c hc => wf_above h c (List.mem_filter.mp hc).1)
    · rw [List.filter_cons_of_neg hp]; exact ih

theorem merase_wf (d : Byte) (m : List Host.Cell) (lo hi : Nat) (h : Memory.wf d m = true) : Memory.wf d (merase m lo hi) = true :=
  filter_wf d _ m h

/-- A write leaves every byte outside it. -/
theorem mget_mwrite_out (d : Byte) : ∀ (b : Bytes) (m : List Host.Cell) (a i : Nat), i < a ∨ a + b.length ≤ i →
    mget d (mwrite d m a b) i = mget d m i
  | [], _, _, _, _ => rfl
  | x :: b, m, a, i, h => by
    rw [mwrite, mget_mwrite_out d b _ (a + 1) i (by simp only [List.length_cons] at h; omega)]
    exact mget_mset_ne d x (by simp only [List.length_cons] at h; omega) m

/-- A byte inside a write reads as written. -/
theorem mget_mwrite_in (d : Byte) : ∀ (b : Bytes) (m : List Host.Cell) (a i : Nat), Memory.wf d m = true → i < b.length →
    mget d (mwrite d m a b) (a + i) = b.getD i 0
  | [], _, _, _, _, h => by simp at h
  | x :: b, m, a, 0, hm, _ => by
    rw [Nat.add_zero, mwrite, mget_mwrite_out d b _ (a + 1) a (by omega)]
    simpa using mget_mset_self d a x m hm
  | x :: b, m, a, i + 1, hm, h => by
    rw [mwrite, show a + (i + 1) = (a + 1) + i by omega,
      mget_mwrite_in d b _ (a + 1) i (mset_wf d a x m hm) (by simpa using h)]
    simp

/-- A string written reads back. -/
theorem mread_mwrite (d : Byte) (b : Bytes) (m : List Host.Cell) (a : Nat) (h : Memory.wf d m = true) :
    mread d (mwrite d m a b) a b.length = b := by
  apply List.ext_getElem
  · simp [mread]
  · intro i h1 h2
    have := mget_mwrite_in d b m a i h h2
    simp only [mread, List.getElem_map, List.getElem_range, this]
    simp [List.getD_eq_getElem?_getD, List.getElem?_eq_getElem h2]

@[simp] theorem toLe_length (n : Nat) : ∀ v, (toLe n v).length = n := by
  induction n with
  | zero => intro v; rfl
  | succ n ih => intro v; simp [toLe, ih]

@[simp] theorem zeros_length (n : Nat) : (zeros n).length = n := by simp [zeros]
@[simp] theorem mread_length (d : Byte) (m : List Host.Cell) (a n : Nat) : (mread d m a n).length = n := by simp [mread]

end Sys2Proof.Machine
end

