-- ==== Sys2Proof/Laws/State.lean ====
section
/-! SUPPORT. The laws of the numbered parts of the state: what one update leaves in the part it names, in every other part of
its kind, and in every other field. -/

namespace Sys2Proof.Machine

variable (s : State)

/-! ### The part written -/

@[simp] theorem State.setIsland_island (i : Island) (x : IslandSt) : (s.setIsland i x).island i = x := by simp [State.setIsland, State.island]
@[simp] theorem State.setIsland_island_ne (i : Island) (x : IslandSt) (j : Island) (h : islandIx j ≠ islandIx i) : (s.setIsland i x).island j = s.island j := by
  simp [State.setIsland, State.island, h]
@[simp] theorem State.setIsland_setIsland (i : Island) (x : IslandSt) (y : IslandSt) : (s.setIsland i x).setIsland i y = s.setIsland i y := by
  simp [State.setIsland]
@[simp] theorem State.setSite_site (k : Nat) (x : Site) : (s.setSite k x).site k = x := by simp [State.setSite, State.site]
@[simp] theorem State.setSite_site_ne (k : Nat) (x : Site) (j : Nat) (h : j ≠ k) : (s.setSite k x).site j = s.site j := by
  simp [State.setSite, State.site, h]
@[simp] theorem State.setSite_setSite (k : Nat) (x : Site) (y : Site) : (s.setSite k x).setSite k y = s.setSite k y := by
  simp [State.setSite]
@[simp] theorem State.setBerth_berth (b : Nat) (x : Berth) : (s.setBerth b x).berth b = x := by simp [State.setBerth, State.berth]
@[simp] theorem State.setBerth_berth_ne (b : Nat) (x : Berth) (j : Nat) (h : j ≠ b) : (s.setBerth b x).berth j = s.berth j := by
  simp [State.setBerth, State.berth, h]
@[simp] theorem State.setBerth_setBerth (b : Nat) (x : Berth) (y : Berth) : (s.setBerth b x).setBerth b y = s.setBerth b y := by
  simp [State.setBerth]
@[simp] theorem State.setFn_fn (f : Func) (x : HostFn) : (s.setFn f x).fn f = x := by simp [State.setFn, State.fn]
@[simp] theorem State.setFn_fn_ne (f : Func) (x : HostFn) (j : Func) (h : fnIx j ≠ fnIx f) : (s.setFn f x).fn j = s.fn j := by
  simp [State.setFn, State.fn, h]
@[simp] theorem State.setFn_setFn (f : Func) (x : HostFn) (y : HostFn) : (s.setFn f x).setFn f y = s.setFn f y := by
  simp [State.setFn]
@[simp] theorem State.setCh_ch (c : Nat) (x : FerryCh) : (s.setCh c x).ch c = x := by simp [State.setCh, State.ch, modFerry]
@[simp] theorem State.setCh_ch_ne (c : Nat) (x : FerryCh) (j : Nat) (h : j ≠ c) : (s.setCh c x).ch j = s.ch j := by
  simp [State.setCh, State.ch, h, modFerry]
@[simp] theorem State.setCh_setCh (c : Nat) (x : FerryCh) (y : FerryCh) : (s.setCh c x).setCh c y = s.setCh c y := by
  simp [State.setCh, modFerry]
@[simp] theorem State.setPier_pier (n : Nat) (x : PierSt) : (s.setPier n x).pier n = x := by simp [State.setPier, State.pier]
@[simp] theorem State.setPier_pier_ne (n : Nat) (x : PierSt) (j : Nat) (h : j ≠ n) : (s.setPier n x).pier j = s.pier j := by
  simp [State.setPier, State.pier, h]
@[simp] theorem State.setPier_setPier (n : Nat) (x : PierSt) (y : PierSt) : (s.setPier n x).setPier n y = s.setPier n y := by
  simp [State.setPier]
@[simp] theorem State.setPgroup_pgroup (g : Nat) (x : PierGroup) : (s.setPgroup g x).pgroup g = x := by simp [State.setPgroup, State.pgroup]
@[simp] theorem State.setPgroup_pgroup_ne (g : Nat) (x : PierGroup) (j : Nat) (h : j ≠ g) : (s.setPgroup g x).pgroup j = s.pgroup j := by
  simp [State.setPgroup, State.pgroup, h]
@[simp] theorem State.setPgroup_setPgroup (g : Nat) (x : PierGroup) (y : PierGroup) : (s.setPgroup g x).setPgroup g y = s.setPgroup g y := by
  simp [State.setPgroup]
@[simp] theorem State.setLink_link (n : Nat) (x : GwLink) : (s.setLink n x).link n = x := by simp [State.setLink, State.link]
@[simp] theorem State.setLink_link_ne (n : Nat) (x : GwLink) (j : Nat) (h : j ≠ n) : (s.setLink n x).link j = s.link j := by
  simp [State.setLink, State.link, h]
@[simp] theorem State.setLink_setLink (n : Nat) (x : GwLink) (y : GwLink) : (s.setLink n x).setLink n y = s.setLink n y := by
  simp [State.setLink]
@[simp] theorem State.setGgroup_ggroup (g : Nat) (x : GwGroup) : (s.setGgroup g x).ggroup g = x := by simp [State.setGgroup, State.ggroup]
@[simp] theorem State.setGgroup_ggroup_ne (g : Nat) (x : GwGroup) (j : Nat) (h : j ≠ g) : (s.setGgroup g x).ggroup j = s.ggroup j := by
  simp [State.setGgroup, State.ggroup, h]
@[simp] theorem State.setGgroup_setGgroup (g : Nat) (x : GwGroup) (y : GwGroup) : (s.setGgroup g x).setGgroup g y = s.setGgroup g y := by
  simp [State.setGgroup]
@[simp] theorem State.setBp_bp (b : Nat) (x : BerthPress) : (s.setBp b x).bp b = x := by simp [State.setBp, State.bp, modPress]
@[simp] theorem State.setBp_bp_ne (b : Nat) (x : BerthPress) (j : Nat) (h : j ≠ b) : (s.setBp b x).bp j = s.bp j := by
  simp [State.setBp, State.bp, h, modPress]
@[simp] theorem State.setBp_setBp (b : Nat) (x : BerthPress) (y : BerthPress) : (s.setBp b x).setBp b y = s.setBp b y := by
  simp [State.setBp, modPress]

/-! ### Every other field and part -/

@[simp] theorem State.setIsland_pins (i : Island) (x : IslandSt) : (s.setIsland i x).pins = s.pins := rfl
@[simp] theorem State.setIsland_ring (i : Island) (x : IslandSt) : (s.setIsland i x).ring = s.ring := rfl
@[simp] theorem State.setIsland_power (i : Island) (x : IslandSt) : (s.setIsland i x).power = s.power := rfl
@[simp] theorem State.setIsland_pilot (i : Island) (x : IslandSt) : (s.setIsland i x).pilot = s.pilot := rfl
@[simp] theorem State.setIsland_board (i : Island) (x : IslandSt) : (s.setIsland i x).board = s.board := rfl
@[simp] theorem State.setIsland_fuse (i : Island) (x : IslandSt) : (s.setIsland i x).fuse = s.fuse := rfl
@[simp] theorem State.setIsland_lc (i : Island) (x : IslandSt) : (s.setIsland i x).lc = s.lc := rfl
@[simp] theorem State.setIsland_vault (i : Island) (x : IslandSt) : (s.setIsland i x).vault = s.vault := rfl
@[simp] theorem State.setIsland_crypto (i : Island) (x : IslandSt) : (s.setIsland i x).crypto = s.crypto := rfl
@[simp] theorem State.setIsland_sessions (i : Island) (x : IslandSt) : (s.setIsland i x).sessions = s.sessions := rfl
@[simp] theorem State.setIsland_update (i : Island) (x : IslandSt) : (s.setIsland i x).update = s.update := rfl
@[simp] theorem State.setIsland_jrn (i : Island) (x : IslandSt) : (s.setIsland i x).jrn = s.jrn := rfl
@[simp] theorem State.setIsland_flash (i : Island) (x : IslandSt) : (s.setIsland i x).flash = s.flash := rfl
@[simp] theorem State.setIsland_berths (i : Island) (x : IslandSt) : (s.setIsland i x).berths = s.berths := rfl
@[simp] theorem State.setIsland_cleanMap (i : Island) (x : IslandSt) : (s.setIsland i x).cleanMap = s.cleanMap := rfl
@[simp] theorem State.setIsland_fns (i : Island) (x : IslandSt) : (s.setIsland i x).fns = s.fns := rfl
@[simp] theorem State.setIsland_host (i : Island) (x : IslandSt) : (s.setIsland i x).host = s.host := rfl
@[simp] theorem State.setIsland_ferry (i : Island) (x : IslandSt) : (s.setIsland i x).ferry = s.ferry := rfl
@[simp] theorem State.setIsland_cover (i : Island) (x : IslandSt) : (s.setIsland i x).cover = s.cover := rfl
@[simp] theorem State.setIsland_piers (i : Island) (x : IslandSt) : (s.setIsland i x).piers = s.piers := rfl
@[simp] theorem State.setIsland_pgroups (i : Island) (x : IslandSt) : (s.setIsland i x).pgroups = s.pgroups := rfl
@[simp] theorem State.setIsland_reports (i : Island) (x : IslandSt) : (s.setIsland i x).reports = s.reports := rfl
@[simp] theorem State.setIsland_lanes (i : Island) (x : IslandSt) : (s.setIsland i x).lanes = s.lanes := rfl
@[simp] theorem State.setIsland_links (i : Island) (x : IslandSt) : (s.setIsland i x).links = s.links := rfl
@[simp] theorem State.setIsland_ggroups (i : Island) (x : IslandSt) : (s.setIsland i x).ggroups = s.ggroups := rfl
@[simp] theorem State.setIsland_crossing (i : Island) (x : IslandSt) : (s.setIsland i x).crossing = s.crossing := rfl
@[simp] theorem State.setIsland_press (i : Island) (x : IslandSt) : (s.setIsland i x).press = s.press := rfl
@[simp] theorem State.setIsland_out (i : Island) (x : IslandSt) : (s.setIsland i x).out = s.out := rfl
@[simp] theorem State.setIsland_pending (i : Island) (x : IslandSt) : (s.setIsland i x).pending = s.pending := rfl
@[simp] theorem State.setIsland_site (i : Island) (x : IslandSt) (j : Nat) : (s.setIsland i x).site j = s.site j := rfl
@[simp] theorem State.setIsland_berth (i : Island) (x : IslandSt) (j : Nat) : (s.setIsland i x).berth j = s.berth j := rfl
@[simp] theorem State.setIsland_record (i : Island) (x : IslandSt) (j : Nat) : (s.setIsland i x).record j = s.record j := rfl
@[simp] theorem State.setIsland_slot (i : Island) (x : IslandSt) (j : Nat) : (s.setIsland i x).slot j = s.slot j := rfl
@[simp] theorem State.setIsland_shadow (i : Island) (x : IslandSt) (j : Nat) : (s.setIsland i x).shadow j = s.shadow j := rfl
@[simp] theorem State.setIsland_fn (i : Island) (x : IslandSt) (j : Func) : (s.setIsland i x).fn j = s.fn j := rfl
@[simp] theorem State.setIsland_hslot (i : Island) (x : IslandSt) (j : Nat) : (s.setIsland i x).hslot j = s.hslot j := rfl
@[simp] theorem State.setIsland_ch (i : Island) (x : IslandSt) (j : Nat) : (s.setIsland i x).ch j = s.ch j := rfl
@[simp] theorem State.setIsland_chMap (i : Island) (x : IslandSt) (j : Nat) : (s.setIsland i x).chMap j = s.chMap j := rfl
@[simp] theorem State.setIsland_pch (i : Island) (x : IslandSt) (j : Nat) : (s.setIsland i x).pch j = s.pch j := rfl
@[simp] theorem State.setIsland_pier (i : Island) (x : IslandSt) (j : Nat) : (s.setIsland i x).pier j = s.pier j := rfl
@[simp] theorem State.setIsland_pgroup (i : Island) (x : IslandSt) (j : Nat) : (s.setIsland i x).pgroup j = s.pgroup j := rfl
@[simp] theorem State.setIsland_link (i : Island) (x : IslandSt) (j : Nat) : (s.setIsland i x).link j = s.link j := rfl
@[simp] theorem State.setIsland_ggroup (i : Island) (x : IslandSt) (j : Nat) : (s.setIsland i x).ggroup j = s.ggroup j := rfl
@[simp] theorem State.setIsland_bp (i : Island) (x : IslandSt) (j : Nat) : (s.setIsland i x).bp j = s.bp j := rfl
@[simp] theorem State.setIsland_array (i : Island) (x : IslandSt) (j : Nat) : (s.setIsland i x).array j = s.array j := rfl
@[simp] theorem State.setSite_pins (k : Nat) (x : Site) : (s.setSite k x).pins = s.pins := rfl
@[simp] theorem State.setSite_ring (k : Nat) (x : Site) : (s.setSite k x).ring = s.ring := rfl
@[simp] theorem State.setSite_power (k : Nat) (x : Site) : (s.setSite k x).power = s.power := rfl
@[simp] theorem State.setSite_isl (k : Nat) (x : Site) : (s.setSite k x).isl = s.isl := rfl
@[simp] theorem State.setSite_pilot (k : Nat) (x : Site) : (s.setSite k x).pilot = s.pilot := rfl
@[simp] theorem State.setSite_fuse (k : Nat) (x : Site) : (s.setSite k x).fuse = s.fuse := rfl
@[simp] theorem State.setSite_lc (k : Nat) (x : Site) : (s.setSite k x).lc = s.lc := rfl
@[simp] theorem State.setSite_vault (k : Nat) (x : Site) : (s.setSite k x).vault = s.vault := rfl
@[simp] theorem State.setSite_crypto (k : Nat) (x : Site) : (s.setSite k x).crypto = s.crypto := rfl
@[simp] theorem State.setSite_sessions (k : Nat) (x : Site) : (s.setSite k x).sessions = s.sessions := rfl
@[simp] theorem State.setSite_update (k : Nat) (x : Site) : (s.setSite k x).update = s.update := rfl
@[simp] theorem State.setSite_jrn (k : Nat) (x : Site) : (s.setSite k x).jrn = s.jrn := rfl
@[simp] theorem State.setSite_flash (k : Nat) (x : Site) : (s.setSite k x).flash = s.flash := rfl
@[simp] theorem State.setSite_berths (k : Nat) (x : Site) : (s.setSite k x).berths = s.berths := rfl
@[simp] theorem State.setSite_cleanMap (k : Nat) (x : Site) : (s.setSite k x).cleanMap = s.cleanMap := rfl
@[simp] theorem State.setSite_fns (k : Nat) (x : Site) : (s.setSite k x).fns = s.fns := rfl
@[simp] theorem State.setSite_host (k : Nat) (x : Site) : (s.setSite k x).host = s.host := rfl
@[simp] theorem State.setSite_ferry (k : Nat) (x : Site) : (s.setSite k x).ferry = s.ferry := rfl
@[simp] theorem State.setSite_cover (k : Nat) (x : Site) : (s.setSite k x).cover = s.cover := rfl
@[simp] theorem State.setSite_piers (k : Nat) (x : Site) : (s.setSite k x).piers = s.piers := rfl
@[simp] theorem State.setSite_pgroups (k : Nat) (x : Site) : (s.setSite k x).pgroups = s.pgroups := rfl
@[simp] theorem State.setSite_reports (k : Nat) (x : Site) : (s.setSite k x).reports = s.reports := rfl
@[simp] theorem State.setSite_lanes (k : Nat) (x : Site) : (s.setSite k x).lanes = s.lanes := rfl
@[simp] theorem State.setSite_links (k : Nat) (x : Site) : (s.setSite k x).links = s.links := rfl
@[simp] theorem State.setSite_ggroups (k : Nat) (x : Site) : (s.setSite k x).ggroups = s.ggroups := rfl
@[simp] theorem State.setSite_crossing (k : Nat) (x : Site) : (s.setSite k x).crossing = s.crossing := rfl
@[simp] theorem State.setSite_press (k : Nat) (x : Site) : (s.setSite k x).press = s.press := rfl
@[simp] theorem State.setSite_out (k : Nat) (x : Site) : (s.setSite k x).out = s.out := rfl
@[simp] theorem State.setSite_pending (k : Nat) (x : Site) : (s.setSite k x).pending = s.pending := rfl
@[simp] theorem State.setSite_island (k : Nat) (x : Site) (j : Island) : (s.setSite k x).island j = s.island j := rfl
@[simp] theorem State.setSite_berth (k : Nat) (x : Site) (j : Nat) : (s.setSite k x).berth j = s.berth j := rfl
@[simp] theorem State.setSite_record (k : Nat) (x : Site) (j : Nat) : (s.setSite k x).record j = s.record j := rfl
@[simp] theorem State.setSite_slot (k : Nat) (x : Site) (j : Nat) : (s.setSite k x).slot j = s.slot j := rfl
@[simp] theorem State.setSite_shadow (k : Nat) (x : Site) (j : Nat) : (s.setSite k x).shadow j = s.shadow j := rfl
@[simp] theorem State.setSite_fn (k : Nat) (x : Site) (j : Func) : (s.setSite k x).fn j = s.fn j := rfl
@[simp] theorem State.setSite_hslot (k : Nat) (x : Site) (j : Nat) : (s.setSite k x).hslot j = s.hslot j := rfl
@[simp] theorem State.setSite_ch (k : Nat) (x : Site) (j : Nat) : (s.setSite k x).ch j = s.ch j := rfl
@[simp] theorem State.setSite_chMap (k : Nat) (x : Site) (j : Nat) : (s.setSite k x).chMap j = s.chMap j := rfl
@[simp] theorem State.setSite_pch (k : Nat) (x : Site) (j : Nat) : (s.setSite k x).pch j = s.pch j := rfl
@[simp] theorem State.setSite_pier (k : Nat) (x : Site) (j : Nat) : (s.setSite k x).pier j = s.pier j := rfl
@[simp] theorem State.setSite_pgroup (k : Nat) (x : Site) (j : Nat) : (s.setSite k x).pgroup j = s.pgroup j := rfl
@[simp] theorem State.setSite_link (k : Nat) (x : Site) (j : Nat) : (s.setSite k x).link j = s.link j := rfl
@[simp] theorem State.setSite_ggroup (k : Nat) (x : Site) (j : Nat) : (s.setSite k x).ggroup j = s.ggroup j := rfl
@[simp] theorem State.setSite_bp (k : Nat) (x : Site) (j : Nat) : (s.setSite k x).bp j = s.bp j := rfl
@[simp] theorem State.setSite_array (k : Nat) (x : Site) (j : Nat) : (s.setSite k x).array j = s.array j := rfl
@[simp] theorem State.setBerth_pins (b : Nat) (x : Berth) : (s.setBerth b x).pins = s.pins := rfl
@[simp] theorem State.setBerth_ring (b : Nat) (x : Berth) : (s.setBerth b x).ring = s.ring := rfl
@[simp] theorem State.setBerth_power (b : Nat) (x : Berth) : (s.setBerth b x).power = s.power := rfl
@[simp] theorem State.setBerth_isl (b : Nat) (x : Berth) : (s.setBerth b x).isl = s.isl := rfl
@[simp] theorem State.setBerth_pilot (b : Nat) (x : Berth) : (s.setBerth b x).pilot = s.pilot := rfl
@[simp] theorem State.setBerth_board (b : Nat) (x : Berth) : (s.setBerth b x).board = s.board := rfl
@[simp] theorem State.setBerth_fuse (b : Nat) (x : Berth) : (s.setBerth b x).fuse = s.fuse := rfl
@[simp] theorem State.setBerth_lc (b : Nat) (x : Berth) : (s.setBerth b x).lc = s.lc := rfl
@[simp] theorem State.setBerth_vault (b : Nat) (x : Berth) : (s.setBerth b x).vault = s.vault := rfl
@[simp] theorem State.setBerth_crypto (b : Nat) (x : Berth) : (s.setBerth b x).crypto = s.crypto := rfl
@[simp] theorem State.setBerth_sessions (b : Nat) (x : Berth) : (s.setBerth b x).sessions = s.sessions := rfl
@[simp] theorem State.setBerth_update (b : Nat) (x : Berth) : (s.setBerth b x).update = s.update := rfl
@[simp] theorem State.setBerth_jrn (b : Nat) (x : Berth) : (s.setBerth b x).jrn = s.jrn := rfl
@[simp] theorem State.setBerth_flash (b : Nat) (x : Berth) : (s.setBerth b x).flash = s.flash := rfl
@[simp] theorem State.setBerth_cleanMap (b : Nat) (x : Berth) : (s.setBerth b x).cleanMap = s.cleanMap := rfl
@[simp] theorem State.setBerth_fns (b : Nat) (x : Berth) : (s.setBerth b x).fns = s.fns := rfl
@[simp] theorem State.setBerth_host (b : Nat) (x : Berth) : (s.setBerth b x).host = s.host := rfl
@[simp] theorem State.setBerth_ferry (b : Nat) (x : Berth) : (s.setBerth b x).ferry = s.ferry := rfl
@[simp] theorem State.setBerth_cover (b : Nat) (x : Berth) : (s.setBerth b x).cover = s.cover := rfl
@[simp] theorem State.setBerth_piers (b : Nat) (x : Berth) : (s.setBerth b x).piers = s.piers := rfl
@[simp] theorem State.setBerth_pgroups (b : Nat) (x : Berth) : (s.setBerth b x).pgroups = s.pgroups := rfl
@[simp] theorem State.setBerth_reports (b : Nat) (x : Berth) : (s.setBerth b x).reports = s.reports := rfl
@[simp] theorem State.setBerth_lanes (b : Nat) (x : Berth) : (s.setBerth b x).lanes = s.lanes := rfl
@[simp] theorem State.setBerth_links (b : Nat) (x : Berth) : (s.setBerth b x).links = s.links := rfl
@[simp] theorem State.setBerth_ggroups (b : Nat) (x : Berth) : (s.setBerth b x).ggroups = s.ggroups := rfl
@[simp] theorem State.setBerth_crossing (b : Nat) (x : Berth) : (s.setBerth b x).crossing = s.crossing := rfl
@[simp] theorem State.setBerth_press (b : Nat) (x : Berth) : (s.setBerth b x).press = s.press := rfl
@[simp] theorem State.setBerth_out (b : Nat) (x : Berth) : (s.setBerth b x).out = s.out := rfl
@[simp] theorem State.setBerth_pending (b : Nat) (x : Berth) : (s.setBerth b x).pending = s.pending := rfl
@[simp] theorem State.setBerth_island (b : Nat) (x : Berth) (j : Island) : (s.setBerth b x).island j = s.island j := rfl
@[simp] theorem State.setBerth_site (b : Nat) (x : Berth) (j : Nat) : (s.setBerth b x).site j = s.site j := rfl
@[simp] theorem State.setBerth_record (b : Nat) (x : Berth) (j : Nat) : (s.setBerth b x).record j = s.record j := rfl
@[simp] theorem State.setBerth_slot (b : Nat) (x : Berth) (j : Nat) : (s.setBerth b x).slot j = s.slot j := rfl
@[simp] theorem State.setBerth_shadow (b : Nat) (x : Berth) (j : Nat) : (s.setBerth b x).shadow j = s.shadow j := rfl
@[simp] theorem State.setBerth_fn (b : Nat) (x : Berth) (j : Func) : (s.setBerth b x).fn j = s.fn j := rfl
@[simp] theorem State.setBerth_hslot (b : Nat) (x : Berth) (j : Nat) : (s.setBerth b x).hslot j = s.hslot j := rfl
@[simp] theorem State.setBerth_ch (b : Nat) (x : Berth) (j : Nat) : (s.setBerth b x).ch j = s.ch j := rfl
@[simp] theorem State.setBerth_chMap (b : Nat) (x : Berth) (j : Nat) : (s.setBerth b x).chMap j = s.chMap j := rfl
@[simp] theorem State.setBerth_pch (b : Nat) (x : Berth) (j : Nat) : (s.setBerth b x).pch j = s.pch j := rfl
@[simp] theorem State.setBerth_pier (b : Nat) (x : Berth) (j : Nat) : (s.setBerth b x).pier j = s.pier j := rfl
@[simp] theorem State.setBerth_pgroup (b : Nat) (x : Berth) (j : Nat) : (s.setBerth b x).pgroup j = s.pgroup j := rfl
@[simp] theorem State.setBerth_link (b : Nat) (x : Berth) (j : Nat) : (s.setBerth b x).link j = s.link j := rfl
@[simp] theorem State.setBerth_ggroup (b : Nat) (x : Berth) (j : Nat) : (s.setBerth b x).ggroup j = s.ggroup j := rfl
@[simp] theorem State.setBerth_bp (b : Nat) (x : Berth) (j : Nat) : (s.setBerth b x).bp j = s.bp j := rfl
@[simp] theorem State.setBerth_array (b : Nat) (x : Berth) (j : Nat) : (s.setBerth b x).array j = s.array j := rfl
@[simp] theorem State.setFn_pins (f : Func) (x : HostFn) : (s.setFn f x).pins = s.pins := rfl
@[simp] theorem State.setFn_ring (f : Func) (x : HostFn) : (s.setFn f x).ring = s.ring := rfl
@[simp] theorem State.setFn_power (f : Func) (x : HostFn) : (s.setFn f x).power = s.power := rfl
@[simp] theorem State.setFn_isl (f : Func) (x : HostFn) : (s.setFn f x).isl = s.isl := rfl
@[simp] theorem State.setFn_pilot (f : Func) (x : HostFn) : (s.setFn f x).pilot = s.pilot := rfl
@[simp] theorem State.setFn_board (f : Func) (x : HostFn) : (s.setFn f x).board = s.board := rfl
@[simp] theorem State.setFn_fuse (f : Func) (x : HostFn) : (s.setFn f x).fuse = s.fuse := rfl
@[simp] theorem State.setFn_lc (f : Func) (x : HostFn) : (s.setFn f x).lc = s.lc := rfl
@[simp] theorem State.setFn_vault (f : Func) (x : HostFn) : (s.setFn f x).vault = s.vault := rfl
@[simp] theorem State.setFn_crypto (f : Func) (x : HostFn) : (s.setFn f x).crypto = s.crypto := rfl
@[simp] theorem State.setFn_sessions (f : Func) (x : HostFn) : (s.setFn f x).sessions = s.sessions := rfl
@[simp] theorem State.setFn_update (f : Func) (x : HostFn) : (s.setFn f x).update = s.update := rfl
@[simp] theorem State.setFn_jrn (f : Func) (x : HostFn) : (s.setFn f x).jrn = s.jrn := rfl
@[simp] theorem State.setFn_flash (f : Func) (x : HostFn) : (s.setFn f x).flash = s.flash := rfl
@[simp] theorem State.setFn_berths (f : Func) (x : HostFn) : (s.setFn f x).berths = s.berths := rfl
@[simp] theorem State.setFn_cleanMap (f : Func) (x : HostFn) : (s.setFn f x).cleanMap = s.cleanMap := rfl
@[simp] theorem State.setFn_host (f : Func) (x : HostFn) : (s.setFn f x).host = s.host := rfl
@[simp] theorem State.setFn_ferry (f : Func) (x : HostFn) : (s.setFn f x).ferry = s.ferry := rfl
@[simp] theorem State.setFn_cover (f : Func) (x : HostFn) : (s.setFn f x).cover = s.cover := rfl
@[simp] theorem State.setFn_piers (f : Func) (x : HostFn) : (s.setFn f x).piers = s.piers := rfl
@[simp] theorem State.setFn_pgroups (f : Func) (x : HostFn) : (s.setFn f x).pgroups = s.pgroups := rfl
@[simp] theorem State.setFn_reports (f : Func) (x : HostFn) : (s.setFn f x).reports = s.reports := rfl
@[simp] theorem State.setFn_lanes (f : Func) (x : HostFn) : (s.setFn f x).lanes = s.lanes := rfl
@[simp] theorem State.setFn_links (f : Func) (x : HostFn) : (s.setFn f x).links = s.links := rfl
@[simp] theorem State.setFn_ggroups (f : Func) (x : HostFn) : (s.setFn f x).ggroups = s.ggroups := rfl
@[simp] theorem State.setFn_crossing (f : Func) (x : HostFn) : (s.setFn f x).crossing = s.crossing := rfl
@[simp] theorem State.setFn_press (f : Func) (x : HostFn) : (s.setFn f x).press = s.press := rfl
@[simp] theorem State.setFn_out (f : Func) (x : HostFn) : (s.setFn f x).out = s.out := rfl
@[simp] theorem State.setFn_pending (f : Func) (x : HostFn) : (s.setFn f x).pending = s.pending := rfl
@[simp] theorem State.setFn_island (f : Func) (x : HostFn) (j : Island) : (s.setFn f x).island j = s.island j := rfl
@[simp] theorem State.setFn_site (f : Func) (x : HostFn) (j : Nat) : (s.setFn f x).site j = s.site j := rfl
@[simp] theorem State.setFn_berth (f : Func) (x : HostFn) (j : Nat) : (s.setFn f x).berth j = s.berth j := rfl
@[simp] theorem State.setFn_record (f : Func) (x : HostFn) (j : Nat) : (s.setFn f x).record j = s.record j := rfl
@[simp] theorem State.setFn_slot (f : Func) (x : HostFn) (j : Nat) : (s.setFn f x).slot j = s.slot j := rfl
@[simp] theorem State.setFn_shadow (f : Func) (x : HostFn) (j : Nat) : (s.setFn f x).shadow j = s.shadow j := rfl
@[simp] theorem State.setFn_hslot (f : Func) (x : HostFn) (j : Nat) : (s.setFn f x).hslot j = s.hslot j := rfl
@[simp] theorem State.setFn_ch (f : Func) (x : HostFn) (j : Nat) : (s.setFn f x).ch j = s.ch j := rfl
@[simp] theorem State.setFn_chMap (f : Func) (x : HostFn) (j : Nat) : (s.setFn f x).chMap j = s.chMap j := rfl
@[simp] theorem State.setFn_pch (f : Func) (x : HostFn) (j : Nat) : (s.setFn f x).pch j = s.pch j := rfl
@[simp] theorem State.setFn_pier (f : Func) (x : HostFn) (j : Nat) : (s.setFn f x).pier j = s.pier j := rfl
@[simp] theorem State.setFn_pgroup (f : Func) (x : HostFn) (j : Nat) : (s.setFn f x).pgroup j = s.pgroup j := rfl
@[simp] theorem State.setFn_link (f : Func) (x : HostFn) (j : Nat) : (s.setFn f x).link j = s.link j := rfl
@[simp] theorem State.setFn_ggroup (f : Func) (x : HostFn) (j : Nat) : (s.setFn f x).ggroup j = s.ggroup j := rfl
@[simp] theorem State.setFn_bp (f : Func) (x : HostFn) (j : Nat) : (s.setFn f x).bp j = s.bp j := rfl
@[simp] theorem State.setFn_array (f : Func) (x : HostFn) (j : Nat) : (s.setFn f x).array j = s.array j := rfl
@[simp] theorem State.setCh_pins (c : Nat) (x : FerryCh) : (s.setCh c x).pins = s.pins := rfl
@[simp] theorem State.setCh_ring (c : Nat) (x : FerryCh) : (s.setCh c x).ring = s.ring := rfl
@[simp] theorem State.setCh_power (c : Nat) (x : FerryCh) : (s.setCh c x).power = s.power := rfl
@[simp] theorem State.setCh_isl (c : Nat) (x : FerryCh) : (s.setCh c x).isl = s.isl := rfl
@[simp] theorem State.setCh_pilot (c : Nat) (x : FerryCh) : (s.setCh c x).pilot = s.pilot := rfl
@[simp] theorem State.setCh_board (c : Nat) (x : FerryCh) : (s.setCh c x).board = s.board := rfl
@[simp] theorem State.setCh_fuse (c : Nat) (x : FerryCh) : (s.setCh c x).fuse = s.fuse := rfl
@[simp] theorem State.setCh_lc (c : Nat) (x : FerryCh) : (s.setCh c x).lc = s.lc := rfl
@[simp] theorem State.setCh_vault (c : Nat) (x : FerryCh) : (s.setCh c x).vault = s.vault := rfl
@[simp] theorem State.setCh_crypto (c : Nat) (x : FerryCh) : (s.setCh c x).crypto = s.crypto := rfl
@[simp] theorem State.setCh_sessions (c : Nat) (x : FerryCh) : (s.setCh c x).sessions = s.sessions := rfl
@[simp] theorem State.setCh_update (c : Nat) (x : FerryCh) : (s.setCh c x).update = s.update := rfl
@[simp] theorem State.setCh_jrn (c : Nat) (x : FerryCh) : (s.setCh c x).jrn = s.jrn := rfl
@[simp] theorem State.setCh_flash (c : Nat) (x : FerryCh) : (s.setCh c x).flash = s.flash := rfl
@[simp] theorem State.setCh_berths (c : Nat) (x : FerryCh) : (s.setCh c x).berths = s.berths := rfl
@[simp] theorem State.setCh_cleanMap (c : Nat) (x : FerryCh) : (s.setCh c x).cleanMap = s.cleanMap := rfl
@[simp] theorem State.setCh_fns (c : Nat) (x : FerryCh) : (s.setCh c x).fns = s.fns := rfl
@[simp] theorem State.setCh_host (c : Nat) (x : FerryCh) : (s.setCh c x).host = s.host := rfl
@[simp] theorem State.setCh_cover (c : Nat) (x : FerryCh) : (s.setCh c x).cover = s.cover := rfl
@[simp] theorem State.setCh_piers (c : Nat) (x : FerryCh) : (s.setCh c x).piers = s.piers := rfl
@[simp] theorem State.setCh_pgroups (c : Nat) (x : FerryCh) : (s.setCh c x).pgroups = s.pgroups := rfl
@[simp] theorem State.setCh_reports (c : Nat) (x : FerryCh) : (s.setCh c x).reports = s.reports := rfl
@[simp] theorem State.setCh_lanes (c : Nat) (x : FerryCh) : (s.setCh c x).lanes = s.lanes := rfl
@[simp] theorem State.setCh_links (c : Nat) (x : FerryCh) : (s.setCh c x).links = s.links := rfl
@[simp] theorem State.setCh_ggroups (c : Nat) (x : FerryCh) : (s.setCh c x).ggroups = s.ggroups := rfl
@[simp] theorem State.setCh_crossing (c : Nat) (x : FerryCh) : (s.setCh c x).crossing = s.crossing := rfl
@[simp] theorem State.setCh_press (c : Nat) (x : FerryCh) : (s.setCh c x).press = s.press := rfl
@[simp] theorem State.setCh_out (c : Nat) (x : FerryCh) : (s.setCh c x).out = s.out := rfl
@[simp] theorem State.setCh_pending (c : Nat) (x : FerryCh) : (s.setCh c x).pending = s.pending := rfl
@[simp] theorem State.setCh_island (c : Nat) (x : FerryCh) (j : Island) : (s.setCh c x).island j = s.island j := rfl
@[simp] theorem State.setCh_site (c : Nat) (x : FerryCh) (j : Nat) : (s.setCh c x).site j = s.site j := rfl
@[simp] theorem State.setCh_berth (c : Nat) (x : FerryCh) (j : Nat) : (s.setCh c x).berth j = s.berth j := rfl
@[simp] theorem State.setCh_record (c : Nat) (x : FerryCh) (j : Nat) : (s.setCh c x).record j = s.record j := rfl
@[simp] theorem State.setCh_slot (c : Nat) (x : FerryCh) (j : Nat) : (s.setCh c x).slot j = s.slot j := rfl
@[simp] theorem State.setCh_shadow (c : Nat) (x : FerryCh) (j : Nat) : (s.setCh c x).shadow j = s.shadow j := rfl
@[simp] theorem State.setCh_fn (c : Nat) (x : FerryCh) (j : Func) : (s.setCh c x).fn j = s.fn j := rfl
@[simp] theorem State.setCh_hslot (c : Nat) (x : FerryCh) (j : Nat) : (s.setCh c x).hslot j = s.hslot j := rfl
@[simp] theorem State.setCh_pier (c : Nat) (x : FerryCh) (j : Nat) : (s.setCh c x).pier j = s.pier j := rfl
@[simp] theorem State.setCh_pgroup (c : Nat) (x : FerryCh) (j : Nat) : (s.setCh c x).pgroup j = s.pgroup j := rfl
@[simp] theorem State.setCh_link (c : Nat) (x : FerryCh) (j : Nat) : (s.setCh c x).link j = s.link j := rfl
@[simp] theorem State.setCh_ggroup (c : Nat) (x : FerryCh) (j : Nat) : (s.setCh c x).ggroup j = s.ggroup j := rfl
@[simp] theorem State.setCh_bp (c : Nat) (x : FerryCh) (j : Nat) : (s.setCh c x).bp j = s.bp j := rfl
@[simp] theorem State.setCh_array (c : Nat) (x : FerryCh) (j : Nat) : (s.setCh c x).array j = s.array j := rfl
@[simp] theorem State.setCh_chMap (c : Nat) (x : FerryCh) (j : Nat) : (s.setCh c x).chMap j = s.chMap j := rfl
@[simp] theorem State.setCh_pch (c : Nat) (x : FerryCh) (j : Nat) : (s.setCh c x).pch j = s.pch j := rfl
@[simp] theorem State.setPier_pins (n : Nat) (x : PierSt) : (s.setPier n x).pins = s.pins := rfl
@[simp] theorem State.setPier_ring (n : Nat) (x : PierSt) : (s.setPier n x).ring = s.ring := rfl
@[simp] theorem State.setPier_power (n : Nat) (x : PierSt) : (s.setPier n x).power = s.power := rfl
@[simp] theorem State.setPier_isl (n : Nat) (x : PierSt) : (s.setPier n x).isl = s.isl := rfl
@[simp] theorem State.setPier_pilot (n : Nat) (x : PierSt) : (s.setPier n x).pilot = s.pilot := rfl
@[simp] theorem State.setPier_board (n : Nat) (x : PierSt) : (s.setPier n x).board = s.board := rfl
@[simp] theorem State.setPier_fuse (n : Nat) (x : PierSt) : (s.setPier n x).fuse = s.fuse := rfl
@[simp] theorem State.setPier_lc (n : Nat) (x : PierSt) : (s.setPier n x).lc = s.lc := rfl
@[simp] theorem State.setPier_vault (n : Nat) (x : PierSt) : (s.setPier n x).vault = s.vault := rfl
@[simp] theorem State.setPier_crypto (n : Nat) (x : PierSt) : (s.setPier n x).crypto = s.crypto := rfl
@[simp] theorem State.setPier_sessions (n : Nat) (x : PierSt) : (s.setPier n x).sessions = s.sessions := rfl
@[simp] theorem State.setPier_update (n : Nat) (x : PierSt) : (s.setPier n x).update = s.update := rfl
@[simp] theorem State.setPier_jrn (n : Nat) (x : PierSt) : (s.setPier n x).jrn = s.jrn := rfl
@[simp] theorem State.setPier_flash (n : Nat) (x : PierSt) : (s.setPier n x).flash = s.flash := rfl
@[simp] theorem State.setPier_berths (n : Nat) (x : PierSt) : (s.setPier n x).berths = s.berths := rfl
@[simp] theorem State.setPier_cleanMap (n : Nat) (x : PierSt) : (s.setPier n x).cleanMap = s.cleanMap := rfl
@[simp] theorem State.setPier_fns (n : Nat) (x : PierSt) : (s.setPier n x).fns = s.fns := rfl
@[simp] theorem State.setPier_host (n : Nat) (x : PierSt) : (s.setPier n x).host = s.host := rfl
@[simp] theorem State.setPier_ferry (n : Nat) (x : PierSt) : (s.setPier n x).ferry = s.ferry := rfl
@[simp] theorem State.setPier_cover (n : Nat) (x : PierSt) : (s.setPier n x).cover = s.cover := rfl
@[simp] theorem State.setPier_pgroups (n : Nat) (x : PierSt) : (s.setPier n x).pgroups = s.pgroups := rfl
@[simp] theorem State.setPier_reports (n : Nat) (x : PierSt) : (s.setPier n x).reports = s.reports := rfl
@[simp] theorem State.setPier_lanes (n : Nat) (x : PierSt) : (s.setPier n x).lanes = s.lanes := rfl
@[simp] theorem State.setPier_links (n : Nat) (x : PierSt) : (s.setPier n x).links = s.links := rfl
@[simp] theorem State.setPier_ggroups (n : Nat) (x : PierSt) : (s.setPier n x).ggroups = s.ggroups := rfl
@[simp] theorem State.setPier_crossing (n : Nat) (x : PierSt) : (s.setPier n x).crossing = s.crossing := rfl
@[simp] theorem State.setPier_press (n : Nat) (x : PierSt) : (s.setPier n x).press = s.press := rfl
@[simp] theorem State.setPier_out (n : Nat) (x : PierSt) : (s.setPier n x).out = s.out := rfl
@[simp] theorem State.setPier_pending (n : Nat) (x : PierSt) : (s.setPier n x).pending = s.pending := rfl
@[simp] theorem State.setPier_island (n : Nat) (x : PierSt) (j : Island) : (s.setPier n x).island j = s.island j := rfl
@[simp] theorem State.setPier_site (n : Nat) (x : PierSt) (j : Nat) : (s.setPier n x).site j = s.site j := rfl
@[simp] theorem State.setPier_berth (n : Nat) (x : PierSt) (j : Nat) : (s.setPier n x).berth j = s.berth j := rfl
@[simp] theorem State.setPier_record (n : Nat) (x : PierSt) (j : Nat) : (s.setPier n x).record j = s.record j := rfl
@[simp] theorem State.setPier_slot (n : Nat) (x : PierSt) (j : Nat) : (s.setPier n x).slot j = s.slot j := rfl
@[simp] theorem State.setPier_shadow (n : Nat) (x : PierSt) (j : Nat) : (s.setPier n x).shadow j = s.shadow j := rfl
@[simp] theorem State.setPier_fn (n : Nat) (x : PierSt) (j : Func) : (s.setPier n x).fn j = s.fn j := rfl
@[simp] theorem State.setPier_hslot (n : Nat) (x : PierSt) (j : Nat) : (s.setPier n x).hslot j = s.hslot j := rfl
@[simp] theorem State.setPier_ch (n : Nat) (x : PierSt) (j : Nat) : (s.setPier n x).ch j = s.ch j := rfl
@[simp] theorem State.setPier_chMap (n : Nat) (x : PierSt) (j : Nat) : (s.setPier n x).chMap j = s.chMap j := rfl
@[simp] theorem State.setPier_pch (n : Nat) (x : PierSt) (j : Nat) : (s.setPier n x).pch j = s.pch j := rfl
@[simp] theorem State.setPier_pgroup (n : Nat) (x : PierSt) (j : Nat) : (s.setPier n x).pgroup j = s.pgroup j := rfl
@[simp] theorem State.setPier_link (n : Nat) (x : PierSt) (j : Nat) : (s.setPier n x).link j = s.link j := rfl
@[simp] theorem State.setPier_ggroup (n : Nat) (x : PierSt) (j : Nat) : (s.setPier n x).ggroup j = s.ggroup j := rfl
@[simp] theorem State.setPier_bp (n : Nat) (x : PierSt) (j : Nat) : (s.setPier n x).bp j = s.bp j := rfl
@[simp] theorem State.setPier_array (n : Nat) (x : PierSt) (j : Nat) : (s.setPier n x).array j = s.array j := rfl
@[simp] theorem State.setPgroup_pins (g : Nat) (x : PierGroup) : (s.setPgroup g x).pins = s.pins := rfl
@[simp] theorem State.setPgroup_ring (g : Nat) (x : PierGroup) : (s.setPgroup g x).ring = s.ring := rfl
@[simp] theorem State.setPgroup_power (g : Nat) (x : PierGroup) : (s.setPgroup g x).power = s.power := rfl
@[simp] theorem State.setPgroup_isl (g : Nat) (x : PierGroup) : (s.setPgroup g x).isl = s.isl := rfl
@[simp] theorem State.setPgroup_pilot (g : Nat) (x : PierGroup) : (s.setPgroup g x).pilot = s.pilot := rfl
@[simp] theorem State.setPgroup_board (g : Nat) (x : PierGroup) : (s.setPgroup g x).board = s.board := rfl
@[simp] theorem State.setPgroup_fuse (g : Nat) (x : PierGroup) : (s.setPgroup g x).fuse = s.fuse := rfl
@[simp] theorem State.setPgroup_lc (g : Nat) (x : PierGroup) : (s.setPgroup g x).lc = s.lc := rfl
@[simp] theorem State.setPgroup_vault (g : Nat) (x : PierGroup) : (s.setPgroup g x).vault = s.vault := rfl
@[simp] theorem State.setPgroup_crypto (g : Nat) (x : PierGroup) : (s.setPgroup g x).crypto = s.crypto := rfl
@[simp] theorem State.setPgroup_sessions (g : Nat) (x : PierGroup) : (s.setPgroup g x).sessions = s.sessions := rfl
@[simp] theorem State.setPgroup_update (g : Nat) (x : PierGroup) : (s.setPgroup g x).update = s.update := rfl
@[simp] theorem State.setPgroup_jrn (g : Nat) (x : PierGroup) : (s.setPgroup g x).jrn = s.jrn := rfl
@[simp] theorem State.setPgroup_flash (g : Nat) (x : PierGroup) : (s.setPgroup g x).flash = s.flash := rfl
@[simp] theorem State.setPgroup_berths (g : Nat) (x : PierGroup) : (s.setPgroup g x).berths = s.berths := rfl
@[simp] theorem State.setPgroup_cleanMap (g : Nat) (x : PierGroup) : (s.setPgroup g x).cleanMap = s.cleanMap := rfl
@[simp] theorem State.setPgroup_fns (g : Nat) (x : PierGroup) : (s.setPgroup g x).fns = s.fns := rfl
@[simp] theorem State.setPgroup_host (g : Nat) (x : PierGroup) : (s.setPgroup g x).host = s.host := rfl
@[simp] theorem State.setPgroup_ferry (g : Nat) (x : PierGroup) : (s.setPgroup g x).ferry = s.ferry := rfl
@[simp] theorem State.setPgroup_cover (g : Nat) (x : PierGroup) : (s.setPgroup g x).cover = s.cover := rfl
@[simp] theorem State.setPgroup_piers (g : Nat) (x : PierGroup) : (s.setPgroup g x).piers = s.piers := rfl
@[simp] theorem State.setPgroup_reports (g : Nat) (x : PierGroup) : (s.setPgroup g x).reports = s.reports := rfl
@[simp] theorem State.setPgroup_lanes (g : Nat) (x : PierGroup) : (s.setPgroup g x).lanes = s.lanes := rfl
@[simp] theorem State.setPgroup_links (g : Nat) (x : PierGroup) : (s.setPgroup g x).links = s.links := rfl
@[simp] theorem State.setPgroup_ggroups (g : Nat) (x : PierGroup) : (s.setPgroup g x).ggroups = s.ggroups := rfl
@[simp] theorem State.setPgroup_crossing (g : Nat) (x : PierGroup) : (s.setPgroup g x).crossing = s.crossing := rfl
@[simp] theorem State.setPgroup_press (g : Nat) (x : PierGroup) : (s.setPgroup g x).press = s.press := rfl
@[simp] theorem State.setPgroup_out (g : Nat) (x : PierGroup) : (s.setPgroup g x).out = s.out := rfl
@[simp] theorem State.setPgroup_pending (g : Nat) (x : PierGroup) : (s.setPgroup g x).pending = s.pending := rfl
@[simp] theorem State.setPgroup_island (g : Nat) (x : PierGroup) (j : Island) : (s.setPgroup g x).island j = s.island j := rfl
@[simp] theorem State.setPgroup_site (g : Nat) (x : PierGroup) (j : Nat) : (s.setPgroup g x).site j = s.site j := rfl
@[simp] theorem State.setPgroup_berth (g : Nat) (x : PierGroup) (j : Nat) : (s.setPgroup g x).berth j = s.berth j := rfl
@[simp] theorem State.setPgroup_record (g : Nat) (x : PierGroup) (j : Nat) : (s.setPgroup g x).record j = s.record j := rfl
@[simp] theorem State.setPgroup_slot (g : Nat) (x : PierGroup) (j : Nat) : (s.setPgroup g x).slot j = s.slot j := rfl
@[simp] theorem State.setPgroup_shadow (g : Nat) (x : PierGroup) (j : Nat) : (s.setPgroup g x).shadow j = s.shadow j := rfl
@[simp] theorem State.setPgroup_fn (g : Nat) (x : PierGroup) (j : Func) : (s.setPgroup g x).fn j = s.fn j := rfl
@[simp] theorem State.setPgroup_hslot (g : Nat) (x : PierGroup) (j : Nat) : (s.setPgroup g x).hslot j = s.hslot j := rfl
@[simp] theorem State.setPgroup_ch (g : Nat) (x : PierGroup) (j : Nat) : (s.setPgroup g x).ch j = s.ch j := rfl
@[simp] theorem State.setPgroup_chMap (g : Nat) (x : PierGroup) (j : Nat) : (s.setPgroup g x).chMap j = s.chMap j := rfl
@[simp] theorem State.setPgroup_pch (g : Nat) (x : PierGroup) (j : Nat) : (s.setPgroup g x).pch j = s.pch j := rfl
@[simp] theorem State.setPgroup_pier (g : Nat) (x : PierGroup) (j : Nat) : (s.setPgroup g x).pier j = s.pier j := rfl
@[simp] theorem State.setPgroup_link (g : Nat) (x : PierGroup) (j : Nat) : (s.setPgroup g x).link j = s.link j := rfl
@[simp] theorem State.setPgroup_ggroup (g : Nat) (x : PierGroup) (j : Nat) : (s.setPgroup g x).ggroup j = s.ggroup j := rfl
@[simp] theorem State.setPgroup_bp (g : Nat) (x : PierGroup) (j : Nat) : (s.setPgroup g x).bp j = s.bp j := rfl
@[simp] theorem State.setPgroup_array (g : Nat) (x : PierGroup) (j : Nat) : (s.setPgroup g x).array j = s.array j := rfl
@[simp] theorem State.setLink_pins (n : Nat) (x : GwLink) : (s.setLink n x).pins = s.pins := rfl
@[simp] theorem State.setLink_ring (n : Nat) (x : GwLink) : (s.setLink n x).ring = s.ring := rfl
@[simp] theorem State.setLink_power (n : Nat) (x : GwLink) : (s.setLink n x).power = s.power := rfl
@[simp] theorem State.setLink_isl (n : Nat) (x : GwLink) : (s.setLink n x).isl = s.isl := rfl
@[simp] theorem State.setLink_pilot (n : Nat) (x : GwLink) : (s.setLink n x).pilot = s.pilot := rfl
@[simp] theorem State.setLink_board (n : Nat) (x : GwLink) : (s.setLink n x).board = s.board := rfl
@[simp] theorem State.setLink_fuse (n : Nat) (x : GwLink) : (s.setLink n x).fuse = s.fuse := rfl
@[simp] theorem State.setLink_lc (n : Nat) (x : GwLink) : (s.setLink n x).lc = s.lc := rfl
@[simp] theorem State.setLink_vault (n : Nat) (x : GwLink) : (s.setLink n x).vault = s.vault := rfl
@[simp] theorem State.setLink_crypto (n : Nat) (x : GwLink) : (s.setLink n x).crypto = s.crypto := rfl
@[simp] theorem State.setLink_sessions (n : Nat) (x : GwLink) : (s.setLink n x).sessions = s.sessions := rfl
@[simp] theorem State.setLink_update (n : Nat) (x : GwLink) : (s.setLink n x).update = s.update := rfl
@[simp] theorem State.setLink_jrn (n : Nat) (x : GwLink) : (s.setLink n x).jrn = s.jrn := rfl
@[simp] theorem State.setLink_flash (n : Nat) (x : GwLink) : (s.setLink n x).flash = s.flash := rfl
@[simp] theorem State.setLink_berths (n : Nat) (x : GwLink) : (s.setLink n x).berths = s.berths := rfl
@[simp] theorem State.setLink_cleanMap (n : Nat) (x : GwLink) : (s.setLink n x).cleanMap = s.cleanMap := rfl
@[simp] theorem State.setLink_fns (n : Nat) (x : GwLink) : (s.setLink n x).fns = s.fns := rfl
@[simp] theorem State.setLink_host (n : Nat) (x : GwLink) : (s.setLink n x).host = s.host := rfl
@[simp] theorem State.setLink_ferry (n : Nat) (x : GwLink) : (s.setLink n x).ferry = s.ferry := rfl
@[simp] theorem State.setLink_cover (n : Nat) (x : GwLink) : (s.setLink n x).cover = s.cover := rfl
@[simp] theorem State.setLink_piers (n : Nat) (x : GwLink) : (s.setLink n x).piers = s.piers := rfl
@[simp] theorem State.setLink_pgroups (n : Nat) (x : GwLink) : (s.setLink n x).pgroups = s.pgroups := rfl
@[simp] theorem State.setLink_reports (n : Nat) (x : GwLink) : (s.setLink n x).reports = s.reports := rfl
@[simp] theorem State.setLink_lanes (n : Nat) (x : GwLink) : (s.setLink n x).lanes = s.lanes := rfl
@[simp] theorem State.setLink_ggroups (n : Nat) (x : GwLink) : (s.setLink n x).ggroups = s.ggroups := rfl
@[simp] theorem State.setLink_crossing (n : Nat) (x : GwLink) : (s.setLink n x).crossing = s.crossing := rfl
@[simp] theorem State.setLink_press (n : Nat) (x : GwLink) : (s.setLink n x).press = s.press := rfl
@[simp] theorem State.setLink_out (n : Nat) (x : GwLink) : (s.setLink n x).out = s.out := rfl
@[simp] theorem State.setLink_pending (n : Nat) (x : GwLink) : (s.setLink n x).pending = s.pending := rfl
@[simp] theorem State.setLink_island (n : Nat) (x : GwLink) (j : Island) : (s.setLink n x).island j = s.island j := rfl
@[simp] theorem State.setLink_site (n : Nat) (x : GwLink) (j : Nat) : (s.setLink n x).site j = s.site j := rfl
@[simp] theorem State.setLink_berth (n : Nat) (x : GwLink) (j : Nat) : (s.setLink n x).berth j = s.berth j := rfl
@[simp] theorem State.setLink_record (n : Nat) (x : GwLink) (j : Nat) : (s.setLink n x).record j = s.record j := rfl
@[simp] theorem State.setLink_slot (n : Nat) (x : GwLink) (j : Nat) : (s.setLink n x).slot j = s.slot j := rfl
@[simp] theorem State.setLink_shadow (n : Nat) (x : GwLink) (j : Nat) : (s.setLink n x).shadow j = s.shadow j := rfl
@[simp] theorem State.setLink_fn (n : Nat) (x : GwLink) (j : Func) : (s.setLink n x).fn j = s.fn j := rfl
@[simp] theorem State.setLink_hslot (n : Nat) (x : GwLink) (j : Nat) : (s.setLink n x).hslot j = s.hslot j := rfl
@[simp] theorem State.setLink_ch (n : Nat) (x : GwLink) (j : Nat) : (s.setLink n x).ch j = s.ch j := rfl
@[simp] theorem State.setLink_chMap (n : Nat) (x : GwLink) (j : Nat) : (s.setLink n x).chMap j = s.chMap j := rfl
@[simp] theorem State.setLink_pch (n : Nat) (x : GwLink) (j : Nat) : (s.setLink n x).pch j = s.pch j := rfl
@[simp] theorem State.setLink_pier (n : Nat) (x : GwLink) (j : Nat) : (s.setLink n x).pier j = s.pier j := rfl
@[simp] theorem State.setLink_pgroup (n : Nat) (x : GwLink) (j : Nat) : (s.setLink n x).pgroup j = s.pgroup j := rfl
@[simp] theorem State.setLink_ggroup (n : Nat) (x : GwLink) (j : Nat) : (s.setLink n x).ggroup j = s.ggroup j := rfl
@[simp] theorem State.setLink_bp (n : Nat) (x : GwLink) (j : Nat) : (s.setLink n x).bp j = s.bp j := rfl
@[simp] theorem State.setLink_array (n : Nat) (x : GwLink) (j : Nat) : (s.setLink n x).array j = s.array j := rfl
@[simp] theorem State.setGgroup_pins (g : Nat) (x : GwGroup) : (s.setGgroup g x).pins = s.pins := rfl
@[simp] theorem State.setGgroup_ring (g : Nat) (x : GwGroup) : (s.setGgroup g x).ring = s.ring := rfl
@[simp] theorem State.setGgroup_power (g : Nat) (x : GwGroup) : (s.setGgroup g x).power = s.power := rfl
@[simp] theorem State.setGgroup_isl (g : Nat) (x : GwGroup) : (s.setGgroup g x).isl = s.isl := rfl
@[simp] theorem State.setGgroup_pilot (g : Nat) (x : GwGroup) : (s.setGgroup g x).pilot = s.pilot := rfl
@[simp] theorem State.setGgroup_board (g : Nat) (x : GwGroup) : (s.setGgroup g x).board = s.board := rfl
@[simp] theorem State.setGgroup_fuse (g : Nat) (x : GwGroup) : (s.setGgroup g x).fuse = s.fuse := rfl
@[simp] theorem State.setGgroup_lc (g : Nat) (x : GwGroup) : (s.setGgroup g x).lc = s.lc := rfl
@[simp] theorem State.setGgroup_vault (g : Nat) (x : GwGroup) : (s.setGgroup g x).vault = s.vault := rfl
@[simp] theorem State.setGgroup_crypto (g : Nat) (x : GwGroup) : (s.setGgroup g x).crypto = s.crypto := rfl
@[simp] theorem State.setGgroup_sessions (g : Nat) (x : GwGroup) : (s.setGgroup g x).sessions = s.sessions := rfl
@[simp] theorem State.setGgroup_update (g : Nat) (x : GwGroup) : (s.setGgroup g x).update = s.update := rfl
@[simp] theorem State.setGgroup_jrn (g : Nat) (x : GwGroup) : (s.setGgroup g x).jrn = s.jrn := rfl
@[simp] theorem State.setGgroup_flash (g : Nat) (x : GwGroup) : (s.setGgroup g x).flash = s.flash := rfl
@[simp] theorem State.setGgroup_berths (g : Nat) (x : GwGroup) : (s.setGgroup g x).berths = s.berths := rfl
@[simp] theorem State.setGgroup_cleanMap (g : Nat) (x : GwGroup) : (s.setGgroup g x).cleanMap = s.cleanMap := rfl
@[simp] theorem State.setGgroup_fns (g : Nat) (x : GwGroup) : (s.setGgroup g x).fns = s.fns := rfl
@[simp] theorem State.setGgroup_host (g : Nat) (x : GwGroup) : (s.setGgroup g x).host = s.host := rfl
@[simp] theorem State.setGgroup_ferry (g : Nat) (x : GwGroup) : (s.setGgroup g x).ferry = s.ferry := rfl
@[simp] theorem State.setGgroup_cover (g : Nat) (x : GwGroup) : (s.setGgroup g x).cover = s.cover := rfl
@[simp] theorem State.setGgroup_piers (g : Nat) (x : GwGroup) : (s.setGgroup g x).piers = s.piers := rfl
@[simp] theorem State.setGgroup_pgroups (g : Nat) (x : GwGroup) : (s.setGgroup g x).pgroups = s.pgroups := rfl
@[simp] theorem State.setGgroup_reports (g : Nat) (x : GwGroup) : (s.setGgroup g x).reports = s.reports := rfl
@[simp] theorem State.setGgroup_lanes (g : Nat) (x : GwGroup) : (s.setGgroup g x).lanes = s.lanes := rfl
@[simp] theorem State.setGgroup_links (g : Nat) (x : GwGroup) : (s.setGgroup g x).links = s.links := rfl
@[simp] theorem State.setGgroup_crossing (g : Nat) (x : GwGroup) : (s.setGgroup g x).crossing = s.crossing := rfl
@[simp] theorem State.setGgroup_press (g : Nat) (x : GwGroup) : (s.setGgroup g x).press = s.press := rfl
@[simp] theorem State.setGgroup_out (g : Nat) (x : GwGroup) : (s.setGgroup g x).out = s.out := rfl
@[simp] theorem State.setGgroup_pending (g : Nat) (x : GwGroup) : (s.setGgroup g x).pending = s.pending := rfl
@[simp] theorem State.setGgroup_island (g : Nat) (x : GwGroup) (j : Island) : (s.setGgroup g x).island j = s.island j := rfl
@[simp] theorem State.setGgroup_site (g : Nat) (x : GwGroup) (j : Nat) : (s.setGgroup g x).site j = s.site j := rfl
@[simp] theorem State.setGgroup_berth (g : Nat) (x : GwGroup) (j : Nat) : (s.setGgroup g x).berth j = s.berth j := rfl
@[simp] theorem State.setGgroup_record (g : Nat) (x : GwGroup) (j : Nat) : (s.setGgroup g x).record j = s.record j := rfl
@[simp] theorem State.setGgroup_slot (g : Nat) (x : GwGroup) (j : Nat) : (s.setGgroup g x).slot j = s.slot j := rfl
@[simp] theorem State.setGgroup_shadow (g : Nat) (x : GwGroup) (j : Nat) : (s.setGgroup g x).shadow j = s.shadow j := rfl
@[simp] theorem State.setGgroup_fn (g : Nat) (x : GwGroup) (j : Func) : (s.setGgroup g x).fn j = s.fn j := rfl
@[simp] theorem State.setGgroup_hslot (g : Nat) (x : GwGroup) (j : Nat) : (s.setGgroup g x).hslot j = s.hslot j := rfl
@[simp] theorem State.setGgroup_ch (g : Nat) (x : GwGroup) (j : Nat) : (s.setGgroup g x).ch j = s.ch j := rfl
@[simp] theorem State.setGgroup_chMap (g : Nat) (x : GwGroup) (j : Nat) : (s.setGgroup g x).chMap j = s.chMap j := rfl
@[simp] theorem State.setGgroup_pch (g : Nat) (x : GwGroup) (j : Nat) : (s.setGgroup g x).pch j = s.pch j := rfl
@[simp] theorem State.setGgroup_pier (g : Nat) (x : GwGroup) (j : Nat) : (s.setGgroup g x).pier j = s.pier j := rfl
@[simp] theorem State.setGgroup_pgroup (g : Nat) (x : GwGroup) (j : Nat) : (s.setGgroup g x).pgroup j = s.pgroup j := rfl
@[simp] theorem State.setGgroup_link (g : Nat) (x : GwGroup) (j : Nat) : (s.setGgroup g x).link j = s.link j := rfl
@[simp] theorem State.setGgroup_bp (g : Nat) (x : GwGroup) (j : Nat) : (s.setGgroup g x).bp j = s.bp j := rfl
@[simp] theorem State.setGgroup_array (g : Nat) (x : GwGroup) (j : Nat) : (s.setGgroup g x).array j = s.array j := rfl
@[simp] theorem State.setBp_pins (b : Nat) (x : BerthPress) : (s.setBp b x).pins = s.pins := rfl
@[simp] theorem State.setBp_ring (b : Nat) (x : BerthPress) : (s.setBp b x).ring = s.ring := rfl
@[simp] theorem State.setBp_power (b : Nat) (x : BerthPress) : (s.setBp b x).power = s.power := rfl
@[simp] theorem State.setBp_isl (b : Nat) (x : BerthPress) : (s.setBp b x).isl = s.isl := rfl
@[simp] theorem State.setBp_pilot (b : Nat) (x : BerthPress) : (s.setBp b x).pilot = s.pilot := rfl
@[simp] theorem State.setBp_board (b : Nat) (x : BerthPress) : (s.setBp b x).board = s.board := rfl
@[simp] theorem State.setBp_fuse (b : Nat) (x : BerthPress) : (s.setBp b x).fuse = s.fuse := rfl
@[simp] theorem State.setBp_lc (b : Nat) (x : BerthPress) : (s.setBp b x).lc = s.lc := rfl
@[simp] theorem State.setBp_vault (b : Nat) (x : BerthPress) : (s.setBp b x).vault = s.vault := rfl
@[simp] theorem State.setBp_crypto (b : Nat) (x : BerthPress) : (s.setBp b x).crypto = s.crypto := rfl
@[simp] theorem State.setBp_sessions (b : Nat) (x : BerthPress) : (s.setBp b x).sessions = s.sessions := rfl
@[simp] theorem State.setBp_update (b : Nat) (x : BerthPress) : (s.setBp b x).update = s.update := rfl
@[simp] theorem State.setBp_jrn (b : Nat) (x : BerthPress) : (s.setBp b x).jrn = s.jrn := rfl
@[simp] theorem State.setBp_flash (b : Nat) (x : BerthPress) : (s.setBp b x).flash = s.flash := rfl
@[simp] theorem State.setBp_berths (b : Nat) (x : BerthPress) : (s.setBp b x).berths = s.berths := rfl
@[simp] theorem State.setBp_cleanMap (b : Nat) (x : BerthPress) : (s.setBp b x).cleanMap = s.cleanMap := rfl
@[simp] theorem State.setBp_fns (b : Nat) (x : BerthPress) : (s.setBp b x).fns = s.fns := rfl
@[simp] theorem State.setBp_host (b : Nat) (x : BerthPress) : (s.setBp b x).host = s.host := rfl
@[simp] theorem State.setBp_ferry (b : Nat) (x : BerthPress) : (s.setBp b x).ferry = s.ferry := rfl
@[simp] theorem State.setBp_cover (b : Nat) (x : BerthPress) : (s.setBp b x).cover = s.cover := rfl
@[simp] theorem State.setBp_piers (b : Nat) (x : BerthPress) : (s.setBp b x).piers = s.piers := rfl
@[simp] theorem State.setBp_pgroups (b : Nat) (x : BerthPress) : (s.setBp b x).pgroups = s.pgroups := rfl
@[simp] theorem State.setBp_reports (b : Nat) (x : BerthPress) : (s.setBp b x).reports = s.reports := rfl
@[simp] theorem State.setBp_lanes (b : Nat) (x : BerthPress) : (s.setBp b x).lanes = s.lanes := rfl
@[simp] theorem State.setBp_links (b : Nat) (x : BerthPress) : (s.setBp b x).links = s.links := rfl
@[simp] theorem State.setBp_ggroups (b : Nat) (x : BerthPress) : (s.setBp b x).ggroups = s.ggroups := rfl
@[simp] theorem State.setBp_crossing (b : Nat) (x : BerthPress) : (s.setBp b x).crossing = s.crossing := rfl
@[simp] theorem State.setBp_out (b : Nat) (x : BerthPress) : (s.setBp b x).out = s.out := rfl
@[simp] theorem State.setBp_pending (b : Nat) (x : BerthPress) : (s.setBp b x).pending = s.pending := rfl
@[simp] theorem State.setBp_island (b : Nat) (x : BerthPress) (j : Island) : (s.setBp b x).island j = s.island j := rfl
@[simp] theorem State.setBp_site (b : Nat) (x : BerthPress) (j : Nat) : (s.setBp b x).site j = s.site j := rfl
@[simp] theorem State.setBp_berth (b : Nat) (x : BerthPress) (j : Nat) : (s.setBp b x).berth j = s.berth j := rfl
@[simp] theorem State.setBp_record (b : Nat) (x : BerthPress) (j : Nat) : (s.setBp b x).record j = s.record j := rfl
@[simp] theorem State.setBp_slot (b : Nat) (x : BerthPress) (j : Nat) : (s.setBp b x).slot j = s.slot j := rfl
@[simp] theorem State.setBp_shadow (b : Nat) (x : BerthPress) (j : Nat) : (s.setBp b x).shadow j = s.shadow j := rfl
@[simp] theorem State.setBp_fn (b : Nat) (x : BerthPress) (j : Func) : (s.setBp b x).fn j = s.fn j := rfl
@[simp] theorem State.setBp_hslot (b : Nat) (x : BerthPress) (j : Nat) : (s.setBp b x).hslot j = s.hslot j := rfl
@[simp] theorem State.setBp_ch (b : Nat) (x : BerthPress) (j : Nat) : (s.setBp b x).ch j = s.ch j := rfl
@[simp] theorem State.setBp_chMap (b : Nat) (x : BerthPress) (j : Nat) : (s.setBp b x).chMap j = s.chMap j := rfl
@[simp] theorem State.setBp_pch (b : Nat) (x : BerthPress) (j : Nat) : (s.setBp b x).pch j = s.pch j := rfl
@[simp] theorem State.setBp_pier (b : Nat) (x : BerthPress) (j : Nat) : (s.setBp b x).pier j = s.pier j := rfl
@[simp] theorem State.setBp_pgroup (b : Nat) (x : BerthPress) (j : Nat) : (s.setBp b x).pgroup j = s.pgroup j := rfl
@[simp] theorem State.setBp_link (b : Nat) (x : BerthPress) (j : Nat) : (s.setBp b x).link j = s.link j := rfl
@[simp] theorem State.setBp_ggroup (b : Nat) (x : BerthPress) (j : Nat) : (s.setBp b x).ggroup j = s.ggroup j := rfl
@[simp] theorem State.setBp_array (b : Nat) (x : BerthPress) (j : Nat) : (s.setBp b x).array j = s.array j := rfl

/-! ### What MB3 sends -/

@[simp] theorem emit_pins (e : Emission) : (emit s e).pins = s.pins := rfl
@[simp] theorem emit_ring (e : Emission) : (emit s e).ring = s.ring := rfl
@[simp] theorem emit_power (e : Emission) : (emit s e).power = s.power := rfl
@[simp] theorem emit_isl (e : Emission) : (emit s e).isl = s.isl := rfl
@[simp] theorem emit_pilot (e : Emission) : (emit s e).pilot = s.pilot := rfl
@[simp] theorem emit_board (e : Emission) : (emit s e).board = s.board := rfl
@[simp] theorem emit_fuse (e : Emission) : (emit s e).fuse = s.fuse := rfl
@[simp] theorem emit_lc (e : Emission) : (emit s e).lc = s.lc := rfl
@[simp] theorem emit_vault (e : Emission) : (emit s e).vault = s.vault := rfl
@[simp] theorem emit_crypto (e : Emission) : (emit s e).crypto = s.crypto := rfl
@[simp] theorem emit_sessions (e : Emission) : (emit s e).sessions = s.sessions := rfl
@[simp] theorem emit_update (e : Emission) : (emit s e).update = s.update := rfl
@[simp] theorem emit_jrn (e : Emission) : (emit s e).jrn = s.jrn := rfl
@[simp] theorem emit_flash (e : Emission) : (emit s e).flash = s.flash := rfl
@[simp] theorem emit_berths (e : Emission) : (emit s e).berths = s.berths := rfl
@[simp] theorem emit_cleanMap (e : Emission) : (emit s e).cleanMap = s.cleanMap := rfl
@[simp] theorem emit_fns (e : Emission) : (emit s e).fns = s.fns := rfl
@[simp] theorem emit_host (e : Emission) : (emit s e).host = s.host := rfl
@[simp] theorem emit_ferry (e : Emission) : (emit s e).ferry = s.ferry := rfl
@[simp] theorem emit_cover (e : Emission) : (emit s e).cover = s.cover := rfl
@[simp] theorem emit_piers (e : Emission) : (emit s e).piers = s.piers := rfl
@[simp] theorem emit_pgroups (e : Emission) : (emit s e).pgroups = s.pgroups := rfl
@[simp] theorem emit_reports (e : Emission) : (emit s e).reports = s.reports := rfl
@[simp] theorem emit_lanes (e : Emission) : (emit s e).lanes = s.lanes := rfl
@[simp] theorem emit_links (e : Emission) : (emit s e).links = s.links := rfl
@[simp] theorem emit_ggroups (e : Emission) : (emit s e).ggroups = s.ggroups := rfl
@[simp] theorem emit_crossing (e : Emission) : (emit s e).crossing = s.crossing := rfl
@[simp] theorem emit_press (e : Emission) : (emit s e).press = s.press := rfl
@[simp] theorem emit_pending (e : Emission) : (emit s e).pending = s.pending := rfl
@[simp] theorem emit_out (e : Emission) (h : (s.pins.boundaryControls && closedPath e) = false) : (emit s e).out = e :: s.out := by
  simp [emit, h]
@[simp] theorem emit_closed (e : Emission) (h : (s.pins.boundaryControls && closedPath e) = true) : emit s e = s := by
  simp [emit, h]
@[simp] theorem emit_island (e : Emission) (j : Island) : (emit s e).island j = s.island j := rfl
@[simp] theorem emit_site (e : Emission) (j : Nat) : (emit s e).site j = s.site j := rfl
@[simp] theorem emit_berth (e : Emission) (j : Nat) : (emit s e).berth j = s.berth j := rfl
@[simp] theorem emit_record (e : Emission) (j : Nat) : (emit s e).record j = s.record j := rfl
@[simp] theorem emit_slot (e : Emission) (j : Nat) : (emit s e).slot j = s.slot j := rfl
@[simp] theorem emit_shadow (e : Emission) (j : Nat) : (emit s e).shadow j = s.shadow j := rfl
@[simp] theorem emit_fn (e : Emission) (j : Func) : (emit s e).fn j = s.fn j := rfl
@[simp] theorem emit_hslot (e : Emission) (j : Nat) : (emit s e).hslot j = s.hslot j := rfl
@[simp] theorem emit_ch (e : Emission) (j : Nat) : (emit s e).ch j = s.ch j := rfl
@[simp] theorem emit_chMap (e : Emission) (j : Nat) : (emit s e).chMap j = s.chMap j := rfl
@[simp] theorem emit_pch (e : Emission) (j : Nat) : (emit s e).pch j = s.pch j := rfl
@[simp] theorem emit_pier (e : Emission) (j : Nat) : (emit s e).pier j = s.pier j := rfl
@[simp] theorem emit_pgroup (e : Emission) (j : Nat) : (emit s e).pgroup j = s.pgroup j := rfl
@[simp] theorem emit_link (e : Emission) (j : Nat) : (emit s e).link j = s.link j := rfl
@[simp] theorem emit_ggroup (e : Emission) (j : Nat) : (emit s e).ggroup j = s.ggroup j := rfl
@[simp] theorem emit_bp (e : Emission) (j : Nat) : (emit s e).bp j = s.bp j := rfl
@[simp] theorem emit_array (e : Emission) (j : Nat) : (emit s e).array j = s.array j := rfl

end Sys2Proof.Machine
end

