-- ==== Sys2Proof/Laws/Ops.lean ====
section
/-! SUPPORT. What the shared operations can do, said once: the gates that decide whether a command acts, and for each operation the part
of the state that it may change. -/

namespace Sys2Proof.Machine

variable (s : State)

/-! ### The gates: a command that may act does, and any other changes nothing -/

@[simp] theorem whenRunning_open (f : State → State) (h : accepts s = true) : whenRunning s f = .next (f s) := by simp [whenRunning, h]
@[simp] theorem whenRunning_closed (f : State → State) (h : accepts s = false) : whenRunning s f = .next s := by simp [whenRunning, h]
@[simp] theorem whenCommanded_open (f : State → State) (h : commanded s = true) : whenCommanded s f = .next (f s) := by
  simp [whenCommanded, h]
@[simp] theorem whenCommanded_closed (f : State → State) (h : commanded s = false) : whenCommanded s f = .next s := by
  simp [whenCommanded, h]
@[simp] theorem whenFuse_open (f : State → State) (h : fuseCommanded s = true) : whenFuse s f = .next (f s) := by simp [whenFuse, h]
@[simp] theorem whenFuse_closed (f : State → State) (h : fuseCommanded s = false) : whenFuse s f = .next s := by simp [whenFuse, h]
@[simp] theorem whenVault_open (f : State → State) (h : vaultCommanded s = true) : whenVault s f = .next (f s) := by simp [whenVault, h]
@[simp] theorem whenVault_closed (f : State → State) (h : vaultCommanded s = false) : whenVault s f = .next s := by simp [whenVault, h]
@[simp] theorem whenPilot_open (f : State → State) (h : pilotUp s = true) : whenPilot s f = .next (f s) := by simp [whenPilot, h]
@[simp] theorem whenPilot_closed (f : State → State) (h : pilotUp s = false) : whenPilot s f = .next s := by simp [whenPilot, h]
@[simp] theorem whenHost_open (f : State → State) (h : accepts s = true) (b : s.pins.boundaryControls = false) :
    whenHost s f = .next (f s) := by simp [whenHost, h, b]
@[simp] theorem whenMemory_open (f : State → State) (h : accepts s = true) (b : s.pins.boundaryControls = false) :
    whenMemory s f = .next (f s) := by simp [whenMemory, h, b]
@[simp] theorem whenChained_open (f : State → State) (h : chained s = true) : whenChained s f = .next (f s) := by simp [whenChained, h]
@[simp] theorem whenChained_closed (f : State → State) (h : chained s = false) : whenChained s f = .next s := by simp [whenChained, h]

/-- A posted write to BAR0 of a function that exists, with Memory Space Enable 1, acts. -/
@[simp] theorem barOpen_open (f : Func) (g : State → State) (h : fnExists s f = true) (m : (s.fn f).mse = true) : barOpen s f g = g s := by
  simp [barOpen, h, m]
/-- With Memory Space Enable 0 it is dropped and reported (R528). -/
@[simp] theorem barOpen_off (f : Func) (g : State → State) (h : fnExists s f = true) (m : (s.fn f).mse = false) :
    barOpen s f g = aer s f 0 := by simp [barOpen, h, m]
@[simp] theorem barOpen_gone (f : Func) (g : State → State) (h : fnExists s f = false) : barOpen s f g = s := by simp [barOpen, h]

/-- Pilot's firmware runs only while commands are taken. -/
theorem pilotUp_accepts (h : pilotUp s = true) : accepts s = true := by
  simp only [pilotUp, Bool.and_eq_true] at h; exact h.1

/-! ### Frames: what an operation may change -/

/-- An emission changes the list of emissions alone. -/
theorem emit_frame (e : Emission) : { emit s e with out := s.out } = s := rfl

theorem aer_frame (f : Func) (k : Nat) : { aer s f k with out := s.out } = s := rfl

/-- A function's registers are changed alone. -/
theorem modFn_frame (f : Func) (g : HostFn → HostFn) : { modFn s f g with fns := s.fns } = s := rfl
@[simp] theorem modFn_fn (f : Func) (g : HostFn → HostFn) : (modFn s f g).fn f = g (s.fn f) := by simp [modFn]
@[simp] theorem modFn_fn_ne (f : Func) (g : HostFn → HostFn) (j : Func) (h : fnIx j ≠ fnIx f) : (modFn s f g).fn j = s.fn j := by
  simp [modFn, h]
theorem modHost_frame (g : HostGuard → HostGuard) : { modHost s g with host := s.host } = s := rfl

/-- A draw changes the count of drawn bytes and the count of requests since the last reseed. -/
theorem drew_frame (n : Nat) : { drew s n with pilot := s.pilot, vault := s.vault } = s := rfl

/-- An alarm changes an island's outbound queue alone (R565). -/
theorem alarm_frame (i : Island) (k : BitVec 16) (a b : Word) : { alarm s i k a b with jrn := s.jrn } = s := rfl

/-- The end of a vault command changes BUSY, DONE and ERR alone (R234). -/
theorem vaultEnd_frame (e : Byte) : { vaultEnd s e with vault := s.vault } = s := rfl
@[simp] theorem vaultEnd_slot (e : Byte) (k : Nat) : (vaultEnd s e).slot k = s.slot k := rfl
@[simp] theorem vaultEnd_record (e : Byte) (b : Nat) : (vaultEnd s e).record b = s.record b := rfl
theorem putSlot_frame (k : Nat) (d : DeviceSlot) : { putSlot s k d with vault := s.vault } = s := rfl
@[simp] theorem putSlot_slot_ne (k : Nat) (d : DeviceSlot) (j : Nat) (h : j ≠ k) : (putSlot s k d).slot j = s.slot j := by
  simp [putSlot, State.slot, h]
@[simp] theorem putSlot_record (k : Nat) (d : DeviceSlot) (b : Nat) : (putSlot s k d).record b = s.record b := rfl

/-- A use of a slot changes the vault and the vault's outbound queue alone (R207). -/
theorem useSlot_frame (k : Nat) : { (useSlot s k).1 with vault := s.vault, jrn := s.jrn } = s := by
  unfold useSlot; split <;> try split
  all_goals rfl
theorem useRecord_frame (b : Nat) : { (useRecord s b).1 with vault := s.vault, jrn := s.jrn } = s := by
  unfold useRecord; split <;> try split
  all_goals rfl
theorem touchSlot_frame (k : Nat) : { touchSlot s k with vault := s.vault, jrn := s.jrn } = s := by
  unfold touchSlot; split
  · exact useSlot_frame s k
  · rfl
/-- A use that may go on has changed nothing. -/
theorem useSlot_sound (k : Nat) (h : (useSlot s k).2 = true) : (useSlot s k).1 = s ∧ slotSound s k = true := by
  unfold useSlot at h ⊢; split at h <;> simp_all
  split at h <;> simp at h

/-- A request for a translation changes the host guard and the list of emissions alone (R548). -/
theorem askTrans_frame (fn ch range : Nat) (w : Bool) (n : Nat) :
    { askTrans s fn ch range w n with host := s.host, out := s.out } = s := by
  unfold askTrans; split <;> rfl
theorem transMiss_frame (fn ch range : Nat) (w : Bool) :
    { transMiss s fn ch range w with fns := s.fns, host := s.host, out := s.out } = s := by
  have h := askTrans_frame (hgCount s fn 0) fn ch range w 0
  exact congrArg (fun t => { t with fns := s.fns }) h
theorem atcTouch_frame (fn : Nat) (u : Option (Nat × Nat)) : { atcTouch s fn u with host := s.host } = s := by
  unfold atcTouch; split <;> rfl

/-- A message of MSI-X changes the functions, the host guard and the list of emissions alone (R526, R547). -/
theorem msixSend_frame (raw : Option (Nat × Nat)) (f : Func) (v : Nat) :
    { msixSend s raw f v with fns := s.fns, host := s.host, out := s.out } = s := by
  unfold msixSend; split
  · dsimp only
    split
    · rename_i u _; exact congrArg (fun t => { t with fns := s.fns, out := s.out }) (atcTouch_frame s _ u)
    · exact congrArg (fun t => { t with fns := s.fns }) (transMiss_frame (modFn s _ _) _ _ _ _)
    · rfl
  · rfl
theorem msix_frame (f : Func) (v : Nat) : { msix s f v with fns := s.fns, host := s.host, out := s.out } = s := by
  unfold msix; split
  · exact msixSend_frame s none f v
  · rfl

/-- A change of a berth's record changes the vault and, where ROTATING changes, what its message of MSI-X does (R228, R526). -/
theorem putRecord_frame (b : Nat) (r : BerthRecord) :
    { putRecord s b r with vault := s.vault, fns := s.fns, host := s.host, out := s.out } = s := by
  unfold putRecord rotationSeen; split
  · rfl
  · exact congrArg (fun t => { t with vault := s.vault }) (msix_frame { s with vault := _ } .pf1 1)
theorem changeRecord_frame (b : Nat) (r : BerthRecord) :
    { changeRecord s b r with vault := s.vault, fns := s.fns, host := s.host, out := s.out } = s := putRecord_frame s b _

/-- A response changes the message slots and the list of emissions alone (R530). -/
theorem replyMs_frame (f : Func) (c m : Byte) (b : Bytes) : { replyMs s f c m b with host := s.host, out := s.out } = s := by
  unfold replyMs putResponse; dsimp only; split <;> rfl
theorem reply_frame (f : Func) (c : Byte) (b : Bytes) : { reply s f c b with host := s.host, out := s.out } = s := replyMs_frame s f c 0 b
/-- To a mailbox that serves nothing, it changes the list of emissions alone. -/
theorem replyMs_discarded (f : Func) (c m : Byte) (b : Bytes) (h : (s.fn f).mbx ≠ .serving) : replyMs s f c m b = emit s (.reply f c m b) := by
  unfold replyMs putResponse; dsimp only; split
  · rename_i e _; exact absurd e h
  · rfl

/-! ### Records of the journal (R566, R567, R571) -/

/-- What only ever emits changes the list of emissions alone. -/
theorem foldl_frame {α : Type} (f : State → α → State) (hf : ∀ t a, { f t a with out := s.out } = { t with out := s.out }) :
    ∀ (l : List α) (t : State), { l.foldl f t with out := s.out } = { t with out := s.out }
  | [], _ => rfl
  | a :: l, t => (foldl_frame f hf l (f t a)).trans (hf t a)
theorem sendMctp_frame (dst : Byte) (o : Bool) (e : Emission) (m : Bytes) : { sendMctp s dst o e m with out := s.out } = s := by
  unfold sendMctp
  let peer := tget { pos := Config.ringPosition dst, tag := 0, inst := 0 } s.ring.peers dst.toNat
  exact foldl_frame s (fun u p => sendRing u { dst := peer.pos, src := u.ring.position, hops := ownHops, kind := 0x01, payload := p })
    (fun _ _ => rfl) (mctpPackets dst s.ring.eid o (if o then 0 else peer.tag) m) (emit s e)

/-- ALARM_NOTIFY changes the ring agent and the list of emissions alone. -/
theorem notify_frame (k : BitVec 16) (n : Nat) (e : DWord) : { notify s k n e with ring := s.ring, out := s.out } = s := by
  unfold notify; dsimp only; split
  · rfl
  · exact congrArg (fun t => { t with ring := s.ring }) (sendMctp_frame { s with ring := _ } _ _ _ _)

/-- A record posted to the fault window changes the journal and, where vector 1 is raised, what its message does (R568). -/
theorem fltPost_frame (r : Bytes) :
    { fltPost s r with jrn := s.jrn, fns := s.fns, host := s.host, out := s.out } = s := by
  unfold fltPost; dsimp only; split
  · exact congrArg (fun t => { t with jrn := s.jrn }) (msix_frame { s with jrn := _ } .pf0 1)
  · rfl

theorem bufferRecord_frame (r : Bytes) : { bufferRecord s r with jrn := s.jrn } = s := by
  unfold bufferRecord; dsimp only; split <;> rfl

/-- A state with the parts that the writing of a record may change put back: the journal, a use of slot 6 in the vault, the draws of its
SALT, and what goes out by its routes through the ring agent and the functions. -/
def recordBack (s t : State) : State :=
  { t with vault := s.vault, pilot := s.pilot, ring := s.ring, jrn := s.jrn, fns := s.fns, host := s.host, out := s.out }

/-- Only what the writing of a record may change has changed. -/
def Recorded (s t : State) : Prop := recordBack s t = s

theorem Recorded.trans {s t u : State} (h : Recorded s t) (k : Recorded t u) : Recorded s u := (congrArg (recordBack s) k).trans h

theorem recordEntryBy_frame (routed : Bool) (e : AlarmEntry) : Recorded s (recordEntryBy routed s e) := by
  unfold recordEntryBy; dsimp only; split
  · rfl
  · have flt (x : State) (r : Bytes) : Recorded x (fltPost x r) := by
      have h := congrArg (recordBack x) (fltPost_frame x r); exact h
    have ntf (x : State) (k : BitVec 16) (n : Nat) (d : DWord) : Recorded x (notify x k n d) := by
      have h := congrArg (recordBack x) (notify_frame x k n d); exact h
    have buf (x : State) (n : Nat) (r : Bytes) : Recorded x (bufferRecord { x with jrn := { x.jrn with index := n } } r) := by
      have h := congrArg (recordBack x) (bufferRecord_frame { x with jrn := { x.jrn with index := n } } r); exact h
    have slt (x : State) : Recorded x (if saltDrawn x = true then drew x 4 else x) := by split <;> rfl
    have use : Recorded s (touchSlot s 6) := by
      have h := congrArg (recordBack s) (touchSlot_frame s 6); exact h
    have upto (n : Nat) (r : Bytes) := (use.trans (slt (touchSlot s 6))).trans (buf _ n r)
    have flt' (c : Bool) (x : State) (r : Bytes) : Recorded x (if c = true then fltPost x r else x) := by
      split
      · exact flt x r
      · rfl
    have ntf' (c : Bool) (x : State) (k : BitVec 16) (n : Nat) (d : DWord) : Recorded x (if c = true then notify x k n d else x) := by
      split
      · exact ntf x k n d
      · rfl
    exact ((upto _ _).trans (flt' _ _ _)).trans (ntf' _ _ _ _ _)

/-- A record of Pilot's own, which waits for its event number before the journal scan (R572). -/
theorem record_frame (k : BitVec 16) (a b : Word) : Recorded s (record s k a b) := by
  unfold record takeEntry; split
  · exact recordEntryBy_frame s true _
  · rfl

/-! ### The halt -/

/-- The halt changes the pins, the ring agent, Pilot and the list of emissions alone (R70, R132). -/
theorem forwardToken_frame : { forwardToken s with ring := s.ring, out := s.out } = s := by
  unfold forwardToken; split <;> rfl
theorem halt_frame (c : Byte) : { halt s c with pins := s.pins, ring := s.ring, pilot := s.pilot, out := s.out } = s :=
  congrArg (fun t => { t with pins := s.pins, ring := s.ring, pilot := s.pilot }) (forwardToken_frame { s with pins := _, ring := _, pilot := _ })
@[simp] theorem forwardToken_pilot : (forwardToken s).pilot = s.pilot := by unfold forwardToken; split <;> rfl
@[simp] theorem forwardToken_pins : (forwardToken s).pins = s.pins := by unfold forwardToken; split <;> rfl
@[simp] theorem halt_phase (c : Byte) : (halt s c).pilot.phase = .halted := by simp [halt]
@[simp] theorem halt_code (c : Byte) : (halt s c).pilot.haltCode = c := by simp [halt]
@[simp] theorem halt_stat (c : Byte) : (halt s c).pins.stat = c := by simp [halt]

end Sys2Proof.Machine
end

