-- ==== Sys2Proof/WellFormed.lean ====
section
/-! DEFINITION. Well-formed commands: every number names a part that MB3 has (R5 and the table of ranges in 00_scope.md). -/

namespace Sys2Proof

def islandOk : Island → Bool
  | .pier n => decide (n < 154)
  | .gangway n => decide (n < 52)
  | .press n => decide (n < 16)
  | .ferry n => decide (n < 8)
  | .hostGuard => true
  | .boarding => true
  | .trustCore => true
  | .vaultFuse => true

def funcOk : Func → Bool
  | .pf0 => true
  | .pf1 => true
  | .vf n => decide (n < 4096)

def pierTargetOk : PierTarget → Bool
  | .pier n => decide (n < 154)
  | .group g => decide (g < 9)
  | .all => true

def gwTargetOk : GwTarget → Bool
  | .lane n => decide (n < 52)
  | .group g => decide (g < 4)
  | .all => true

def testGroupOk : TestGroup → Bool
  | .piers g => decide (g < 9)
  | .gangway g => decide (g < 4)
  | .press => true

def broadcastOk : BroadcastKind → Bool
  | .tables b => decide (b < 4096)
  | .gate b => decide (b < 4096)

def peripheralOk : Peripheral → Bool
  | .flash => true
  | .press n => decide (n < 16)
  | .sampler b => decide (b < 4096)
  | .gangway n => decide (n < 52)

def regPortOk : RegPort → Bool
  | .pilot => true
  | .pilotNarrow _ => true
  | .jtag => true
  | .bar f => funcOk f
  | .barPair f _ => funcOk f
  | .barBytes f d _ => funcOk f && decide (d.length ≤ 64)
  | .barRead f n => funcOk f && decide (n ≤ 64)
  | .config f => funcOk f
  | .configRead f => funcOk f

def debugActOk : DebugAct → Bool
  | .trace i => islandOk i
  | .mbist i => islandOk i
  | _ => true

/-- A command all of whose numbers are in range. What the spec answers for a number out of range (a berth of GET_BERTH_STATE,
a slot of GET_CERTIFICATE) is in range here. -/
def wellFormed : Instr → Bool
  | .mbPorstNAssert _ => true
  | .resetRelease _ _ => true
  | .haltSeenElsewhere => true
  | .referenceClockLoss => true
  | .pllLockLoss isl _ _ => islandOk isl
  | .vppOkSet => true
  | .vppWindowExit _ => true
  | .cableRingAgentStart => true
  | .ringFrameReceive _ => true
  | .ringEnumerate _ => true
  | .orderingToken _ => true
  | .tokenWaitLimit => true
  | .setEndpointId _ _ => true
  | .getEndpointId _ => true
  | .getMctpVersionSupport _ => true
  | .getMessageTypeSupport _ => true
  | .mctpOtherMessage _ _ => true
  | .getVersion _ => true
  | .getCapabilities _ _ => true
  | .negotiateAlgorithms _ _ _ => true
  | .getDigests _ => true
  | .getCertificate _ _ _ _ => true
  | .challenge _ _ _ => true
  | .getMeasurements _ _ _ _ => true
  | .spdmUnsupportedRequest _ _ => true
  | .getUnitStatus _ => true
  | .getBerthState _ _ => true
  | .alarmNotifyHoldoffExpiry _ => true
  | .bypass => true
  | .idcode => true
  | .samplePreload _ _ => true
  | .extest _ _ => true
  | .jtagPrivateInstruction _ => true
  | .debugPortAccess a _ _ => debugActOk a
  | .pwrDomainOn pd => decide (pd < 20)
  | .pwrDomainOff pd => decide (pd < 20)
  | .domainPowerUpDone pd => decide (pd < 20)
  | .islandSelfTestStart isl => islandOk isl
  | .islandSelfTestDone isl _ => islandOk isl
  | .selfTestCollectionTimeout => true
  | .coreIslandSelfTestDone isl _ => islandOk isl
  | .fuseSensingDone _ _ => true
  | .romPolicy => true
  | .entropyStartupDone _ => true
  | .flashSfdpDone _ _ _ => true
  | .bootSourceCheck => true
  | .flashBlockRead _ => true
  | .chainVerified => true
  | .firmwareEntry => true
  | .microcodeInstall _ => true
  | .microcodeCrcReturn isl _ => islandOk isl
  | .mgmtFirmwareLoad => true
  | .outGo => true
  | .mgmtOutTaken => true
  | .inFullClear => true
  | .loadEn _ => true
  | .mgmtRun _ => true
  | .memTrained _ _ => true
  | .linkTrained _ => true
  | .ack _ => true
  | .unknown _ => true
  | .boardingWaveStart _ _ => true
  | .boardingReply site _ => decide (site < 12)
  | .loadAck site _ => decide (site < 12)
  | .boardingSlotEnd => true
  | .packageReady => true
  | .send site => decide (site < 12)
  | .abort site => decide (site < 12)
  | .rxReadyClear site => decide (site < 12)
  | .siteReplyAssembled site _ => decide (site < 12)
  | .siteReplyTimeout site => decide (site < 12)
  | .sidebandDown site => decide (site < 12)
  | .siteReboard _ => true
  | .lockstepMismatch => true
  | .warmRestartResume _ => true
  | .warmRestartGuardExpiry => true
  | .pilotHalt _ => true
  | .pilotAccessFault _ => true
  | .program _ _ => true
  | .increment _ _ => true
  | .finalise _ _ => true
  | .lockWrite _ _ => true
  | .lockRead _ _ => true
  | .resense _ _ _ => true
  | .resenseAll _ _ _ => true
  | .wipe _ _ => true
  | .seal _ _ => true
  | .fuseReservedOp _ _ _ => true
  | .fuseBitPulseDone _ => true
  | .fuseTackCommit => true
  | .go _ => true
  | .grant _ => true
  | .invasiveGrantComplete => true
  | .transition => true
  | .debug => true
  | .resumeWipe => true
  | .lcMboxReservedReq _ => true
  | .endRequest _ => true
  | .generate _ => true
  | .write _ => true
  | .read _ => true
  | .derive _ => true
  | .destroy _ => true
  | .attr _ => true
  | .berthOpen _ => true
  | .rotate _ => true
  | .release _ => true
  | .wrap _ => true
  | .unwrap _ => true
  | .keypair _ => true
  | .destroyAll _ => true
  | .maintEncap _ => true
  | .maintDecap _ => true
  | .jobDraw _ => true
  | .jobEncap _ => true
  | .jobDecap _ => true
  | .promote _ => true
  | .jobDrop _ => true
  | .maintDraw _ => true
  | .vaultReservedOp _ _ => true
  | .invalidation isl => islandOk isl
  | .invalidationAck isl => islandOk isl
  | .vaultFill _ => true
  | .keyFillArrive isl => islandOk isl
  | .sweepDoneReport pier => decide (pier < 154)
  | .sha384Op _ => true
  | .sha3Op _ => true
  | .hmacOp _ => true
  | .aesGcmEncrypt _ => true
  | .aesGcmDecrypt _ => true
  | .hybridSign _ => true
  | .hybridVerify _ => true
  | .drbgRead _ => true
  | .cryptoReservedOp _ _ => true
  | .cryptoOpDone => true
  | .entropyTestFail => true
  | .drbgReseed _ => true
  | .hello vf _ => decide (vf < 4096)
  | .prirdoRelease vf _ => decide (vf < 4096)
  | .prirdoEnd vf _ => decide (vf < 4096)
  | .prirdoReservedType vf _ => decide (vf < 4096)
  | .prirdoSessionTimeout slot => decide (8 ≤ slot ∧ slot < 12)
  | .enrolCsr _ => true
  | .enrolInstall _ => true
  | .updateStatus _ => true
  | .updateBegin _ => true
  | .updateWrite _ => true
  | .updateEnd _ => true
  | .updateAbort _ => true
  | .updateConfirm _ => true
  | .updateEraseDone _ => true
  | .updateValidateDone _ => true
  | .trialConfirm => true
  | .slipwayCopy _ => true
  | .counterBurn => true
  | .settingsWrite _ => true
  | .berthQuery _ => true
  | .berthAssign _ => true
  | .berthWindow _ => true
  | .berthSites _ => true
  | .berthCommit _ => true
  | .berthCommitContinue berth => decide (berth < 4096)
  | .berthRinse _ => true
  | .berthRotate _ => true
  | .berthResume _ => true
  | .ferryShare _ => true
  | .wipeAck site _ _ => decide (site < 12)
  | .wipeTimeout site => decide (site < 12)
  | .rinseStepDone berth => decide (berth < 4096)
  | .rinseSequencerTakeover berth => decide (berth < 4096)
  | .laneCommandAccept isl => islandOk isl
  | .pierLine pier _ => decide (pier < 154)
  | .pierReadReturn pier _ _ => decide (pier < 154)
  | .pierScrubWrite pier => decide (pier < 154)
  | .pierZeroWrite pier => decide (pier < 154)
  | .uninitFillWrite pier => decide (pier < 154)
  | .pierSweepLine pier _ _ => decide (pier < 154)
  | .pairCompletionRead pier cursor _ _ => decide (pier < 154) && decide (cursor < 4)
  | .pierCommitDrainDone pier => decide (pier < 154)
  | .pierPark pier _ => decide (pier < 154)
  | .pierCommitGo t _ => pierTargetOk t
  | .pierZeroGo t => pierTargetOk t
  | .pierZeroUninit t => pierTargetOk t
  | .capturePinRetry vf => decide (vf < 4096)
  | .darn isl _ _ _ => islandOk isl
  | .broadcastAckTimeout isl => islandOk isl
  | .spotTestStart g => testGroupOk g
  | .spotTestEnd g _ => testGroupOk g
  | .broadcast k => broadcastOk k
  | .broadcastAck isl => islandOk isl
  | .linkTrainedEvent lane => decide (lane < 52)
  | .linkLayerDown lane => decide (lane < 52)
  | .linkHello lane _ => decide (lane < 52)
  | .linkKex lane _ => decide (lane < 52)
  | .linkEvidence lane _ => decide (lane < 52)
  | .linkFin lane _ => decide (lane < 52)
  | .linkError lane _ => decide (lane < 52)
  | .keepalive lane _ => decide (lane < 52)
  | .rekey lane _ => decide (lane < 52)
  | .jobOffer lane _ => decide (lane < 52)
  | .jobAccept lane _ => decide (lane < 52)
  | .discover lane _ => decide (lane < 52)
  | .echo lane _ => decide (lane < 52)
  | .formed lane _ => decide (lane < 52)
  | .route lane _ => decide (lane < 52)
  | .payload lane _ => decide (lane < 52)
  | .reservedKindFrame lane _ => decide (lane < 52)
  | .linkHelloTimeout lane => decide (lane < 52)
  | .linkReopenTimer lane => decide (lane < 52)
  | .linkSilenceTimeout lane => decide (lane < 52)
  | .keepaliveTimer lane => decide (lane < 52)
  | .creditWithholdTimeout lane => decide (lane < 52)
  | .evidenceBatchTimer => true
  | .jobOfferRetry lane => decide (lane < 52)
  | .rekeyThreshold lane _ => decide (lane < 52)
  | .close lane => decide (lane < 52)
  | .gwPark lane _ => decide (lane < 52)
  | .gwCommitGo t _ => gwTargetOk t
  | .gwCfSend lane => decide (lane < 52)
  | .gwCfRxFree lane => decide (lane < 52)
  | .pairDigest _ => true
  | .pairVerdict _ => true
  | .jobLeave _ => true
  | .jobOpen vf _ => decide (vf < 4096)
  | .jobClose vf _ => decide (vf < 4096)
  | .jobCloseComplete vf => decide (vf < 4096)
  | .pressDeclPort vf _ _ => decide (vf < 4096)
  | .declare site _ => decide (site < 12)
  | .declHeadCheck vf => decide (vf < 4096)
  | .declArm vf => decide (vf < 4096)
  | .rangeDone pier range => decide (pier < 154) && decide (range < 1024)
  | .operandWaitTimeout vf _ _ => decide (vf < 4096)
  | .tileDispatch array => decide (array < 16)
  | .tileComplete array _ => decide (array < 16)
  | .arrayFault array _ => decide (array < 16)
  | .verdictApply vf => decide (vf < 4096)
  | .pressVerdictCons vf _ => decide (vf < 4096)
  | .pressRegionCommit vf => decide (vf < 4096)
  | .pressPark array _ => decide (array < 16)
  | .holdCheck ch => decide (ch < 512)
  | .holdQuery vf _ => decide (vf < 4096)
  | .jobPeers vf _ => decide (vf < 4096)
  | .pairPoint vf _ => decide (vf < 4096)
  | .pairStatus vf _ => decide (vf < 4096)
  | .pairCursorDone pier cursor => decide (pier < 154) && decide (cursor < 4)
  | .pairDigestTimeout vf _ => decide (vf < 4096)
  | .pairVerdictTimeout vf _ => decide (vf < 4096)
  | .idleTest => true
  | .idleTestReport site _ _ _ => decide (site < 12)
  | .idleTestTimeout site => decide (site < 12)
  | .ferryChDoorbell vf k => decide (vf < 4096) && decide (k < 8)
  | .stop vf k => decide (vf < 4096) && decide (k < 8)
  | .skip vf k => decide (vf < 4096) && decide (k < 8)
  | .resume vf k => decide (vf < 4096) && decide (k < 8)
  | .descriptorFetchDone ch _ => decide (ch < 512)
  | .engineStart eng => decide (eng < 8)
  | .descriptorDone eng => decide (eng < 8)
  | .hostCompletion fn _ _ => funcOk fn
  | .fabricResponse eng _ _ => decide (eng < 8)
  | .hostRequestRetry fn _ => funcOk fn
  | .completionTimeout fn _ => funcOk fn
  | .tagQuarantineExpiry fn _ => funcOk fn
  | .ferryPchGo p => decide (p < 8)
  | .ferryPchAbort p => decide (p < 8)
  | .ferryCommit _ => true
  | .peripheralRequest p _ => peripheralOk p
  | .peripheralBurstDone p => peripheralOk p
  | .ferryEngineFault eng => decide (eng < 8)
  | .islandRestart isl => islandOk isl
  | .vaultIslandRestart _ => true
  | .hostUnsupportedRequest fn _ _ => funcOk fn
  | .mbxGo fn => funcOk fn
  | .next fn => funcOk fn
  | .mbxAbort fn => funcOk fn
  | .mbxExpiry fn => funcOk fn
  | .hgPPop => true
  | .hgPRespSend _ => true
  | .unitStatus _ => true
  | .mailboxUnknownCode fn _ => funcOk fn
  | .flr fn => funcOk fn
  | .busMasterClear fn => funcOk fn
  | .busMasterSet fn => funcOk fn
  | .vfEnableChange _ _ => true
  | .conventionalReset => true
  | .invalidateRequest fn _ _ _ => funcOk fn
  | .invalidateCompletion fn => funcOk fn
  | .translationCompletion fn _ _ => funcOk fn
  | .prgResponse fn _ _ => funcOk fn
  | .pageRequestTimeout fn _ => funcOk fn
  | .pageRequestIndexRelease fn _ => funcOk fn
  | .jrnAqPop => true
  | .journalRecordCommit _ => true
  | .ring => true
  | .hostPost => true
  | .fltCons _ => true
  | .powerOnHourTick => true
  | .countersRecordTimer => true
  | .timeNonce _ => true
  | .timeNonceExpiry => true
  | .timeMark _ => true
  | .journalRead _ => true
  | .counters _ => true
  | .ready => true
  | .forward => true
  | .cringSend => true
  | .cringRxFree => true
  | .registerWrite p _ _ => regPortOk p
  | .packagePowerFail _ => true
  | .trstNAssert => true
  | .msixMaskChange fn vector _ _ => funcOk fn && decide (vector < 10)
  | .priEnableChange fn _ => funcOk fn

end Sys2Proof
end

