-- ==== Sys2Proof/Tests/Slice0.lean ====
section
/-! SUPPORT. Tests of the model, and for every clause of every statement a state and operands that meet its hypotheses. -/

namespace Sys2Proof.Tests

open Sys2Proof Sys2Proof.Machine

set_option maxRecDepth 100000
set_option linter.unusedVariables false
set_option Elab.async false

theorem all_between {P : Nat → Prop} {lo hi : Nat} (h : ∀ i, i < hi → lo ≤ i → P i) : ∀ i, lo ≤ i → i < hi → P i :=
  fun i a b => h i b a

/-! ### States -/

def onPins (f : Pins → Pins) (s : State) : State := { s with pins := f s.pins }
def onRing (f : Ring → Ring) (s : State) : State := { s with ring := f s.ring }
def onPower (f : Power → Power) (s : State) : State := { s with power := f s.power }
def onPilot (f : Pilot → Pilot) (s : State) : State := { s with pilot := f s.pilot }
def onBoard (f : Boarding → Boarding) (s : State) : State := { s with board := f s.board }
def onFuse (f : Fuse → Fuse) (s : State) : State := { s with fuse := f s.fuse }
def onLc (f : LifeCycle → LifeCycle) (s : State) : State := { s with lc := f s.lc }
def onVault (f : Vault → Vault) (s : State) : State := { s with vault := f s.vault }
def onCrypto (f : Crypto → Crypto) (s : State) : State := { s with crypto := f s.crypto }
def onUpdate (f : Update → Update) (s : State) : State := { s with update := f s.update }
def onJrn (f : Journal → Journal) (s : State) : State := { s with jrn := f s.jrn }
def onHost (f : HostGuard → HostGuard) (s : State) : State := { s with host := f s.host }
def onFerry (f : Ferry → Ferry) (s : State) : State := { s with ferry := f s.ferry }
def onLanes (f : Lanes → Lanes) (s : State) : State := { s with lanes := f s.lanes }
def onPress (f : Press → Press) (s : State) : State := { s with press := f s.press }
def onCrossing (f : Crossing → Crossing) (s : State) : State := { s with crossing := f s.crossing }

/-- Released from reset, in the ROM. -/
def rom : State := onPilot (fun p => { p with phase := .rom }) (onPins (fun p => { p with porstLow := false }) State.reset)
/-- Firmware runs, the package is ready for berths and the DRBG is healthy. -/
def mapped (f : Func) (s : State) : State := s.setFn f { s.fn f with mse := true }
def fw : State := mapped (.vf 7) <| mapped (.vf 1) <| mapped .pf1 <| mapped .pf0 <| onFuse (fun f => { f with busy := false, sensed := true }) (onVault (fun v => { v with drbgOk := true }) (onPilot (fun p => { p with phase := .firmware, ready := true }) rom))
/-- Inserted in the Cable ring. -/
def ins (s : State) : State := onPins (fun p => { p with cringByp := true }) s

def frame1 : RingFrame := { dst := 5, src := 3, hops := 2, kind := 1, payload := [1, 2] }
/-- The frame with its CRC. -/
def rawFrame : Bytes := [5, 3, 2, 1, 2, 1, 2] ++ toLe 4 (crc32c [5, 3, 2, 1, 2, 1, 2]).toNat
/-- Policy word 1 with TOKEN_WAIT 1. -/
def tokenShadows : Tbl FuseShadow := [(641, { cls := .clean, value := 1, marg := false, rawCheck := 0 })]
def spdmUp : State := onPilot (fun p => { p with aliasReady := true, spdmPf0 := { p.spdmPf0 with caps := true, algs := true } }) fw
def win0 : Window := { unit := 0, readOnly := false, base := 0, size := 1 }
def chain1 : ChainSt := { source := .bankA, blockCount := 2, index := 0, expect := [], crcTries := 0, entry := 0, complete := false }
def alarm1 : AlarmEntry := { srcKind := 0, srcInst := 0, kind := 0x0202, count := 1, arg0 := 0, arg1 := 0, data := zeros 16 }
def chainS : State := onPilot (fun p => { p with sources := [.bankA], chain := some chain1 }) rom
def frameKind (k : Byte) : RingFrame := { frame1 with kind := k }
def rawKind (k : Byte) : Bytes := frameBytes (frameKind k)

/-- Firmware runs, in the Maker state, with the programming supply up. -/
def mk1 : State := onLc (fun x => { x with state := 1 }) (onFuse (fun f => { f with vppOk := true }) fw)
def shadow5 : FuseShadow := { cls := .clean, value := 5, marg := false, rawCheck := 0 }
def burn1 : FuseOp := { owner := .command, sealing := none, todo := [(256, 5)], bits := [0, 2], tries := 0 }
def vc (field index typ : Nat) (space : Bool) : VaultCmd :=
  { field := BitVec.ofNat 3 field, index := BitVec.ofNat 12 index, typ := BitVec.ofNat 4 typ, space := space }
/-- A slot with this type, classes and material. -/
def slotS (s : State) (k : Nat) (typ : Byte) (dest : BitVec 11) (m : Bytes) : State :=
  putSlot s k { slotInit with typ := typ, dest := dest, valid := true, material := m }
/-- A record stored with its tag. -/
def putRec (s : State) (b : Nat) (r : BerthRecord) : State :=
  onVault (fun v => { v with records := tset v.records b { r with tag := recordTag v.tagKey b r } }) s
def recS (s : State) (b : Nat) : State :=
  putRec s b { recordInit with opened := true, epoch := 1, t2Seed0 := some (zeros 32), pressSeed := some (zeros 48) }
/-- The crypto block with 32 zero bytes of input, and a key slot of every class. -/
def cr : State := onCrypto (fun c => { c with len := 32 }) (slotS fw 2 3 0x7FF (zeros 32))
/-- A virtual function 1 whose berth runs. -/
def vfUp : State := (onHost (fun h => { h with vfEnable := true, numVfs := 8 }) fw).setBerth 1 { berthInit with state := .running }
def helloMsg : Bytes := [0x50, 0x52, 0x44, 0x4F, 0, 1, 1, 0, 0, 0, 0, 0, 0xB5, 0x0A, 0, 0, 3, 2] ++ zeros 2739
def helloMax : Bytes := helloMsg.take 16 ++ 0 :: helloMsg.drop 17
def sess1 : Session := { berth := 1, session := 7, version := 1, ksKeys := [], transcript := [] }
def prHead (typ : Byte) (n : Nat) : Bytes := [0x50, 0x52, 0x44, 0x4F, 1, typ, 1, 0, 7, 0, 0, 0] ++ toLe 4 n
def vfSess : State := { vfUp with sessions := [(0, sess1)] }
def relMsg : Bytes := prHead 3 6472 ++ [1, 0, 0, 0] ++ zeros 16 ++ [2] ++ zeros 6451
abbrev settled : State := slotS (onPilot (fun p => { p with settings := { p.settings with dirty := true } }) fw) 5 3 0x200 (zeros 32)
def upd (u : UpdateState) : State := onUpdate (fun x => { x with state := u }) fw
theorem tget_tset_wit {α : Type} (d : α) (k : Nat) (v : α) : ∀ t : Tbl α, tget d (tset t k v) k = v
  | [] => by simp [tset, tget]
  | (a, x) :: r => by
    unfold tset
    split
    · simp [tget]
    · split
      · simp [tget]
      · have h : a ≠ k := fun e => ‹¬ k = a› e.symm
        simp [tget, h, tget_tset_wit d k v r]
theorem sound_put {s : State} {k : Nat} {d : DeviceSlot} {k' : Nat} (h : k' = k) : slotSound (putSlot s k d) k' = true := by
  subst h
  simp [slotSound, putSlot, State.slot, tget_tset_wit, slotTag, slotHead, attrWord]
theorem sound_slotS {s : State} {k : Nat} {t : Byte} {d : BitVec 11} {m : Bytes} {k' : Nat} (h : k' = k) :
    slotSound (slotS s k t d m) k' = true := sound_put h
theorem sound_rec {s : State} {k : Nat} {d : BerthRecord} {k' : Nat} (h : k' = k) (hu : d.unusable = false) (hb : d.bad = false) :
    recordSound (putRec s k d) k' = true := by
  subst h
  simp [recordSound, putRec, onVault, State.record, tget_tset_wit, recordTag, recordHead, recordFlags, hu, hb]
theorem sound_recS {s : State} {k : Nat} {k' : Nat} (h : k' = k) : recordSound (recS s k) k' = true := sound_rec h rfl rfl
theorem tget_tset_ne_wit {α : Type} (d : α) {k j : Nat} (v : α) (h : j ≠ k) : ∀ t : Tbl α, tget d (tset t k v) j = tget d t j
  | [] => by simp [tset, tget, Ne.symm h]
  | (a, x) :: r => by
    unfold tset
    split
    · simp [tget, Ne.symm h]
    · split
      · rename_i e; subst e; simp [tget, Ne.symm h]
      · simp [tget, tget_tset_ne_wit d v h r]
theorem sound_below {s : State} {k k2 : Nat} {t t2 : Byte} {d d2 : BitVec 11} {m m2 : Bytes} {k' : Nat} (h : k' = k ∧ k ≠ k2) :
    slotSound (slotS (slotS s k t d m) k2 t2 d2 m2) k' = true := by
  rw [← sound_slotS (s := s) (t := t) (d := d) (m := m) h.1]
  simp [slotSound, slotS, putSlot, State.slot, tget_tset_ne_wit, h.1, h.2]
theorem sound_recBelow {s : State} {b k : Nat} {d : DeviceSlot} {b' : Nat} (h : b' = b) :
    recordSound (putSlot (recS s b) k d) b' = true := sound_recS (s := s) h
theorem serves_slotS {s : State} {k : Nat} {t : Byte} {d : BitVec 11} {m : Bytes} {k' c : Nat}
    (h : k' = k ∧ d.getLsbD c = true ∧ (s.vault.invOpen && decide (k < 4)) = false) : slotServes (slotS s k t d m) k' c = true := by
  obtain ⟨rfl, hd, hi⟩ := h
  have hv : (slotS s k' t d m).vault.invOpen = s.vault.invOpen := rfl
  have hs : ((slotS s k' t d m).slot k').valid = true ∧ ((slotS s k' t d m).slot k').dest = d := by
    simp [slotS, putSlot, State.slot, tget_tset_wit]
  simp only [slotServes, sound_slotS (rfl : k' = k'), hv, hi, hs.1, hs.2, hd]
  rfl
theorem serves_below {s : State} {k k2 : Nat} {t t2 : Byte} {d d2 : BitVec 11} {m m2 : Bytes} {k' c : Nat}
    (h : k' = k ∧ k ≠ k2 ∧ d.getLsbD c = true ∧ (s.vault.invOpen && decide (k < 4)) = false) :
    slotServes (slotS (slotS s k t d m) k2 t2 d2 m2) k' c = true := by
  rw [← serves_slotS (s := s) (t := t) (d := d) (m := m) ⟨h.1, h.2.2.1, h.2.2.2⟩]
  simp only [slotServes, sound_slotS h.1, sound_below (s := s) (t := t) (d := d) (m := m) (t2 := t2) (d2 := d2) (m2 := m2) ⟨h.1, h.2.1⟩]
  simp [slotS, putSlot, State.slot, tget_tset_ne_wit, h.1, h.2.1]
theorem touch_slotS {s : State} {k : Nat} {t : Byte} {d : BitVec 11} {m : Bytes} {k' : Nat} (h : k' = k) :
    touchSlot (slotS s k t d m) k' = slotS s k t d m := by
  simp [touchSlot, useSlot, sound_slotS h]
/-- helloCheck, with what it asks of slot 4 given. -/
def helloWith (keys : Bool) (s : State) (vf : Nat) (m : Bytes) : Byte :=
  if !helloOk vf m then 0x01
  else if evidenceClosed s then 0x08
  else if !(keys && s.pilot.enrolled.1) then 0x07
  else if (prirdoVersion s (byteAt m 16)).isNone then 0x02
  else if (s.berth vf).state = .rinsing then 0x05
  else if !(s.record vf).opened then 0x04
  else if byteAt m 17 = 2 ∧ s.lc.doneThisBoot then 0x04
  else if (List.range 4).all (fun i => (s.slot (8 + i)).valid) then 0x03
  else if !s.vault.drbgOk then 0x0C
  else 0
theorem hello_slotS {s : State} {t : Byte} {d : BitVec 11} {mt m : Bytes} {vf : Nat} {c : Byte} (hd : d.getLsbD 6 = true)
    (h : helloWith true (slotS s 4 t d mt) vf m = c) : helloCheck (slotS s 4 t d mt) vf m = c := by
  rw [← h, ← serves_slotS (s := s) (k := 4) (t := t) (d := d) (m := mt) (c := 6) ⟨rfl, hd, by simp⟩]
  rfl
theorem closed_slotS {s : State} {t : Byte} {d : BitVec 11} {m : Bytes} (hd : d.getLsbD 9 = true) (h : s.vault.invOpen = false) :
    settingsClosed (slotS s 5 t d m) = false := by
  have hv : (slotS s 5 t d m).vault.invOpen = s.vault.invOpen := rfl
  simp [settingsClosed, serves_slotS (s := s) (k := 5) (t := t) (d := d) (m := m) (c := 9) ⟨rfl, hd, by simp⟩, hv, h]
theorem due_slotS {s : State} {t : Byte} {d : BitVec 11} {m : Bytes} (hd : d.getLsbD 9 = true) (h : s.vault.invOpen = false ∧
    (s.vault.drbgOk && (s.pilot.settings.migrating || ((s.pilot.settings.dirty || s.pilot.settings.held.isSome) && !settingsHeld s))) = true) :
    settingsDue (slotS s 5 t d m) = true := by
  simp only [settingsDue, closed_slotS hd h.1]
  exact h.2

def berthS (s : State) (b : Nat) (f : Berth → Berth) : State := s.setBerth b (f (s.berth b))
def pierS (s : State) (n : Nat) (f : PierSt → PierSt) : State := s.setPier n (f (s.pier n))
/-- A lane that is tested, loaded, out of park and powered. -/
def laneS (s : State) (i : Island) : State :=
  onPower (fun p => { p with domUp := BitVec.allOnes 20 })
    (s.setIsland i { islandInit with test := .passed, ucOk := true, parked := false, pll := true })
def key0 : KeyFill :=
  { epoch := 1, flags := 1, gen0 := some (zeros 64), gen1 := none, pair := none, weight := some (zeros 32), bounce := some (zeros 32), press := some (zeros 48), link := [] }
def lineR (op : LineOp) : FabricLine := { init := 3, line := 5, op := op, data := zeros 64 }
def winE (b : Nat) (ro : Bool) : WinEntry := { base := 0, size := 4, board := false, site := 0, readOnly := ro, berth := b }
/-- A lane whose site 3 is bound to berth 1, with the berth's key and one window. -/
def lineS (n : Nat) (ro : Bool) : State :=
  pierS (laneS fw (.pier n)) n (fun p => { p with refuseAlarm := false, bind := [(3, 1)], keys := [(1, some key0)], win := [(0, winE 1 ro)] })
def outR : OutRead := admitted (lineR .read) none none
def cur0 : Cursor := { berth := 1, point := 1, region := 1, base := 0, size := 0, pos := 0, sum := 0, closing := true, done := false }
def ready2 : State := laneS (laneS fw (.pier 0)) (.pier 16)
def sp16 : State := { fw with cover := [(16, 0)], pgroups := [(0, { pierGroupInit with test := some (0, some 16) })] }
def bc (k : Option BroadcastKind) (w : List Nat) : Broadcast := { kind := k, seq := 9, waiting := w }
/-- Every Pier of stack 0 serves, and bank A's Manifest gives site 2 a part of 128 bytes. -/
def stagedS : State :=
  { onBoard (fun b => { b with logClosed := true }) (onPilot (fun p => { p with stackMap := 1 })
      ((List.range 16).foldl (fun s n => laneS s (.pier n)) fw)) with
    flash := [(0x100006, 1), (0x100048, 0), (0x100049, 0), (0x10004A, 1), (0x10004B, 0), (0x10004C, 128), (0x10004D, 0),
      (0x10004E, 0), (0x10004F, 0), (0x100108, 0)] }

def linkS (s : State) (n : Nat) (x : GwLink) : State := s.setLink n x
/-- A link with its lane up. -/
def lk (st : LinkState) (job : JobState) : GwLink := { gwInit with trained := true, link := st, job := job, key := some (List.replicate 312 1) }
/-- Lane 0 of Gangway in service for link 0, with the ROM or with firmware running. -/
def lane0 (s : State) (x : GwLink) : State := linkS (laneS s (.gangway 0)) 0 x
/-- A frame whose trailer is right for a link under a key. -/
def frameFor (x : GwLink) (kind flags : Byte) (cls : Nat) (body k : Bytes) : GwFrame :=
  if cls = 0 then
    { kind := kind, flags := flags, ctrLo := 0, body := body, trailer := (sha384 (gwHeader kind flags body.length 0 ++ body)).take 16 }
  else
    { kind := kind, flags := flags, ctrLo := BitVec.ofNat 32 (ctr x (ctrIx cls true)), body := body,
      trailer := gcmTag k (gwIv (ctr x (ctrIx cls true))) (gwHeader kind flags body.length (ctr x (ctrIx cls true))) body }
def plainOf (x : GwLink) (kind : Byte) (f : GwFrame) (cls : Nat) : Bytes :=
  match openFrame x kind f cls with
  | .good p => p
  | _ => []
theorem opens {x y : GwLink} {kind kind' flags : Byte} {cls cls' : Nat} {body k : Bytes} (hx : y = x)
    (h : kind' = kind ∧ cls' = cls ∧ (cls = 0 ∨ (gwKey x cls true = some k ∧ flags.getLsbD 3 = decide (gwGen x cls true % 2 = 1)))) :
    openFrame y kind' (frameFor x kind flags cls body k) cls' = .good (plainOf x kind (frameFor x kind flags cls body k) cls) := by
  obtain ⟨rfl, rfl, h⟩ := h
  subst hx
  unfold plainOf openFrame frameFor
  by_cases h0 : cls' = 0
  · simp [h0]
  · have h := h.resolve_left h0
    have h3 : flags[3] = decide (gwGen y cls' true % 2 = 1) := by simpa using h.2
    simp [h0, h.1, h3, gcmDec]
abbrev fr (x : GwLink) (kind : Byte) (cls : Nat) (body : Bytes) : GwFrame := frameFor x kind 0 cls body (List.replicate 32 1)
abbrev plain (x : GwLink) (kind : Byte) (cls : Nat) (body : Bytes) : Bytes := plainOf x kind (fr x kind cls body) cls
def badFrame : GwFrame := { kind := 0, flags := 0, ctrLo := 0, body := [], trailer := [] }
def opn : GwLink := lk .opening .none
def att : GwLink := lk .attested .none
def keyd : GwLink := lk .attested .keyed
abbrev slotL (s : State) (n : Nat) : State := slotS s (16 + n) 5 0x20 (1 :: zeros 311)
def job1 : Job :=
  { isOpen := true, fixed := false, profiles := 1, version := 1, dEff := 16, floor := 0, segTiles := 0, periodUs := 0, deadlineUs := 0,
    planClocks := 0, planT1 := 0, planT2 := 0, tileMax := 0, jobId := [9], members := [], gone := [], closing := false, answer := false, siteBad := false, unavailable := [] }
def bpS (s : State) (b : Nat) (f : BerthPress → BerthPress) : State := s.setBp b (f (s.bp b))
def jobS (s : State) (b : Nat) : State := bpS s b (fun x => { x with job := some job1 })
/-- A VF 1 whose berth is in a state. -/
def vfB (st : BerthState) : State := (onHost (fun h => { h with vfEnable := true, numVfs := 8 }) fw).setBerth 1 { berthInit with state := st }
def vfJ : State := jobS (vfB .running) 1
/-- A UNIT region with a serial number that is not 0. -/
def unitShadows : Tbl FuseShadow := [(256, { shadow5 with value := BitVec.allOnes 64 }), (257, { shadow5 with value := BitVec.allOnes 64 }), (258, { shadow5 with value := BitVec.allOnes 64 })]
def jobMsg : Bytes := [0, 1, 1, 0, 16, 0] ++ zeros 58
/-- A declaration of one 1×1 integer product with K = 16, every region slot 0. -/
def decl1 : Bytes :=
  [1, 1, 0, 0x10, 7, 0, 0, 0, 0, 0, 0, 0, 1, 0, 0, 0, 1, 1, 0x0D, 0, 0, 0, 0, 0, 0, 0, 0, 0, 0, 0xFF, 0, 0, 1, 0, 0, 0, 1, 0, 0, 0, 16, 0, 0, 0] ++ zeros 20
def headS : State :=
  onPress (fun p => { p with waiting := [1] }) (bpS vfJ 1 (fun x => { x with ring := [decl1], head := some [(0, 0, 64)] }))

def tile0 (st : TileStage) (os : List (Nat × Nat)) (rs : List (Nat × Nat)) : Tile := { ti := 0, tj := 0, stage := st, operands := os, result := rs, parts := [], feed := [], outcome := [] }
def armed0 (u : Tile) : Armed := { declId := 7, segment := 1, decl := decl1, tiles := [u], areas := [] }
def tileS (u : Tile) : State := bpS vfJ 1 (fun x => { x with armed := [armed0 u] })
def rangeR : CapRange := { first := 0, run := 0, stride := 0, runs := 0, tag := 0, slice := 0, area := 0, cov := 0, vf := 1, declId := 7, result := false, done := false }
def arrayS (s : State) (n : Nat) (f : PressArray → PressArray) : State := modArray s n f
/-- A verdict record of a status for declaration 7. -/
def recOf (st : Byte) : Bytes := [st, 0, 0, 0, 7] ++ zeros 59
def entry7 : HoldEntry :=
  { declId := 7, segment := 1, base := 0, size := 64, state := .damp, cause := 0, reads := [], left := 1, own := 0, inherited := false, orphan := false }
def chS (s : State) (c : Nat) (f : FerryCh → FerryCh) : State := modCh s c f
/-- Channel 8 serves berth 1 and stands before an export. -/
def exportS (s : State) : State :=
  chS (onFerry (fun f => { f with maps := [(8, { valid := true, rel := 0, berth := 1 })] }) s) 8
    (fun x => { x with state := .waiting, desc := [3, 0, 0, 0, 0xFF, 0xFF, 0xFF, 0xFF] ++ zeros 24 ++ [64] ++ zeros 15 ++ [1] ++ zeros 79 })
def seg5 : Segment :=
  { num := 5, lastSeen := false, lastAccepted := false, closeNo := 0, closed := true, settled := none, gate := [], forbid := false, late := false,
    sampled := 0, clocks := 0, bytes1 := 0, bytes2 := 0 }
def point4 : PairPoint :=
  { point := 4, closeDecl := 9, regions := [], cursors := [], closed := false, status := 0, sent := none, outcome := 0, role := 0, others := [] }
def other : Bytes := List.replicate 16 9
/-- A job of two packages: this one and another. -/
def job2 : Job := { job1 with jobId := zeros 16, members := [(zeros 16, 0), (other, 0)] }
/-- The other package leads. -/
def job3 : Job := { job2 with gone := [zeros 16] }
def pairS (j : Job) (ps : List PairPoint) : State := bpS (vfB .running) 1 (fun x => { x with job := some j, points := ps })
def vote0 : PairVote := { sender := zeros 16, status := 0, entries := [] }
def voteOf (n : Byte) (v : Nat) : PairVote := { sender := [n], status := 0, entries := [(1, 2, BitVec.ofNat 128 v)] }
def testsS : State := onPress (fun p => { p with tests := [(3, [5])] }) fw
def testFuse : State := onFuse (fun f => { f with shadows := [(646, shadow5)] }) fw
def data0 : TileData := { a := [(0, List.replicate 64 1)], b := [(0, List.replicate 64 1)], d := [], c := [(0, 16 :: zeros 63)] }

/-- VF 1 with channel 8 as the one channel of its run, in a state. -/
def chUp (st : ChState) (f : FerryCh → FerryCh) : State :=
  chS ((onFerry (fun x => { x with maps := [(8, { valid := true, rel := 0, berth := 1 })] })
    (onHost (fun h => { h with vfEnable := true, numVfs := 8 }) fw)).setBerth 1 { berthInit with state := .running, ferryBase := 8, ferryCount := 1 }) 8
    (fun x => f { x with state := st })
def bus (s : State) : State := s.setFn (.vf 1) { s.fn (.vf 1) with bme := true }
def withAts (s : State) : State := s.setFn (.vf 1) { s.fn (.vf 1) with bme := true, ats := true }
/-- A descriptor that copies one line from fabric to fabric, END set. -/
def desc1 : Bytes := [1, 1, 0, 0, 0xFF, 0xFF, 0xFF, 0xFF] ++ zeros 24 ++ [64, 0, 0, 0, 64, 0, 0, 0, 64, 0, 0, 0, 64, 0, 0, 0, 1, 0, 1, 0] ++ zeros 12
def desc0 : Bytes := [1, 0] ++ desc1.drop 2
def req0 : HostReq :=
  { fn := 3, tag := 5, use := .fetch 8, ch := 8, addr := 0x1000, len := 64, got := [], tries := 0, used := none, stale := false, abandoned := false, timedOut := false }
def fetching : State := onHost (fun h => { h with reqs := [req0] }) (bus (chUp .fetching id))
def engS (e : Nat) (r : EngRun) (s : State) : State := onFerry (fun x => { x with engs := [(e, r)] }) s
def run0 (ch : Nat) (w : EngWait) : EngRun := { ch := ch, w := 0, buf := [], ct := [], rcd := none, tries := 0, wait := w, bundle := 0, redo := 0 }
def copying : State := laneS (chUp .waiting (fun x => { x with desc := desc1, place := 1 })) (.ferry 7)
def treq (w : Bool) : HostReq := { req0 with use := .trans 3 w, ch := noCh, len := 8 }
def tcpl : TransCpl := { status := .ok, size := 2097152, untransOnly := false, canRead := true, canWrite := false, target := 0 }
def trS (w : Bool) : State := onHost (fun h => { h with reqs := [treq w] }) fw
def vf1 : State := onHost (fun h => { h with vfEnable := true, numVfs := 8 }) fw
def page0 : PageReq := { fn := 3, index := 4, range := 6, write := false, dead := false }
def pagesS (ps : List PageReq) : State := onHost (fun h => { h with pages := ps }) fw
def event1 : HostEvent := { kind := 1, slot := 0, func := 0 }
/-- A one-fragment request 0x11 in PF0's buffer. -/
def asking (s : State) : State := s.setFn .pf0 { fnInit with mse := true, txLen := 8, txLast := true, buf := [(0, 0x11), (2, 3)] }
def fnS (s : State) (f : HostFn → HostFn) : State := s.setFn .pf1 (f (s.fn .pf1))
def owned (k o : Nat) (s : State) : State := onHost (fun h => { h with slots := [(k, { hostSlotInit with owner := some o })] }) s
/-- A journal of one sector, with one record in the buffer. -/
def jrnS : State := onPilot (fun p => { p with flashSectors := 0x371 }) (onJrn (fun j => { j with buffer := [zeros 64] }) fw)
def timeBody : Bytes := zeros 7472
def tileP : Tile := { tile0 .capturing [(3, 0)] [] with parts := [0] }
def tileF : Tile := { tile0 (.running 3) [] [] with feed := [(0, 5, 2)] }
def lostRef : TileRef := { vf := 1, declId := 7, tag := 0, result := false }
/-- Bank A's Manifest has no part, and its entry of site 3 names KIND_ID 5 and no image. -/
def siteFlash : List Host.Cell :=
  [(0x100006, 0), (0x100100, 5), (0x100101, 0), (0x100102, 0), (0x100103, 0), (0x100104, 0), (0x100105, 0), (0x100106, 0), (0x100107, 0)]
def areaD : Area := { part := 0, digest := some [1], due := [] }

theorem witness_ResetAndClocks :
    (∃ (s : State) (b : BitVec 2) (vpp : Bool), s.pins.porstLow = true) ∧
    (∃ (s : State), accepts s = true ∧ s.pins.haltLow = false) ∧
    (∃ (s : State), accepts s = true ∧ s.pilot.phase ≠ .halted) ∧
    (∃ (s : State) (n : Nat) (readable spareOk : Bool), accepts s = true ∧ n < 154) ∧
    (∃ (s : State) (n : Nat) (readable spareOk : Bool), accepts s = true ∧ n < 52) ∧
    (∃ (s : State) (readable spareOk : Bool), accepts s = true ∧ s.pilot.phase ≠ .halted) ∧
    (∃ (s : State), accepts s = true ∧ s.pilot.phase = .rom) ∧
    (∃ (s : State) (level : BitVec 3), accepts s = true ∧ s.fuse.op = none) ∧
    (∃ (s : State) (level : BitVec 3) (op : FuseOp) (w : Nat) (cw : BitVec 72) (rest : List (Nat × BitVec 72)), accepts s = true ∧ s.fuse.op = some op ∧ op.owner = .command ∧ op.todo = (w, cw) :: rest ∧ s.lc.run = none) ∧
    (∃ (s : State), accepts s = true) :=
  ⟨⟨State.reset, 0, true, by decide +kernel⟩,
   ⟨rom, by decide +kernel⟩,
   ⟨rom, by decide +kernel⟩,
   ⟨rom, 153, true, true, by decide +kernel⟩,
   ⟨rom, 51, true, true, by decide +kernel⟩,
   ⟨rom, true, true, by decide +kernel⟩,
   ⟨rom, by decide +kernel⟩,
   ⟨rom, 0, by decide +kernel⟩,
   ⟨onFuse (fun f => { f with op := some burn1 }) rom, 0, burn1, 256, 5, [], by decide +kernel⟩,
   ⟨rom, by decide +kernel⟩⟩

theorem witness_TestChain :
    (∃ (s : State), chained s = true) ∧
    (∃ (s : State), chained s = true) ∧
    (∃ (s : State) (p b : BitVec 21), chained s = true) ∧
    (∃ (s : State) (p : BitVec 21), s.pins.boundaryControls = false ∧ s.pins.haltLow = true) ∧
    (∃ (s : State) (p v : BitVec 21), chained s = true) ∧
    (∃ (s : State) (e : Emission), s.pins.boundaryControls = true ∧ closedPath e = true) ∧
    (∃ (s : State), chained s = true) ∧
    (∃ (s : State), chained s = true ∧ s.lc.grant ≠ 0) ∧
    (∃ (s : State) (a d : Word) (b : Block) (o : Nat), chained s = true ∧ s.pins.ir = .debugPort ∧ s.lc.grant.getLsbD 1 = true ∧ 0x40000 ≤ a.toNat ∧ sramAt a.toNat = none ∧ blockAt a.toNat = some (b, o)) ∧
    (∃ (s : State) (v : Word), chained s = true ∧ s.pins.ir = .debugPort ∧ s.lc.grant.getLsbD 2 = true) ∧
    (∃ (s : State) (a v : Word), chained s = true ∧ s.pins.ir = .debugPort ∧ s.lc.grant.getLsbD 0 = true ∧ s.pilot.phase = .firmware) :=
  ⟨⟨ins rom, by decide +kernel⟩,
   ⟨ins rom, by decide +kernel⟩,
   ⟨ins rom, 0, 1, by decide +kernel⟩,
   ⟨onPins (fun p => { p with haltLow := true }) rom, 0, by decide +kernel⟩,
   ⟨ins rom, 0, 5, by decide +kernel⟩,
   ⟨onPins (fun p => { p with boundaryControls := true }) rom, .msix .pf0 0, by decide +kernel⟩,
   ⟨ins rom, by decide +kernel⟩,
   ⟨onLc (fun x => { x with grant := 2 }) (ins fw), by decide +kernel⟩,
   ⟨onPins (fun p => { p with ir := .debugPort }) (onLc (fun x => { x with grant := 2 }) (ins fw)), 0x21000014, 0, .fuse, 0x14, by decide +kernel⟩,
   ⟨onPins (fun p => { p with ir := .debugPort }) (onLc (fun x => { x with grant := 4 }) (ins fw)), 7, by decide +kernel⟩,
   ⟨onPins (fun p => { p with ir := .debugPort }) (onLc (fun x => { x with grant := 1 }) (ins fw)), 0, 0, by decide +kernel⟩⟩

theorem witness_RingAgent :
    (∃ (f : RingFrame), 1 ≤ f.payload.length ∧ f.payload.length ≤ 68) ∧
    (∃ (s : State), accepts s = true ∧ s.pins.cringByp = false ∧ s.pins.boundaryControls = false) ∧
    (∃ (s : State) (raw : Bytes) (f : RingFrame), inserted s = true ∧ parseFrame raw = some f ∧ f.kind = 1 ∧ f.hops ≠ 0 ∧ s.ring.enumerated = true ∧ f.src ≠ s.ring.position ∧ f.dst ≠ s.ring.position ∧ f.dst ≠ 0xFF) ∧
    (∃ (s : State) (raw : Bytes) (f : RingFrame), inserted s = true ∧ parseFrame raw = some f ∧ (f.hops = 0 ∨ f.kind = 0 ∨ 4 ≤ f.kind.toNat ∨ (s.ring.enumerated = true ∧ f.src = s.ring.position))) ∧
    (∃ (s : State) (f : RingFrame), inserted s = true ∧ f.hops ≠ 0) ∧
    (∃ (s : State) (f : RingFrame), inserted s = true ∧ f.hops ≠ 0 ∧ s.pilot.phase ≠ .halted ∧ s.fuse.sensed = true ∧ tokenWait s.fuse ≠ 0 ∧ s.ring.held = none ∧ s.ring.token = .waiting) ∧
    (∃ (s : State) (f : RingFrame), inserted s = true ∧ f.hops ≠ 0 ∧ s.pilot.phase ≠ .halted ∧ s.fuse.sensed = true ∧ s.ring.held = none ∧ s.ring.token = .released ∧ tokenWait s.fuse ≠ 0) ∧
    (∃ (s : State) (f : RingFrame), commanded s = true ∧ s.ring.held = some f) ∧
    (∃ (s : State), accepts s = true ∧ s.pilot.phase = .firmware ∧ s.jrn.scanned = false ∧ s.ring.token = .waiting) ∧
    (∃ (s : State), commanded s = true ∧ tokenWait s.fuse = 0) ∧
    (∃ (s : State), inserted s = true ∧ s.ring.txBusy = false ∧ 1 ≤ s.ring.txLen.toNat ∧ s.ring.txLen.toNat ≤ 8192) ∧
    (∃ (s : State), commanded s = true) ∧
    (∃ (s : State) (dst : Byte) (owner : Bool) (e : Emission) (msg : Bytes), s.pins.boundaryControls = false) ∧
    (∃ (s : State) (pos src : Byte) (tag : BitVec 3) (msg : Bytes), 1 ≤ msg.length ∧ msg.length ≤ 64) :=
  ⟨⟨frame1, by decide +kernel⟩,
   ⟨rom, by decide +kernel⟩,
   ⟨onRing (fun r => { r with enumerated := true, position := 9 }) (ins rom), rawFrame, frame1, by decide +kernel⟩,
   ⟨ins rom, rawKind 0, frameKind 0, by decide +kernel⟩,
   ⟨ins rom, { frame1 with kind := 0, payload := [4] }, by decide +kernel⟩,
   ⟨onRing (fun r => { r with token := .waiting }) (onFuse (fun f => { f with sensed := true, shadows := tokenShadows }) (ins rom)), frame1, by decide +kernel⟩,
   ⟨onRing (fun r => { r with token := .released }) (onFuse (fun f => { f with shadows := tokenShadows }) (ins fw)), frame1, by decide +kernel⟩,
   ⟨onRing (fun r => { r with held := some frame1 }) (ins rom), frame1, by decide +kernel⟩,
   ⟨onRing (fun r => { r with token := .waiting }) (ins fw), by decide +kernel⟩,
   ⟨rom, by decide +kernel⟩,
   ⟨onRing (fun r => { r with txLen := 8192 }) (ins rom), by decide +kernel⟩,
   ⟨rom, by decide +kernel⟩,
   ⟨rom, 5, true, .jtag 0, [1], by decide +kernel⟩,
   ⟨rom, 3, 9, 2, [0, 0x82, 2], by decide +kernel⟩⟩

theorem witness_RingMessages :
    (∃ (s : State) (src eid : Byte), inserted s = true ∧ s.ring.ready = true ∧ eid ≠ 0 ∧ eid ≠ 0xFF) ∧
    (∃ (s : State) (src : Byte), inserted s = true ∧ s.ring.ready = true) ∧
    (∃ (s : State) (src eid : Byte), inserted s = true ∧ s.ring.ready = false) ∧
    (∃ (s : State) (src typ : Byte), inserted s = true ∧ s.ring.ready = true ∧ typ ≠ 0 ∧ typ ≠ 5 ∧ typ ≠ 0x7F) ∧
    (∃ (s : State) (src : Byte), inserted s = true) ∧
    (∃ (s : State) (src : Byte) (b : Nat), inserted s = true ∧ pilotUp s = true ∧ s.ring.ready = true ∧ s.ring.rxReady = false) ∧
    (∃ (s : State) (src : Byte) (b : Nat), inserted s = true ∧ s.ring.ready = true ∧ s.ring.rxReady = true) ∧
    (∃ (s : State) (kind : BitVec 16), accepts s = true ∧ (tget notifyInit s.ring.notify kind.toNat).count = 0) :=
  ⟨⟨onRing (fun r => { r with ready := true }) (ins fw), 3, 0xFE, by decide +kernel⟩,
   ⟨onRing (fun r => { r with ready := true }) (ins fw), 3, by decide +kernel⟩,
   ⟨onRing (fun r => { r with ready := false }) (ins rom), 9, 8, by decide +kernel⟩,
   ⟨onRing (fun r => { r with ready := true }) (ins fw), 3, 1, by decide +kernel⟩,
   ⟨ins rom, 3, by decide +kernel⟩,
   ⟨onRing (fun r => { r with ready := true }) (ins fw), 3, 4095, by decide +kernel⟩,
   ⟨onRing (fun r => { r with ready := true, rxReady := true }) (ins fw), 3, 4096, by decide +kernel⟩,
   ⟨ins rom, 0x0200, by decide +kernel⟩⟩

theorem witness_SpdmRequests :
    (∃ (s : State) (t : Transport), Asked s t) ∧
    (∃ (s : State) (t : Transport) (v : SpdmVersion), Asked s t) ∧
    (∃ (s : State) (t : Transport), Asked s t ∧ (s.conn t).caps = true) ∧
    (∃ (s : State) (t : Transport), Asked s t ∧ (s.conn t).algs = true ∧ s.pilot.aliasReady = true) ∧
    (∃ (s : State) (t : Transport) (slot offset length : Nat), Asked s t ∧ (s.conn t).algs = true ∧ s.pilot.aliasReady = true ∧ ((slot = 0 ∧ s.pilot.enrolled.1 = true) ∨ (slot = 1 ∧ (s.slot 3).valid = true)) ∧ offset + length ≤ (certChain s slot).length ∧ 0 < length) ∧
    (∃ (s : State) (t : Transport) (slot offset length : Nat) (nonce : Bytes), Asked s t ∧ (s.conn t).algs = true ∧ s.pilot.aliasReady = true ∧ 2 ≤ slot ∧ s.lc.grant &&& invasiveMask = 0 ∧ s.pilot.assignClosed = false) ∧
    (∃ (s : State) (t : Transport) (nonce : Bytes), Asked s t ∧ (s.conn t).algs = true ∧ s.pilot.aliasReady = true ∧ s.lc.grant &&& invasiveMask = 0 ∧ s.pilot.assignClosed = false ∧ s.pilot.enrolled.1 = true ∧ slotServes s 4 6 = true) ∧
    (∃ (s : State) (t : Transport) (slot : Nat) (nonce : Bytes), Asked s t ∧ (s.conn t).algs = true ∧ s.pilot.aliasReady = true ∧ s.lc.grant &&& invasiveMask ≠ 0) ∧
    (∃ (s : State) (t : Transport) (nonce : Bytes), Asked s t ∧ (s.conn t).algs = true ∧ s.pilot.aliasReady = true ∧ s.lc.grant &&& invasiveMask = 0 ∧ s.pilot.assignClosed = false) ∧
    (∃ (s : State) (t : Transport) (index : Byte) (nonce : Bytes) (v : Bytes), Asked s t ∧ (s.conn t).algs = true ∧ s.pilot.aliasReady = true ∧ s.lc.grant &&& invasiveMask = 0 ∧ s.pilot.assignClosed = false ∧ 1 ≤ index.toNat ∧ index.toNat ≤ 10 ∧ s.pilot.measurements.filter (fun x => x.1 == index.toNat) = [(index.toNat, v)]) ∧
    (∃ (s : State) (t : Transport) (index : Byte) (sign : Bool) (nonce : Bytes), Asked s t ∧ (s.conn t).algs = true ∧ s.pilot.aliasReady = true ∧ s.lc.grant &&& invasiveMask = 0 ∧ s.pilot.assignClosed = false ∧ ((11 ≤ index.toNat ∧ index.toNat ≤ 15) ∨ (28 ≤ index.toNat ∧ index.toNat ≤ 254))) ∧
    (∃ (s : State) (t : Transport), Asked s t) ∧
    (∃ (s : State) (k : Nat) (r : SpdmReply), (s.fn .pf0).mbx = .serving ∧ (s.fn .pf0).slot = some k) :=
  ⟨⟨fw, .pf0, by unfold Asked; decide +kernel⟩,
   ⟨fw, .pf0, .v12, by unfold Asked; decide +kernel⟩,
   ⟨onPilot (fun p => { p with spdmPf0 := { p.spdmPf0 with caps := true } }) fw, .pf0, by unfold Asked; decide +kernel⟩,
   ⟨spdmUp, .pf0, by unfold Asked; decide +kernel⟩,
   ⟨onPilot (fun p => { p with enrolled := (true, false) }) spdmUp, .pf0, 0, 0, 1, ⟨(by decide +kernel : pilotUp _ = true), by decide +kernel, by decide +kernel, .inl (by decide +kernel), by simp only [certChain, List.length_append, List.length_cons]; omega, by decide⟩⟩,
   ⟨spdmUp, .pf0, 2, 0, 16, [], by unfold Asked; decide +kernel⟩,
   ⟨slotS (onPilot (fun p => { p with enrolled := (true, false) }) spdmUp) 4 1 0x40 (zeros 120), .pf0, [], by unfold Asked; and_intros <;> first | with_reducible exact serves_slotS (by decide +kernel) | with_reducible exact serves_below (by decide +kernel) | decide +kernel⟩,
   ⟨onLc (fun x => { x with grant := 0x10 }) spdmUp, .pf0, 0, [], by unfold Asked; decide +kernel⟩,
   ⟨spdmUp, .pf0, [], by unfold Asked; decide +kernel⟩,
   ⟨onPilot (fun p => { p with measurements := [(3, [1])] }) spdmUp, .pf0, 3, [], [1], by unfold Asked; decide +kernel⟩,
   ⟨spdmUp, .pf0, 28, false, [], by unfold Asked; decide +kernel⟩,
   ⟨fw, .pf0, by unfold Asked; decide +kernel⟩,
   ⟨fw.setFn .pf0 { fw.fn .pf0 with mbx := .serving, slot := some 0 }, 0, .version [], by decide +kernel⟩⟩

theorem witness_PowerDomains :
    (∃ (s : State) (pd : Nat), Quiet s ∧ commanded s = true ∧ (pd = 0 ∨ pd = 1 ∨ pd = 19)) ∧
    (∃ (s : State), Quiet s ∧ commanded s = true ∧ s.power.domOn.getLsbD 10 = true ∧ ((∃ x ∈ s.berths, (domainWindows x.2 true) ≠ []))) ∧
    (∃ (s : State), Quiet s ∧ commanded s = true ∧ s.power.domOn.getLsbD 10 = true ∧ ((∀ x ∈ s.berths, domainWindows x.2 true = []))) ∧
    (∃ (s : State) (pd : Nat), commanded s = true ∧ pd < 20 ∧ s.power.domOn.getLsbD pd = false) ∧
    (∃ (s : State), pilotUp s = true ∧ s.power.switching.getLsbD 19 = true ∧ s.power.domOn.getLsbD 19 = true ∧ ((∀ ix, 222 ≤ ix → ix < 232 → (tget islandInit s.isl ix).test = .passed ∧ (tget islandInit s.isl ix).ucOk = true))) ∧
    (∃ (s : State), pilotUp s = true ∧ s.pilot.ready = false ∧ s.board.logClosed = true ∧ s.pilot.milestone.toNat ≤ 0x19 ∧ s.pilot.links = 0 ∧ ((∀ n, n < 48 → (s.link n).trained = false)) ∧ s.press.berths = [] ∧ s.crossing.held = []) :=
  ⟨⟨fw, 19, by unfold Quiet; decide +kernel⟩,
   ⟨fw.setBerth 0 { berthInit with state := .assigned, t2 := [(0, win0)] }, by unfold Quiet; decide +kernel⟩,
   ⟨fw, by unfold Quiet; decide +kernel⟩,
   ⟨onPower (fun p => { p with domOn := 0x7FFFF }) fw, 19, by decide +kernel⟩,
   ⟨onPower (fun p => { p with switching := 0x80000 }) { fw with isl := (List.range 10).map (fun i => (222 + i, { islandInit with test := .passed, ucOk := true })) }, ⟨rfl, rfl, rfl, all_between (by decide +kernel)⟩⟩,
   ⟨onBoard (fun b => { b with logClosed := true }) (onPilot (fun p => { p with ready := false }) fw), by decide +kernel⟩⟩

theorem witness_SelfTests :
    (∃ (s : State) (i : Island), accepts s = true ∧ islandExists i = true ∧ isPeripheral i = true ∧ (s.island i).pll = true ∧ (s.island i).strap = true ∧ (s.island i).test = .pending) ∧
    (∃ (s : State) (i : Island) (pass : Bool), accepts s = true ∧ islandExists i = true ∧ isPeripheral i = true ∧ (s.island i).test = .running) ∧
    (∃ (s : State), accepts s = true ∧ s.pilot.coreTest = .pending) ∧
    (∃ (s : State), accepts s = true ∧ s.pilot.vaultTest = .pending) ∧
    (∃ (s : State), pilotUp s = true ∧ s.pilot.collected = false ∧ s.pilot.milestone.toNat ≤ 0x11 ∧ ((∀ ix, ix < 232 → (tget islandInit s.isl ix).test = .passed))) :=
  ⟨⟨rom.setIsland (.pier 0) { islandInit with pll := true, strap := true }, .pier 0, by decide +kernel⟩,
   ⟨rom.setIsland (.pier 0) { islandInit with test := .running }, .pier 0, false, by decide +kernel⟩,
   ⟨rom, by decide +kernel⟩,
   ⟨rom, by decide +kernel⟩,
   ⟨{ fw with isl := (List.range 232).map (fun i => (i, { islandInit with test := .passed })) }, by decide +kernel⟩⟩

theorem witness_RomSteps :
    (∃ (s : State) (d : List (Nat × FuseCell)), accepts s = true ∧ s.pilot.phase = .rom ∧ s.fuse.sensed = false) ∧
    (∃ (s : State) (d : List (Nat × FuseCell)), accepts s = true ∧ s.pilot.phase = .rom ∧ s.fuse.sensed = false) ∧
    (∃ (s : State), accepts s = true ∧ s.pilot.phase = .rom ∧ s.fuse.sensed = true ∧ s.pilot.policyDone = false ∧ s.pilot.sourcesChosen = false ∧ s.lc.state = 1 ∧ s.pins.bootsel = 0 ∧ s.vault.entropyFailed = false ∧ s.pilot.entropyOk = false) ∧
    (∃ (s : State), accepts s = true ∧ s.pilot.phase = .rom ∧ s.fuse.sensed = true ∧ s.pilot.policyDone = false ∧ s.lc.state = 5) ∧
    (∃ (s : State), accepts s = true ∧ s.pilot.phase = .rom ∧ s.pilot.entropyOk = false ∧ s.pilot.policyDone = false) ∧
    (∃ (s : State), accepts s = true ∧ s.pilot.phase = .rom ∧ s.pilot.entropyOk = false ∧ s.pilot.policyDone = true ∧ s.pilot.sourcesChosen = false) ∧
    (∃ (s : State) (octal : Bool) (sectors : Nat), accepts s = true ∧ s.pilot.phase = .rom ∧ s.pilot.flashReady = false ∧ s.pilot.flashFailed = false ∧ s.pilot.policyDone = false ∧ s.pilot.milestone.toNat ≤ 3 ∧ s.pilot.settings.migrating = false) ∧
    (∃ (s : State), accepts s = true ∧ s.pilot.phase = .rom ∧ s.pilot.flashReady = false ∧ s.pilot.flashFailed = false ∧ s.pilot.policyDone = true ∧ s.pilot.sourcesChosen = false ∧ s.vault.entropyFailed = false ∧ s.pilot.entropyOk = true) :=
  ⟨⟨rom, [], by decide +kernel⟩,
   ⟨rom, [], by decide +kernel⟩,
   ⟨onLc (fun x => { x with state := 1 }) (onFuse (fun f => { f with sensed := true }) rom), by decide +kernel⟩,
   ⟨onLc (fun x => { x with state := 5 }) (onFuse (fun f => { f with sensed := true }) rom), by decide +kernel⟩,
   ⟨rom, by decide +kernel⟩,
   ⟨onPilot (fun p => { p with policyDone := true }) rom, by decide +kernel⟩,
   ⟨rom, true, 2048, by decide +kernel⟩,
   ⟨onPilot (fun p => { p with policyDone := true, entropyOk := true }) rom, by decide +kernel⟩⟩

theorem witness_BootChain :
    (∃ (s : State) (src next : BootSource) (rest : List BootSource), accepts s = true ∧ s.pilot.phase = .rom ∧ s.pilot.sources = src :: next :: rest ∧ s.pilot.chain = none ∧ s.pilot.booted = none) ∧
    (∃ (s : State) (src : BootSource), accepts s = true ∧ s.pilot.phase = .rom ∧ s.pilot.sources = [src] ∧ s.pilot.chain = none ∧ s.pilot.booted = none) ∧
    (∃ (s : State) (c : ChainSt) (blk : Bytes), accepts s = true ∧ s.pilot.phase = .rom ∧ s.pilot.chain = some c ∧ c.complete = false ∧ s.pilot.sources = [c.source] ∧ blk = chainBlock s (areaBase c.source) c.index ∧ c.crcTries < 3) ∧
    (∃ (s : State) (c : ChainSt), accepts s = true ∧ s.pilot.phase = .rom ∧ s.pilot.chain = some c ∧ c.complete = false ∧ c.crcTries < 3) ∧
    (∃ (s : State) (c : ChainSt), accepts s = true ∧ s.pilot.phase = .rom ∧ s.pilot.chain = some c ∧ c.complete = true ∧ s.pilot.coreTest = .passed ∧ s.pilot.vaultTest = .passed ∧ c.source = .bankA ∧ s.pilot.milestone.toNat ≤ 0x10) :=
  ⟨⟨onPilot (fun p => { p with sources := [.bankA, .bankB] }) rom, .bankA, .bankB, [], by decide +kernel⟩,
   ⟨onPilot (fun p => { p with sources := [.bankB] }) rom, .bankB, by decide +kernel⟩,
   ⟨chainS, chain1, chainBlock chainS (areaBase chain1.source) chain1.index, ⟨rfl, rfl, rfl, rfl, rfl, rfl, by decide⟩⟩,
   ⟨onPilot (fun p => { p with sources := [.bankA], chain := some chain1 }) rom, chain1, by decide +kernel⟩,
   ⟨onPilot (fun p => { p with sources := [.bankA], chain := some { chain1 with complete := true }, coreTest := .passed, vaultTest := .passed }) rom, { chain1 with complete := true }, by decide +kernel⟩⟩

theorem witness_FirmwareStart :
    (∃ (s : State) (src : BootSource), accepts s = true ∧ s.pilot.phase = .rom ∧ s.pilot.booted = some src ∧ s.pilot.udsLocked = true ∧ s.lc.mboxBusy = false) ∧
    (∃ (s : State), slotServes s 4 6 = true ∧ slotServes s 1 6 = true) ∧
    (∃ (s : State) (k : UcKind), pilotUp s = true ∧ s.pilot.collected = true ∧ tfind s.pilot.ucImages (ucIx k) = none) ∧
    (∃ (s : State) (i : Island) (img : Bytes), pilotUp s = true ∧ islandExists i = true ∧ islandIx i < 230 ∧ (s.island i).ucTries = 1 ∧ (s.island i).ucOk = false ∧ tfind s.pilot.ucImages (ucKindOf (islandIx i)) = some img) ∧
    (∃ (s : State), commanded s = true ∧ s.board.mgmtRun = false) ∧
    (∃ (s : State), pilotUp s = true ∧ s.board.loadEn = true) ∧
    (∃ (s : State), pilotUp s = true ∧ s.pilot.mgmtVerified = true ∧ tokenClear s = true ∧ s.pilot.milestone.toNat ≤ 0x14 ∧ s.pilot.collected = true ∧ ucAll s = true) ∧
    (∃ (s : State), pilotUp s = true) ∧
    (∃ (s : State), pilotUp s = true ∧ (s.pilot.mgmtVerified = false ∨ s.pilot.collected = false ∨ ucAll s = false ∨ tokenClear s = false)) :=
  ⟨⟨onPilot (fun p => { p with booted := some .bankA, udsLocked := true }) rom, .bankA, by decide +kernel⟩,
   ⟨slotS (slotS fw 4 1 0x40 (zeros 120)) 1 1 0x40 (zeros 120), by and_intros <;> first | with_reducible exact serves_slotS (by decide +kernel) | with_reducible exact serves_below (by decide +kernel) | decide +kernel⟩,
   ⟨onPilot (fun p => { p with collected := true }) fw, .pier, by decide +kernel⟩,
   ⟨(onPilot (fun p => { p with ucImages := [(ucKindOf 0, [1])] }) fw).setIsland (.pier 0) { islandInit with ucTries := 1 }, .pier 0, [1], by decide +kernel⟩,
   ⟨fw, by decide +kernel⟩,
   ⟨onBoard (fun b => { b with loadEn := true }) fw, by decide +kernel⟩,
   ⟨onPilot (fun p => { p with mgmtVerified := true, collected := true }) fw, by decide +kernel⟩,
   ⟨fw, by decide +kernel⟩,
   ⟨fw, by decide +kernel⟩⟩

theorem witness_ManagementMailbox :
    (∃ (s : State), commanded s = true) ∧
    (∃ (s : State), accepts s = true ∧ s.board.mgmtRun = true) ∧
    (∃ (s : State), commanded s = true) ∧
    (∃ (s : State), pilotUp s = true ∧ s.board.mgmtRun = true ∧ s.board.inFull = false ∧ s.pilot.memTrained = false ∧ s.pilot.milestone.toNat ≤ 0x15) ∧
    (∃ (s : State) (msg : Bytes), accepts s = true ∧ pilotUp s = false ∧ s.board.mgmtRun = true ∧ s.board.inFull = false) ∧
    (∃ (s : State) (links : BitVec 48), pilotUp s = true ∧ s.board.mgmtRun = true ∧ s.board.inFull = false) ∧
    (∃ (s : State) (msg : Bytes), pilotUp s = true ∧ s.board.mgmtRun = true ∧ s.board.inFull = false) ∧
    (∃ (s : State) (msg : Bytes), pilotUp s = true ∧ s.board.mgmtRun = true ∧ s.board.inFull = false ∧ byteAt msg 0 ≠ 1 ∧ byteAt msg 0 ≠ 2 ∧ byteAt msg 0 ≠ 3 ∧ byteAt msg 0 ≠ 4) :=
  ⟨⟨fw, by decide +kernel⟩,
   ⟨onBoard (fun b => { b with mgmtRun := true }) fw, by decide +kernel⟩,
   ⟨fw, by decide +kernel⟩,
   ⟨onBoard (fun b => { b with mgmtRun := true }) fw, by decide +kernel⟩,
   ⟨onBoard (fun b => { b with mgmtRun := true }) rom, [4], by decide +kernel⟩,
   ⟨onBoard (fun b => { b with mgmtRun := true }) fw, 1, by decide +kernel⟩,
   ⟨onBoard (fun b => { b with mgmtRun := true }) fw, [2], by decide +kernel⟩,
   ⟨onBoard (fun b => { b with mgmtRun := true }) fw, [5], by decide +kernel⟩⟩

theorem witness_BoardingWaves :
    (∃ (s : State), pilotUp s = true ∧ s.pilot.memTrained = true ∧ s.board.wave = 0 ∧ s.board.slot = none ∧ s.pilot.milestone.toNat ≤ 0x15) ∧
    (∃ (s : State) (k : Nat) (ks : List Nat), pilotUp s = true ∧ s.board.slot = some ks ∧ ks.contains k = true ∧ (s.site k).step = .a ∧ (s.site k).awaiting = true ∧ (s.site k).wiping = false ∧ minVersion s.fuse 0 ≤ 3) ∧
    (∃ (s : State) (k : Nat) (ks : List Nat) (vendor : Bytes), pilotUp s = true ∧ s.board.slot = some ks ∧ ks.contains k = true ∧ (s.site k).step = .b ∧ (s.site k).awaiting = true ∧ (s.site k).wiping = false ∧ siteImage s k = none ∧ leAt (bootedSite s k) 0 8 = 5) ∧
    (∃ (s : State) (k : Nat) (ks : List Nat), pilotUp s = true ∧ s.board.slot = some ks ∧ ks.contains k = true ∧ (s.site k).step = .a ∧ (s.site k).awaiting = true ∧ (s.site k).wiping = false ∧ (s.site k).reboard = false) ∧
    (∃ (s : State) (k a : Nat) (ks : List Nat), pilotUp s = true ∧ s.board.slot = some ks ∧ ks.contains k = true ∧ (s.site k).step = .d ∧ (s.site k).load = some a) ∧
    (∃ (s : State) (k a : Nat) (ks : List Nat), pilotUp s = true ∧ s.board.slot = some ks ∧ ks.contains k = true ∧ (s.site k).step = .d ∧ (s.site k).load = some a ∧ (s.site k).reboard = false) ∧
    (∃ (s : State) (k : Nat) (late : Bool), pilotUp s = true ∧ (s.site k).load = none) ∧
    (∃ (s : State) (ks : List Nat), pilotUp s = true ∧ s.board.slot = some ks ∧ s.board.wave = 0 ∧ s.board.areas = [] ∧ ((∀ k ∈ ks, siteBusy (s.site k) = false ∧ (s.site k).reboard = false))) ∧
    (∃ (s : State) (k : Nat), accepts s = true ∧ k < 12 ∧ siteBusy (s.site k) = false) ∧
    (∃ (s : State), pilotUp s = true ∧ siteServes s 2 = false ∧ s.board.slot = none ∧ s.board.logClosed = true ∧ (s.site 2).present = true ∧ (s.site 2).sbUp = true ∧ siteImage s 2 = none ∧ s.board.areas = []) ∧
    (∃ (s : State) (e : Bytes), pilotUp s = true ∧ siteServes s 2 = false ∧ s.board.slot = none ∧ s.board.logClosed = true ∧ siteImage s 2 = some e ∧ s.board.areas = [] ∧ stackUp s 0 = true ∧ (s.pch 0).busy = false ∧ descShape (stageDesc s e 0) true = 0) ∧
    (∃ (s : State), pilotUp s = true ∧ siteServes s 2 = true) ∧
    (∃ (s : State), pilotUp s = true) :=
  ⟨⟨onPilot (fun p => { p with memTrained := true }) fw, by decide +kernel⟩,
   ⟨(onBoard (fun b => { b with slot := some [3] }) fw).setSite 3 { siteInit with step := .a, awaiting := true }, 3, [3], by decide +kernel⟩,
   ⟨{ (onBoard (fun b => { b with slot := some [3] }) fw).setSite 3 { siteInit with step := .b, awaiting := true } with flash := siteFlash }, 3, [3], [1], by decide +kernel⟩,
   ⟨(onBoard (fun b => { b with slot := some [3] }) fw).setSite 3 { siteInit with step := .a, awaiting := true }, 3, [3], by decide +kernel⟩,
   ⟨(onBoard (fun b => { b with slot := some [3] }) fw).setSite 3 { siteInit with step := .d, load := some 1 }, 3, 1, [3], by decide +kernel⟩,
   ⟨onBoard (fun b => { b with slot := some [3] }) (fw.setSite 3 { siteInit with step := .d, load := some 0 }), 3, 0, [3], by decide +kernel⟩,
   ⟨fw, 3, false, by decide +kernel⟩,
   ⟨onBoard (fun b => { b with slot := some [0, 1] }) fw, [0, 1], by decide +kernel⟩,
   ⟨fw, 11, by decide +kernel⟩,
   ⟨(onBoard (fun b => { b with logClosed := true }) fw).setSite 2 { siteInit with present := true, sbUp := true }, by decide +kernel⟩,
   ⟨stagedS, partEntry (bootedManifest stagedS) 0, by decide +kernel⟩,
   ⟨fw.setBerth 5 { berthInit with state := .assigned, sites := 4 }, by decide +kernel⟩,
   ⟨fw, by decide +kernel⟩⟩

theorem witness_SiteRegisters :
    (∃ (s : State) (k : Nat) (m : SiteMsg), s.pins.boundaryControls = false) ∧
    (∃ (s : State) (k : Nat), commanded s = true ∧ k < 12 ∧ (s.site k).txBusy = false ∧ 1 ≤ (s.site k).txLen.toNat ∧ (s.site k).txLen.toNat ≤ 8192 ∧ (s.site k).sbUp = true) ∧
    (∃ (s : State) (k : Nat), commanded s = true ∧ k < 12 ∧ (s.site k).txBusy = false ∧ (s.site k).txLen = 0) ∧
    (∃ (s : State) (k : Nat), commanded s = true ∧ k < 12 ∧ (s.site k).txBusy = true) ∧
    (∃ (s : State) (k : Nat), commanded s = true ∧ k < 12) ∧
    (∃ (s : State) (k : Nat) (msg : Bytes), accepts s = true ∧ k < 12 ∧ (s.site k).awaiting = true ∧ (s.site k).rxReady = false ∧ 1 ≤ msg.length ∧ msg.length ≤ 8192) ∧
    (∃ (s : State) (k : Nat) (msg : Bytes), accepts s = true ∧ k < 12 ∧ (s.site k).awaiting = true ∧ (s.site k).rxReady = false ∧ 8192 < msg.length ∧ siteBusy (s.site k) = false) ∧
    (∃ (s : State) (k : Nat), accepts s = true ∧ k < 12 ∧ (s.site k).awaiting = true ∧ siteBusy (s.site k) = false) ∧
    (∃ (s : State) (k : Nat) (ks : List Nat), pilotUp s = true ∧ k < 12 ∧ s.board.slot = some ks ∧ ks.contains k = true ∧ (s.site k).awaiting = true ∧ siteBusy (s.site k) = true ∧ (s.site k).reboard = false) :=
  ⟨⟨rom, 3, .wipe, by decide +kernel⟩,
   ⟨fw.setSite 11 { siteInit with txLen := 8192, sbUp := true }, 11, by decide +kernel⟩,
   ⟨fw, 11, by decide +kernel⟩,
   ⟨fw.setSite 11 { siteInit with txBusy := true }, 11, by decide +kernel⟩,
   ⟨fw, 11, by decide +kernel⟩,
   ⟨fw.setSite 11 { siteInit with awaiting := true }, 11, [1], by decide +kernel⟩,
   ⟨fw.setSite 11 { siteInit with awaiting := true }, 11, zeros 8193, by decide +kernel⟩,
   ⟨fw.setSite 11 { siteInit with awaiting := true }, 11, by decide +kernel⟩,
   ⟨onBoard (fun b => { b with slot := some [3] }) (fw.setSite 3 { siteInit with step := .a, awaiting := true }), 3, [3], by decide +kernel⟩⟩

theorem witness_RestartsAndHalts :
    (∃ (s : State), accepts s = true ∧ s.pilot.phase = .rom) ∧
    (∃ (s : State), accepts s = true ∧ s.pilot.phase = .firmware ∧ s.pilot.warmGuard = false) ∧
    (∃ (s : State), accepts s = true ∧ s.pilot.phase = .firmware ∧ s.pilot.warmGuard = true) ∧
    (∃ (s : State) (d : Bytes), accepts s = true ∧ s.pilot.phase = .warm ∧ d = s.pilot.restartDigest ∧ s.lc.mboxBusy = false) ∧
    (∃ (s : State) (d : Bytes), accepts s = true ∧ s.pilot.phase = .warm ∧ d ≠ s.pilot.restartDigest ∧ s.pilot.flashReady = false) ∧
    (∃ (s : State), accepts s = true) ∧
    (∃ (s : State), accepts s = true ∧ s.pilot.phase = .rom) ∧
    (∃ (s : State) (a : PilotAccess), accepts s = true ∧ s.pilot.phase = .firmware ∧ a.fetch = false ∧ a.store = true ∧ a.addr < 0x40000) ∧
    (∃ (s : State), accepts s = true) ∧
    (∃ (s : State) (cut : BitVec 3), accepts s = true ∧ s.fuse.op = none) ∧
    (∃ (s : State) (cut : BitVec 3) (op : FuseOp), accepts s = true ∧ s.fuse.op = some op ∧ op.owner = .command ∧ s.lc.run = none) ∧
    (∃ (s : State) (cut : BitVec 3) (op : FuseOp), accepts s = true ∧ s.fuse.op = some op ∧ (op.owner ≠ .command ∨ s.lc.run ≠ none)) ∧
    (∃ (s : State) (e : AlarmEntry), pilotUp s = true ∧ s.jrn.drain = 0 ∧ tget [] s.jrn.queues 0 = [e] ∧ e.kind = 0x0202 ∧ s.jrn.scanned = false) ∧
    (∃ (s : State) (e : AlarmEntry) (q : List AlarmEntry), commanded s = true ∧ pilotUp s = false ∧ s.jrn.drain = 0 ∧ tget [] s.jrn.queues 0 = e :: q) :=
  ⟨⟨rom, by decide +kernel⟩,
   ⟨fw, by decide +kernel⟩,
   ⟨onPilot (fun p => { p with warmGuard := true }) fw, by decide +kernel⟩,
   ⟨onPilot (fun p => { p with phase := .warm }) fw, fw.pilot.restartDigest, by decide +kernel⟩,
   ⟨onPilot (fun p => { p with phase := .warm }) fw, [1], by decide +kernel⟩,
   ⟨rom, by decide +kernel⟩,
   ⟨rom, by decide +kernel⟩,
   ⟨fw, { addr := 0x3FFFC, size := 4, store := true, fetch := false, value := 0 }, by decide +kernel⟩,
   ⟨rom, by decide +kernel⟩,
   ⟨rom, 0, by decide +kernel⟩,
   ⟨onFuse (fun f => { f with busy := true, op := some burn1 }) rom, 5, burn1, by decide +kernel⟩,
   ⟨onFuse (fun f => { f with busy := true, op := some { burn1 with owner := .transition } }) rom, 5, { burn1 with owner := .transition }, by decide +kernel⟩,
   ⟨onJrn (fun j => { j with queues := [(0, [alarm1])], drain := 0 }) fw, alarm1, by decide +kernel⟩,
   ⟨onJrn (fun j => { j with queues := [(0, [alarm1])] }) rom, alarm1, [], by decide +kernel⟩⟩

theorem witness_FuseCommandFrame :
    (∃ (s : State) (arm : Byte) (w : BitVec 12), fuseCommanded s = true ∧ s.fuse.busy = true) ∧
    (∃ (s : State) (arm : Byte) (w : BitVec 12), fuseCommanded s = true ∧ s.fuse.busy = false ∧ s.lc.busy = false ∧ arm ≠ 0xA5) ∧
    (∃ (s : State) (arm : Byte) (w : BitVec 12), FuseFree s arm ∧ programCheck s.lc.state s.fuse w.toNat s.fuse.wdata ≠ 0) ∧
    (∃ (s : State) (arm : Byte) (w : BitVec 12), FuseFree s arm) ∧
    (∃ (s : State) (arm : Byte) (w : BitVec 12), FuseFree s arm) ∧
    (∃ (s : State) (arm : Byte) (w : BitVec 12), FuseFree s arm) ∧
    (∃ (s : State) (arm : Byte) (w : BitVec 12) (op : BitVec 4), FuseFree s arm ∧ (op = 0 ∨ 10 ≤ op.toNat)) ∧
    (∃ (s : State), fuseCommanded s = true ∧ tackCheck s = 0) ∧
    (∃ (s : State), fuseCommanded s = true ∧ s.lc.state = 3) :=
  ⟨⟨onFuse (fun f => { f with busy := true }) fw, 0, 0, by decide +kernel⟩,
   ⟨fw, 0, 0, by decide +kernel⟩,
   ⟨fw, 0xA5, 0, by unfold FuseFree; decide +kernel⟩,
   ⟨fw, 0xA5, 0, by unfold FuseFree; decide +kernel⟩,
   ⟨fw, 0xA5, 0, by unfold FuseFree; decide +kernel⟩,
   ⟨fw, 0xA5, 0, by unfold FuseFree; decide +kernel⟩,
   ⟨fw, 0xA5, 0, 15, by unfold FuseFree; decide +kernel⟩,
   ⟨mk1, by decide +kernel⟩,
   ⟨onLc (fun x => { x with state := 3 }) fw, by decide +kernel⟩⟩

theorem witness_FuseBurns :
    (∃ (s : State) (arm : Byte) (w : BitVec 12), FuseFree s arm ∧ programCheck s.lc.state s.fuse w.toNat s.fuse.wdata = 0) ∧
    (∃ (s : State) (arm : Byte) (w : BitVec 12), FuseFree s arm ∧ incrementCheck s.lc.state s.fuse (w.toNat / 128) = 0) ∧
    (∃ (s : State) (arm : Byte) (w : BitVec 12), FuseFree s arm ∧ finaliseCheck s.lc.state s.fuse (w.toNat / 128) = 0) ∧
    (∃ (s : State) (arm : Byte) (w : BitVec 12), FuseFree s arm ∧ programCheck s.lc.state s.fuse (2560 + w.toNat / 128) (BitVec.allOnes 64) = 0) ∧
    (∃ (s : State) (arm : Byte) (w : BitVec 12), FuseFree s arm ∧ programCheck s.lc.state s.fuse (2592 + w.toNat / 128) (BitVec.allOnes 64) = 0) ∧
    (∃ (s : State) (arm : Byte) (w : BitVec 12), FuseFree s arm ∧ sealCheck s (w.toNat / 128) = 0) ∧
    (∃ (s : State) (op : FuseOp) (w b b' : Nat) (cw : BitVec 72) (rest : List (Nat × BitVec 72)) (bs : List Nat), accepts s = true ∧ s.fuse.op = some op ∧ op.todo = (w, cw) :: rest ∧ op.bits = b :: b' :: bs ∧ b < 72) ∧
    (∃ (s : State) (op : FuseOp) (w b : Nat) (cw : BitVec 72) (rest : List (Nat × BitVec 72)) (bs : List Nat), accepts s = true ∧ s.fuse.op = some op ∧ op.todo = (w, cw) :: rest ∧ op.bits = b :: bs ∧ op.tries < 3 ∧ (tget cellBlank s.fuse.cells w).high.getLsbD b = false) :=
  ⟨⟨onFuse (fun f => { f with wdata := 5 }) mk1, 0xA5, 256, by unfold FuseFree; decide +kernel⟩,
   ⟨mk1, 0xA5, 1280, by unfold FuseFree; decide +kernel⟩,
   ⟨onFuse (fun f => { f with shadows := [(256, shadow5)] }) mk1, 0xA5, 256, by unfold FuseFree; decide +kernel⟩,
   ⟨onFuse (fun f => { f with compat := true, shadows := [(256, shadow5)] }) mk1, 0xA5, 256, by unfold FuseFree; decide +kernel⟩,
   ⟨mk1, 0xA5, 256, by unfold FuseFree; decide +kernel⟩,
   ⟨mk1, 0xA5, 128, by unfold FuseFree; decide +kernel⟩,
   ⟨onFuse (fun f => { f with op := some burn1 }) mk1, burn1, 256, 0, 2, 5, [], [], by decide +kernel⟩,
   ⟨onFuse (fun f => { f with op := some burn1 }) mk1, burn1, 256, 0, 5, [], [2], by decide +kernel⟩⟩

theorem witness_LifeCycleTransitions :
    (∃ (s : State) (target : BitVec 4), commanded s = true ∧ goCheck s target ≠ 0) ∧
    (∃ (s : State) (target : BitVec 4), commanded s = true ∧ goCheck s target = 0 ∧ s.fuse.op = none ∧ target ≠ 5) ∧
    (∃ (s : State) (target : BitVec 4), commanded s = true ∧ goCheck s target = 0 ∧ s.fuse.op.isSome = true) ∧
    (∃ (s : State), accepts s = true ∧ mboxOpen s = true ∧ s.pilot.phase = .firmware ∧ s.lc.state = 3 ∧ (mboxBytes s).length = 15080 ∧ leAt (mboxBytes s) 8 1 = 4 ∧ s.lc.busy = false ∧ s.lc.doneThisBoot = false ∧ s.lc.grant = 0 ∧ s.fuse.vppOk = true ∧ s.fuse.op.isSome = true) ∧
    (∃ (s : State), accepts s = true ∧ mboxOpen s = true ∧ s.pilot.phase = .firmware ∧ s.lc.state = 5 ∧ s.lc.mboxLen = 0 ∧ s.lc.busy = false ∧ s.fuse.vppOk = true) ∧
    (∃ (s : State) (req : BitVec 4), accepts s = true ∧ mboxOpen s = true ∧ s.lc.state = 5 ∧ req ≠ 0 ∧ req ≠ 3) ∧
    (∃ (s : State), accepts s = true ∧ mboxOpen s = true ∧ s.pilot.phase = .rom) ∧
    (∃ (s : State) (d : Bytes), accepts s = true) ∧
    (∃ (s : State) (code : Byte), commanded s = true ∧ s.lc.mboxBusy = true) :=
  ⟨⟨fw, 7, by decide +kernel⟩,
   ⟨onLc (fun x => { x with state := 3 }) mk1, 4, by decide +kernel⟩,
   ⟨onFuse (fun f => { f with op := some burn1 }) (onLc (fun x => { x with state := 3 }) mk1), 4, by decide +kernel⟩,
   ⟨onPins (fun p => { p with ir := .lcMbox }) (onFuse (fun f => { f with op := some burn1 }) (onLc (fun x => { x with state := 3, mboxLen := 15080, mbox := [(8, 4)] }) mk1)), by decide +kernel⟩,
   ⟨onPins (fun p => { p with ir := .lcMbox }) (onLc (fun x => { x with state := 5 }) mk1), by decide +kernel⟩,
   ⟨onPins (fun p => { p with ir := .lcMbox }) (onLc (fun x => { x with state := 5 }) mk1), 9, by decide +kernel⟩,
   ⟨onPins (fun p => { p with ir := .lcMbox }) rom, by decide +kernel⟩,
   ⟨fw, [], by decide +kernel⟩,
   ⟨onLc (fun x => { x with mboxBusy := true }) fw, 0x0B, by decide +kernel⟩⟩

theorem witness_DebugGrants :
    (∃ (s : State) (r : BitVec 10), Quiet s ∧ commanded s = true ∧ s.lc.busy = false ∧ r &&& ~~~debugCeiling s.lc.state = 0 ∧ r &&& invasiveMask = 0) ∧
    (∃ (s : State) (r : BitVec 10), Quiet s ∧ commanded s = true ∧ s.lc.busy = false ∧ r &&& ~~~debugCeiling s.lc.state ≠ 0) ∧
    (∃ (s : State) (r : BitVec 10), Quiet s ∧ commanded s = true ∧ s.lc.busy = false ∧ r &&& ~~~debugCeiling s.lc.state = 0 ∧ r &&& invasiveMask ≠ 0 ∧ s.lc.vaultEmpty = false ∧ s.lc.grantPending = none ∧ s.berths = []) ∧
    (∃ (s : State) (r : BitVec 10), Quiet s ∧ commanded s = true ∧ s.lc.grantPending = some r ∧ allBerthsFree s = true ∧ s.vault.invOpen = true ∧ s.lc.vaultEmpty = true) ∧
    (∃ (s : State) (r : BitVec 10), Quiet s ∧ commanded s = true ∧ s.lc.grantPending = some r ∧ allBerthsFree s = false) ∧
    (∃ (s : State), Quiet s ∧ mboxOpen s = true ∧ s.pilot.phase = .firmware ∧ s.lc.state = 1 ∧ mboxBytes s = [0x20, 0, 0, 0] ∧ s.lc.busy = false) :=
  ⟨⟨mk1, 0x20, by unfold Quiet; decide +kernel⟩,
   ⟨onLc (fun x => { x with state := 3 }) fw, 0x001, by unfold Quiet; decide +kernel⟩,
   ⟨onLc (fun x => { x with vaultEmpty := false }) mk1, 0x001, by unfold Quiet; decide +kernel⟩,
   ⟨onVault (fun v => { v with invOpen := true }) (onLc (fun x => { x with grantPending := some 1, vaultEmpty := true }) mk1), 1, by unfold Quiet; decide +kernel⟩,
   ⟨onLc (fun x => { x with grantPending := some 1 }) (berthS mk1 5 (fun y => { y with state := .rinsing })), 1, by unfold Quiet; decide +kernel⟩,
   ⟨onPins (fun p => { p with ir := .lcMbox }) (onLc (fun x => { x with mboxLen := 4, mbox := [(0, 0x20)] }) mk1), by unfold Quiet; decide +kernel⟩⟩

theorem witness_VaultFrame :
    (∃ (s : State) (c : VaultCmd), vaultCommanded s = true ∧ s.vault.busy = true) ∧
    (∃ (s : State) (c : VaultCmd), VaultFree s c ∧ s.vault.attr &&& 0xFFF2F800 ≠ 0) ∧
    (∃ (s : State) (c : VaultCmd) (op : BitVec 5), VaultFree s c ∧ (op = 0 ∨ 0x0F ≤ op.toNat)) ∧
    (∃ (s : State) (c : VaultCmd), VaultFree s c ∧ c.space = false ∧ c.index.toNat < 4) ∧
    (∃ (s : State) (c : VaultCmd), VaultFree s c ∧ s.vault.attr = 0 ∧ c.space = false ∧ 8 ≤ c.index.toNat ∧ c.index.toNat < 12 ∧ (s.slot c.index.toNat).valid = true ∧ (s.slot c.index.toNat).unusable = false) ∧
    (∃ (s : State) (c : VaultCmd), VaultFree s c ∧ c.space = false) ∧
    (∃ (s : State) (i : Island), accepts s = true ∧ s.vault.acks.contains (islandIx i) = true ∧ s.vault.awaiting = some ([islandIx i], .command) ∧ s.vault.afterQueue = []) :=
  ⟨⟨onVault (fun v => { v with busy := true }) fw, vc 0 8 0 false, by decide +kernel⟩,
   ⟨onVault (fun v => { v with attr := 0x800 }) fw, vc 0 8 0 false, by unfold VaultFree; decide +kernel⟩,
   ⟨fw, vc 0 8 0 false, 31, by unfold VaultFree; decide +kernel⟩,
   ⟨fw, vc 0 3 0 false, by unfold VaultFree; decide +kernel⟩,
   ⟨slotS fw 8 4 0x80 (zeros 120), vc 0 8 0 false, by unfold VaultFree; decide +kernel⟩,
   ⟨fw, vc 0 8 0 false, by unfold VaultFree; decide +kernel⟩,
   ⟨onVault (fun v => { v with acks := [0], awaiting := some ([0], .command) }) fw, .pier 0, by decide +kernel⟩⟩

theorem witness_VaultSlots :
    (∃ (s : State) (c : VaultCmd), VaultFree s c ∧ s.vault.attr = 0 ∧ c.space = false ∧ 8 ≤ c.index.toNat ∧ c.index.toNat < 12 ∧ (s.slot c.index.toNat).valid = false ∧ s.vault.drbgOk = true) ∧
    (∃ (s : State) (c : VaultCmd), VaultFree s c ∧ s.vault.attr = 0x400 ∧ c.space = false ∧ 12 ≤ c.index.toNat ∧ c.index.toNat < 16 ∧ (s.slot c.index.toNat).valid = false ∧ c.typ = 6 ∧ 1 ≤ s.vault.len.toNat ∧ s.vault.len.toNat ≤ 4064) ∧
    (∃ (s : State) (c : VaultCmd), VaultFree s c ∧ c.space = false ∧ 12 ≤ c.index.toNat ∧ c.index.toNat < 64 ∧ (s.slot c.index.toNat).valid = true ∧ (s.slot c.index.toNat).dest.getLsbD 10 = true ∧ slotSound s c.index.toNat = true) ∧
    (∃ (s : State) (c : VaultCmd), vaultCommanded s = true ∧ s.vault.busy = false ∧ c.spoiled = some (4096 + c.index.toNat) ∧ c.space = false ∧ 12 ≤ c.index.toNat ∧ c.index.toNat < 16 ∧ (s.slot c.index.toNat).valid = true ∧ (s.slot c.index.toNat).unusable = false ∧ (s.slot c.index.toNat).dest.getLsbD 10 = true) ∧
    (∃ (s : State) (c : VaultCmd), VaultFree s c ∧ s.vault.attr = 0 ∧ c.space = false ∧ c.index = 6 ∧ (s.slot 6).valid = false ∧ (s.slot 2).valid = true ∧ (s.slot 2).dest.getLsbD 8 = true ∧ slotSound s 2 = true ∧ s.vault.invOpen = false) ∧
    (∃ (s : State) (c : VaultCmd), VaultFree s c ∧ c.space = false ∧ 4 ≤ c.index.toNat ∧ c.index.toNat < 16) ∧
    (∃ (s : State) (c : VaultCmd), VaultFree s c ∧ s.vault.attr = 0x10000 ∧ c.space = false ∧ 4 ≤ c.index.toNat ∧ c.index.toNat < 64 ∧ (s.slot c.index.toNat).valid = true ∧ (s.slot c.index.toNat).unusable = false) ∧
    (∃ (s : State) (c : VaultCmd), VaultFree s c ∧ c.space = false ∧ 12 ≤ c.index.toNat ∧ c.index.toNat < 16 ∧ (s.slot c.index.toNat).valid = true ∧ (s.slot c.index.toNat).expire = false ∧ slotSound s c.index.toNat = true ∧ (s.slot 7).valid = true ∧ slotSound s 7 = true ∧ s.vault.drbgOk = true ∧ s.vault.invOpen = false) ∧
    (∃ (s : State) (c : VaultCmd) (len : Nat) (d : Bytes), VaultFree s c ∧ s.vault.attr = 0x10000 ∧ c.space = false ∧ 12 ≤ c.index.toNat ∧ c.index.toNat < 16 ∧ (s.slot c.index.toNat).valid = false ∧ d = mread 0 s.vault.data 0 4096 ∧ leAt d 0 1 = 6 ∧ leAt d 2 2 = len ∧ 1 ≤ len ∧ len ≤ 4052 ∧ (s.slot 7).valid = true ∧ slotSound s 7 = true ∧ s.vault.invOpen = false) ∧
    (∃ (s : State) (c : VaultCmd), VaultFree s c ∧ s.vault.invOpen = true) ∧
    (∃ (s : State) (c : VaultCmd), VaultFree s c ∧ s.vault.attr &&& 0xFFF2F800 = 0 ∧ s.vault.invOpen = true) ∧
    (∃ (s : State) (c : VaultCmd), VaultFree s c ∧ c.space = false ∧ c.index.toNat < 64 ∧ s.vault.invOpen = false ∧ (s.slot c.index.toNat).valid = true ∧ (s.slot c.index.toNat).typ = 2 ∧ slotSound s c.index.toNat = true) :=
  ⟨⟨onVault (fun v => { v with aux := 5 }) fw, vc 0 11 0 false, by unfold VaultFree; decide +kernel⟩,
   ⟨onVault (fun v => { v with attr := 0x400, len := 3, data := [(0, 1), (1, 2)] }) fw, vc 0 15 6 false, by unfold VaultFree; decide +kernel⟩,
   ⟨slotS fw 12 6 0x400 [1, 2, 3], vc 0 12 0 false, by unfold VaultFree; and_intros <;> first | with_reducible exact sound_slotS (by decide +kernel) | decide +kernel⟩,
   ⟨slotS fw 12 6 0x400 [1, 2, 3], { vc 0 12 0 false with spoiled := some 4108 }, by decide +kernel⟩,
   ⟨slotS fw 2 3 0x100 (zeros 32), vc 0 6 0 false, by unfold VaultFree; and_intros <;> first | with_reducible exact sound_slotS (by decide +kernel) | decide +kernel⟩,
   ⟨slotS fw 4 3 0x100 (zeros 32), vc 0 4 0 false, by unfold VaultFree; decide +kernel⟩,
   ⟨onVault (fun v => { v with attr := 0x10000 }) (slotS fw 5 3 0x200 (zeros 32)), vc 0 5 0 false, by unfold VaultFree; decide +kernel⟩,
   ⟨slotS (slotS fw 7 3 0x200 (zeros 32)) 12 6 0x400 [1, 2, 3], vc 0 12 0 false, by unfold VaultFree; and_intros <;> first | with_reducible exact sound_slotS (by decide +kernel) | with_reducible exact sound_below (by decide +kernel) | decide +kernel⟩,
   ⟨slotS (onVault (fun v => { v with attr := 0x10000, data := [(0, 6), (2, 3)] }) fw) 7 3 0x200 (zeros 32), vc 0 12 0 false, 3, mread 0 [(0, 6), (2, 3)] 0 4096, by unfold VaultFree; and_intros <;> first | with_reducible exact sound_slotS (by decide +kernel) | with_reducible rfl | decide +kernel⟩,
   ⟨onVault (fun v => { v with invOpen := true }) fw, vc 0 12 0 false, by unfold VaultFree; decide +kernel⟩,
   ⟨onVault (fun v => { v with invOpen := true }) fw, vc 0 12 0 false, by unfold VaultFree; decide +kernel⟩,
   ⟨slotS fw 1 2 0x40 (zeros 80), vc 0 1 0 false, by unfold VaultFree; and_intros <;> first | with_reducible exact sound_slotS (by decide +kernel) | decide +kernel⟩⟩

theorem witness_VaultRecords :
    (∃ (s : State) (c : VaultCmd), VaultFree s c ∧ c.space = true ∧ (s.record c.index.toNat).opened = false ∧ vaultClosed s = false ∧ s.vault.drbgOk = true) ∧
    (∃ (s : State) (c : VaultCmd), VaultFree s c ∧ c.space = true ∧ (s.record c.index.toNat).opened = true ∧ (s.record c.index.toNat).rotating = false ∧ recordSound s c.index.toNat = true ∧ s.vault.drbgOk = true ∧ (s.record c.index.toNat).curGen = false) ∧
    (∃ (s : State) (c : VaultCmd), VaultFree s c ∧ c.space = true ∧ (s.record c.index.toNat).opened = true ∧ (s.record c.index.toNat).unusable = false ∧ (s.record c.index.toNat).rotating = true) ∧
    (∃ (s : State) (c : VaultCmd) (k : Nat) (d : Bytes), VaultFree s c ∧ c.space = true ∧ c.field = 2 ∧ s.vault.aux.toNat = k ∧ 8 ≤ k ∧ k < 12 ∧ (s.slot k).valid = true ∧ (s.slot k).dest.getLsbD 7 = true ∧ slotSound s k = true ∧ (s.slot k).berth = c.index.setWidth 16 ∧ (s.record c.index.toNat).opened = true ∧ vaultClosed s = false ∧ recordSound s c.index.toNat = true ∧ d = mread 0 s.vault.data 0 1773) ∧
    (∃ (s : State) (c : VaultCmd), VaultFree s c) ∧
    (∃ (s : State) (readable : Bool), accepts s = true ∧ clocked s .vaultFuse = true ∧ fillPort s = none) ∧
    (∃ (s : State) (port entry ix : Nat) (rest : List (Nat × List Nat)), accepts s = true ∧ clocked s .vaultFuse = true ∧ fillPort s = some port ∧ tget [] s.vault.ports port = (entry, [ix]) :: rest ∧ entry < 4096 ∧ (s.record entry).opened = false) ∧
    (∃ (s : State) (port entry ix : Nat) (rest : List (Nat × List Nat)), accepts s = true ∧ clocked s .vaultFuse = true ∧ fillPort s = some port ∧ tget [] s.vault.ports port = (entry, [ix]) :: rest ∧ entry < 4096 ∧ (s.record entry).opened = true ∧ recordSound s entry = true) ∧
    (∃ (s : State) (port entry ix : Nat) (rest : List (Nat × List Nat)), accepts s = true ∧ clocked s .vaultFuse = true ∧ fillPort s = some port ∧ tget [] s.vault.ports port = (entry, [ix]) :: rest ∧ entry < 4096 ∧ (s.record entry).opened = true ∧ (s.record entry).unusable = false) :=
  ⟨⟨fw, vc 0 4095 0 true, by unfold VaultFree; decide +kernel⟩,
   ⟨recS fw 7, vc 0 7 0 true, by unfold VaultFree; and_intros <;> first | with_reducible exact sound_recS (by decide +kernel) | decide +kernel⟩,
   ⟨putRec fw 7 { recordInit with opened := true, rotating := true }, vc 0 7 0 true, by unfold VaultFree; decide +kernel⟩,
   ⟨putSlot (recS (onVault (fun v => { v with aux := 8 }) fw) 7) 8 { slotInit with typ := 4, dest := 0x80, valid := true, berth := 7, material := zeros 120 }, vc 2 7 0 true, 8, zeros 1773, by unfold VaultFree; and_intros <;> first | with_reducible exact sound_slotS (by decide +kernel) | with_reducible exact sound_put (by decide +kernel) | with_reducible exact sound_recBelow (by decide +kernel) | decide +kernel⟩,
   ⟨recS fw 7, vc 0 0 0 false, by unfold VaultFree; decide +kernel⟩,
   ⟨fw, true, by decide +kernel⟩,
   ⟨onVault (fun v => { v with ports := [(3, [(9, [3])])] }) fw, 3, 9, 3, [], by decide +kernel⟩,
   ⟨recS (onVault (fun v => { v with ports := [(3, [(9, [3])])] }) fw) 9, 3, 9, 3, [], by and_intros <;> first | with_reducible exact sound_recS (by decide +kernel) | decide +kernel⟩,
   ⟨recS (onVault (fun v => { v with ports := [(3, [(9, [3])])] }) fw) 9, 3, 9, 3, [], by decide +kernel⟩⟩

theorem witness_LinkAgreeSteps :
    (∃ (s : State) (c : VaultCmd) (k : Nat), VaultFree s c ∧ c.space = false ∧ c.index.toNat = k ∧ 16 ≤ k ∧ k < 64 ∧ (s.slot k).valid = true ∧ slotSound s k = true ∧ s.vault.aux = 0 ∧ s.vault.drbgOk = true) ∧
    (∃ (s : State) (c : VaultCmd) (k : Nat), VaultFree s c ∧ c.space = false ∧ c.index.toNat = k ∧ 16 ≤ k ∧ k < 64 ∧ (s.slot k).valid = true ∧ slotSound s k = true ∧ s.vault.aux = 0 ∧ allZero (linkSeed (s.slot k).material) = false ∧ s.vault.drbgOk = true) ∧
    (∃ (s : State) (c : VaultCmd) (k : Nat), VaultFree s c ∧ c.space = false ∧ c.index.toNat = k ∧ 16 ≤ k ∧ k < 64 ∧ (s.slot k).valid = true ∧ slotSound s k = true ∧ s.vault.aux = 0 ∧ (s.slot k).material.length = 312) ∧
    (∃ (s : State) (c : VaultCmd) (k : Nat), VaultFree s c ∧ c.space = false ∧ c.index.toNat = k ∧ 16 ≤ k ∧ k < 64 ∧ (s.slot k).valid = true ∧ slotSound s k = true ∧ s.vault.aux = 0 ∧ allZero (linkSeed (s.slot k).material) = true ∧ (linkCtx s k).ecdh ≠ [] ∧ s.vault.drbgOk = true) ∧
    (∃ (s : State) (c : VaultCmd), VaultFree s c ∧ c.space = false ∧ s.vault.aux = 9) :=
  ⟨⟨slotS fw 16 5 0x20 (zeros 312), vc 0 16 0 false, 16, by unfold VaultFree; and_intros <;> first | with_reducible exact sound_slotS (by decide +kernel) | decide +kernel⟩,
   ⟨slotS fw 63 5 0x20 (1 :: zeros 311), vc 0 63 0 false, 63, by unfold VaultFree; and_intros <;> first | with_reducible exact sound_slotS (by decide +kernel) | decide +kernel⟩,
   ⟨slotS fw 16 5 0x20 (zeros 312), vc 0 16 0 false, 16, by unfold VaultFree; and_intros <;> first | with_reducible exact sound_slotS (by decide +kernel) | decide +kernel⟩,
   ⟨slotS (onVault (fun v => { v with links := [(16, { ecdh := [1], sid := [], jobId := [], gen := 0, maintGen := 0 })] }) fw) 16 5 0x20 (zeros 312), vc 0 16 0 false, 16, by unfold VaultFree; and_intros <;> first | with_reducible exact sound_slotS (by decide +kernel) | decide +kernel⟩,
   ⟨onVault (fun v => { v with aux := 9 }) fw, vc 0 16 0 false, by unfold VaultFree; decide +kernel⟩⟩

theorem witness_CryptoEngines :
    (∃ (s : State) (ks : BitVec 6), CryptoFree s) ∧
    (∃ (s : State) (ks : BitVec 6), CryptoFree s) ∧
    (∃ (s : State) (ks : BitVec 6), CryptoFree s ∧ KeyReady s ks 9) ∧
    (∃ (s : State) (ks : BitVec 6) (m : Bytes), CryptoFree s ∧ KeyReady s ks 9 ∧ m = cryptoInput s ∧ 16 + leAt m 12 4 ≤ m.length) ∧
    (∃ (s : State) (ks : BitVec 6) (m aad c tag : Bytes), CryptoFree s ∧ KeyReady s ks 9 ∧ m = cryptoInput s ∧ tag.length = 16 ∧ aad.length < 2 ^ 32 ∧ m = slice m 0 12 ++ toLe 4 aad.length ++ aad ++ c ++ tag) ∧
    (∃ (s : State) (ks : BitVec 6), CryptoFree s ∧ KeyReady s ks 6 ∧ s.crypto.len = 48) ∧
    (∃ (s : State) (ks : BitVec 6), CryptoFree s ∧ s.crypto.len.toNat = 7460) ∧
    (∃ (s : State) (ks : BitVec 6), CryptoFree s ∧ s.vault.drbgOk = true) ∧
    (∃ (s : State) (ks : BitVec 6), CryptoFree s ∧ s.vault.drbgOk = false) ∧
    (∃ (s : State) (ks : BitVec 6), commanded s = true ∧ s.crypto.busy = true) ∧
    (∃ (s : State) (ks : BitVec 6) (op : BitVec 4), commanded s = true ∧ s.crypto.busy = false ∧ (op = 0 ∨ 9 ≤ op.toNat)) ∧
    (∃ (s : State) (e : Byte) (p : Bool) (out : Bytes), accepts s = true ∧ s.crypto.result = some (e, p, out)) :=
  ⟨⟨cr, 2, by unfold CryptoFree; decide +kernel⟩,
   ⟨cr, 2, by unfold CryptoFree; decide +kernel⟩,
   ⟨slotS (onCrypto (fun c => { c with len := 32 }) fw) 2 3 0x7FF (zeros 32), 2, by unfold KeyReady CryptoFree; and_intros <;> first | with_reducible exact sound_slotS (by decide +kernel) | decide +kernel⟩,
   ⟨slotS (onCrypto (fun c => { c with len := 32 }) fw) 2 3 0x7FF (zeros 32), 2, zeros 32, by unfold KeyReady CryptoFree; and_intros <;> first | with_reducible exact sound_slotS (by decide +kernel) | decide +kernel⟩,
   ⟨slotS (onCrypto (fun c => { c with len := 32 }) fw) 2 3 0x7FF (zeros 32), 2, zeros 32, [], [], zeros 16, by unfold KeyReady CryptoFree; and_intros <;> first | with_reducible exact sound_slotS (by decide +kernel) | decide +kernel⟩,
   ⟨slotS (onCrypto (fun c => { c with len := 48 }) fw) 2 3 0x7FF (zeros 32), 2, by unfold KeyReady CryptoFree; and_intros <;> first | with_reducible exact sound_slotS (by decide +kernel) | decide +kernel⟩,
   ⟨onCrypto (fun c => { c with len := 7460 }) cr, 2, by unfold CryptoFree; decide +kernel⟩,
   ⟨cr, 2, by unfold CryptoFree; decide +kernel⟩,
   ⟨onVault (fun v => { v with drbgOk := false }) cr, 2, by unfold CryptoFree; decide +kernel⟩,
   ⟨onCrypto (fun c => { c with busy := true }) cr, 2, by decide +kernel⟩,
   ⟨cr, 2, 15, by decide +kernel⟩,
   ⟨onCrypto (fun c => { c with result := some (0, true, []) }) cr, 0, true, [], by decide +kernel⟩⟩

theorem witness_EntropyEvents :
    (∃ (s : State), accepts s = true ∧ s.pilot.phase = .firmware) ∧
    (∃ (s : State), accepts s = true ∧ s.pilot.phase = .rom ∧ s.pilot.policyDone = true) ∧
    (∃ (s : State), accepts s = true ∧ s.pilot.phase = .firmware ∧ s.pilot.entropyOk = true ∧ s.lc.nonce.isSome = true) ∧
    (∃ (s : State), accepts s = true ∧ s.pilot.phase = .rom ∧ s.pilot.entropyOk = true ∧ s.lc.nonce.isSome = true) ∧
    (∃ (s : State), accepts s = true ∧ s.pilot.entropyOk = true ∧ s.lc.nonce = none) ∧
    (∃ (s : State), accepts s = true) :=
  ⟨⟨fw, by decide +kernel⟩,
   ⟨onPilot (fun p => { p with policyDone := true }) rom, by decide +kernel⟩,
   ⟨onLc (fun x => { x with nonce := some [] }) (onPilot (fun p => { p with entropyOk := true }) fw), by decide +kernel⟩,
   ⟨onLc (fun x => { x with nonce := some [] }) (onPilot (fun p => { p with entropyOk := true }) rom), by decide +kernel⟩,
   ⟨onPilot (fun p => { p with entropyOk := true }) fw, by decide +kernel⟩,
   ⟨fw, by decide +kernel⟩⟩

theorem witness_PrirdoSessions :
    (∃ (s : State) (vf v : Nat) (m : Bytes), PrirdoOpen s vf ∧ helloCheck s vf m = 0 ∧ prirdoVersion s (byteAt m 16) = some v ∧ byteAt m 17 = 2 ∧ (s.slot 8).valid = false ∧ vf < 4096) ∧
    (∃ (s : State) (vf : Nat) (m : Bytes), PrirdoOpen s vf ∧ touchSlot s 4 = s ∧ helloCheck s vf m ≠ 0 ∧ helloCheck s vf m ≠ 2) ∧
    (∃ (s : State) (vf : Nat) (m : Bytes), PrirdoOpen s vf ∧ touchSlot s 4 = s ∧ helloCheck s vf m = 2) ∧
    (∃ (s : State) (vf i : Nat) (x : Session) (m : Bytes), PrirdoOpen s vf ∧ findSession s vf m = some (i, x) ∧ 16 ≤ m.length ∧ sessionHeader x vf m 3 = true ∧ releaseOk x m = true ∧ (s.berth vf).state = .running ∧ (s.berth vf).binding = [] ∧ vf < 4096) ∧
    (∃ (s : State) (vf : Nat) (m : Bytes), PrirdoOpen s vf ∧ 16 ≤ m.length ∧ findSession s vf m = none) ∧
    (∃ (s : State) (vf i : Nat) (x : Session) (m : Bytes), PrirdoOpen s vf ∧ 16 ≤ m.length ∧ findSession s vf m = some (i, x) ∧ sessionHeader x vf m 6 = true) ∧
    (∃ (s : State) (vf : Nat) (m : Bytes), PrirdoOpen s vf ∧ 16 ≤ m.length ∧ findSession s vf m = none) ∧
    (∃ (s : State) (vf : Nat) (m : Bytes), PrirdoOpen s vf ∧ byteAt m 5 = 0x07) ∧
    (∃ (s : State) (i : Nat), pilotUp s = true ∧ i < 4 ∧ (tfind s.sessions i).isSome = true) :=
  ⟨⟨slotS (onPilot (fun p => { p with enrolled := (true, false) }) (recS vfUp 1)) 4 1 0x40 (zeros 120), 1, 2, helloMsg, by unfold PrirdoOpen; and_intros <;> first | with_reducible exact hello_slotS (by decide +kernel) (by decide +kernel) | decide +kernel⟩,
   ⟨vfUp, 1, helloMsg, by unfold PrirdoOpen; decide +kernel⟩,
   ⟨slotS (onPilot (fun p => { p with enrolled := (true, false) }) (recS vfUp 1)) 4 1 0x40 (zeros 120), 1, helloMax, by unfold PrirdoOpen; and_intros <;> first | with_reducible exact touch_slotS (by decide +kernel) | with_reducible exact hello_slotS (by decide +kernel) (by decide +kernel) | decide +kernel⟩,
   ⟨vfSess, 1, 0, sess1, relMsg, by unfold PrirdoOpen; decide +kernel⟩,
   ⟨vfUp, 1, relMsg, by unfold PrirdoOpen; decide +kernel⟩,
   ⟨vfSess, 1, 0, sess1, prHead 6 0, by unfold PrirdoOpen; decide +kernel⟩,
   ⟨vfUp, 1, prHead 6 0, by unfold PrirdoOpen; decide +kernel⟩,
   ⟨vfUp, 1, prHead 7 0, by unfold PrirdoOpen; decide +kernel⟩,
   ⟨vfSess, 0, by decide +kernel⟩⟩

theorem witness_Enrolment :
    (∃ (s : State), pilotUp s = true ∧ slotServes s 1 6 = true) ∧
    (∃ (s : State), pilotUp s = true ∧ (s.slot 1).valid = false) ∧
    (∃ (s : State) (body root cert : Bytes), pilotUp s = true ∧ installCerts body = some (root, cert) ∧ leAt body 0 1 = 0 ∧ settingsClosed s = false ∧ settingsHeld s = false ∧ s.pilot.settings.held = none) ∧
    (∃ (a b c d rest : Bytes), a.length < 2 ^ 32 ∧ b.length < 2 ^ 32 ∧ c.length < 2 ^ 32 ∧ d.length < 2 ^ 32) ∧
    (∃ (s : State) (body : Bytes), pilotUp s = true ∧ settingsClosed s = false ∧ installCerts body = none) ∧
    (∃ (s : State) (body : Bytes), pilotUp s = true ∧ settingsClosed s = true) ∧
    (∃ (s : State), pilotUp s = true ∧ settingsDue s = true) ∧
    (∃ (s : State), pilotUp s = true ∧ settingsDue s = true ∧ s.pilot.settings.migrating = true ∧ 1 ≤ s.pilot.settings.writeFails) :=
  ⟨⟨slotS fw 1 2 0x40 (zeros 80), by and_intros <;> first | with_reducible exact serves_slotS (by decide +kernel) | with_reducible exact serves_below (by decide +kernel) | decide +kernel⟩,
   ⟨fw, by decide +kernel⟩,
   ⟨slotS fw 5 3 0x200 (zeros 32), zeros 12, [], [], by and_intros <;> first | with_reducible exact closed_slotS (by decide +kernel) (by decide +kernel) | decide +kernel⟩,
   ⟨[1], [2], [], [3], [4], by decide +kernel⟩,
   ⟨slotS fw 5 3 0x200 (zeros 32), [1], by and_intros <;> first | with_reducible exact closed_slotS (by decide +kernel) (by decide +kernel) | decide +kernel⟩,
   ⟨fw, [], by decide +kernel⟩,
   ⟨settled, by and_intros <;> first | with_reducible exact due_slotS (by decide +kernel) (by decide +kernel) | decide +kernel⟩,
   ⟨slotS (onPilot (fun p => { p with settings := { p.settings with migrating := true, writeFails := 1 } }) fw) 5 3 0x200 (zeros 32), by and_intros <;> first | with_reducible exact due_slotS (by decide +kernel) (by decide +kernel) | decide +kernel⟩⟩

theorem witness_UpdateStates :
    (∃ (s : State), pilotUp s = true) ∧
    (∃ (s : State) (m : Bytes), pilotUp s = true ∧ s.update.state = .idle) ∧
    (∃ (s : State) (ok : Bool), pilotUp s = true ∧ s.jrn.buffer = [] ∧ s.update.state = .erasing) ∧
    (∃ (s : State) (body : Bytes), pilotUp s = true ∧ s.jrn.buffer = [] ∧ s.update.state = .staging) ∧
    (∃ (s : State), pilotUp s = true ∧ s.update.state = .staging) ∧
    (∃ (s : State), pilotUp s = true ∧ s.jrn.buffer = [] ∧ s.update.state = .validating) ∧
    (∃ (s : State), pilotUp s = true ∧ s.update.state = .staging) ∧
    (∃ (s : State), pilotUp s = true ∧ s.jrn.buffer = [] ∧ s.update.state = .trial) ∧
    (∃ (s : State), pilotUp s = true ∧ s.update.state = .trial ∧ s.pilot.ready = true) ∧
    (∃ (s : State), pilotUp s = true ∧ s.jrn.buffer = []) ∧
    (∃ (s : State), pilotUp s = true ∧ s.jrn.buffer = [] ∧ s.update.state = .burning) ∧
    (∃ (s : State) (ok : Bool), pilotUp s = true ∧ s.jrn.buffer = [] ∧ s.update.state = .copying) :=
  ⟨⟨fw, by decide +kernel⟩,
   ⟨upd .idle, [], by decide +kernel⟩,
   ⟨upd .erasing, true, by decide +kernel⟩,
   ⟨upd .staging, zeros 8, by decide +kernel⟩,
   ⟨upd .staging, by decide +kernel⟩,
   ⟨upd .validating, by decide +kernel⟩,
   ⟨upd .staging, by decide +kernel⟩,
   ⟨upd .trial, by decide +kernel⟩,
   ⟨upd .trial, by decide +kernel⟩,
   ⟨fw, by decide +kernel⟩,
   ⟨upd .burning, by decide +kernel⟩,
   ⟨upd .copying, false, by decide +kernel⟩⟩

theorem witness_BerthPreparation :
    (∃ (s : State) (body : Bytes) (b : Nat), pilotUp s = true ∧ s.pilot.ready = true ∧ body.length = 2 ∧ leAt body 0 2 = b ∧ b < 4096) ∧
    (∃ (s : State) (body : Bytes) (b : Nat), BerthCmd s body 5 b ∧ leAt body 4 1 ≤ 8 ∧ vfExists s b = true ∧ (s.berth b).state = .free ∧ vaultClosed s = false ∧ runFree s (leAt body 2 2) (leAt body 4 1) = true ∧ s.vault.drbgOk = true) ∧
    (∃ (s : State) (body : Bytes) (b : Nat), BerthCmd s body 5 b ∧ leAt body 4 1 ≤ 8 ∧ vfExists s b = true ∧ (s.berth b).state ≠ .free) ∧
    (∃ (s : State) (body : Bytes) (b tier slot : Nat) (w : Window), BerthCmd s body 14 b ∧ (s.berth b).state = .assigned ∧ tier = leAt body 2 1 ∧ (tier = 1 ∨ tier = 2) ∧ slot = leAt body 3 1 ∧ slot < 16 ∧ w.unit = leAt body 4 1 ∧ w.unit < (if tier = 1 then 8 else 16) ∧ leAt body 5 1 ≤ 1 ∧ w.readOnly = (leAt body 5 1 == 1) ∧ w.base = leAt body 6 4 ∧ w.size = leAt body 10 4) ∧
    (∃ (s : State) (body : Bytes) (b : Nat), BerthCmd s body 4 b ∧ (s.berth b).state = .assigned ∧ leAt body 2 2 < 4096) ∧
    (∃ (s : State) (body : Bytes) (b : Nat), BerthCmd s body 4 b ∧ rinsable (s.berth b) = true ∧ leAt body 2 1 < (s.berth b).ferryCount) ∧
    (∃ (s : State) (body : Bytes) (b : Nat), pilotUp s = true ∧ s.pilot.ready = true ∧ leAt body 0 2 = b ∧ b < 4096 ∧ (s.berth b).commit.isSome = true) :=
  ⟨⟨fw, [5, 0], 5, by decide +kernel⟩,
   ⟨onHost (fun h => { h with vfEnable := true, numVfs := 8 }) fw, [5, 0, 8, 0, 8], 5, by unfold BerthCmd; decide +kernel⟩,
   ⟨vfUp, [1, 0, 0, 0, 0], 1, by unfold BerthCmd; decide +kernel⟩,
   ⟨berthS fw 5 (fun y => { y with state := .assigned }), [5, 0, 2, 15, 15, 1, 0, 0, 0, 0, 1, 0, 0, 0], 5, 2, 15, { unit := 15, readOnly := true, base := 0, size := 1 }, by unfold BerthCmd; decide +kernel⟩,
   ⟨berthS fw 5 (fun y => { y with state := .assigned }), [5, 0, 0xFF, 0x0F], 5, by unfold BerthCmd; decide +kernel⟩,
   ⟨berthS fw 5 (fun y => { y with state := .running, ferryCount := 8 }), [5, 0, 7, 3], 5, by unfold BerthCmd; decide +kernel⟩,
   ⟨berthS fw 5 (fun y => { y with commit := some .wiping }), [5, 0], 5, by decide +kernel⟩⟩

theorem witness_BerthCommitAndWipe :
    (∃ (s : State) (body : Bytes) (b : Nat), BerthCmd s body 2 b ∧ (s.berth b).state = .assigned ∧ commitCheck s b = 0 ∧ droppedSites s (s.berth b) = [] ∧ commitZero s (s.berth b) ≠ [] ∧ commitUninit (s.berth b) = []) ∧
    (∃ (s : State) (body : Bytes) (b : Nat), BerthCmd s body 2 b ∧ (s.berth b).state = .assigned ∧ commitCheck s b ≠ 0) ∧
    (∃ (s : State) (b : Nat), pilotUp s = true ∧ (s.berth b).commit = some .zeroing ∧ (s.berth b).toZero = [] ∧ (s.berth b).zeroing = [] ∧ everyLane s ≠ []) ∧
    (∃ (s : State) (body : Bytes) (b : Nat), BerthCmd s body 3 b ∧ rinsable (s.berth b) = true ∧ (s.berth b).t2.isEmpty = false ∧ (s.record b).opened = true ∧ (s.record b).rotating = false ∧ recordSound s b = true ∧ s.vault.drbgOk = true) ∧
    (∃ (s : State) (body : Bytes) (b : Nat), BerthCmd s body 2 b ∧ (s.berth b).state = .suspended) ∧
    (∃ (s : State) (k : Nat) (m : Bytes) (signed : Bool), pilotUp s = true ∧ (s.site k).wiping = true ∧ (s.site k).step = .boarded ∧ (s.site k).version = 2 ∧ s.berths = []) ∧
    (∃ (s : State) (k : Nat) (m : Bytes), pilotUp s = true ∧ (s.site k).wiping = true ∧ (s.site k).step = .boarded ∧ (s.site k).version = 3) ∧
    (∃ (s : State) (k : Nat) (m : Bytes), pilotUp s = true ∧ (s.site k).wiping = true ∧ (s.site k).version = 3) ∧
    (∃ (s : State) (k : Nat), pilotUp s = true ∧ (s.site k).wiping = true) :=
  ⟨⟨berthS fw 5 (fun y => { y with state := .assigned, t1Staged := [(0, win0)] }), [5, 0], 5, by unfold BerthCmd; decide +kernel⟩,
   ⟨berthS fw 5 (fun y => { y with state := .assigned, sitesStaged := 1 }), [5, 0], 5, by unfold BerthCmd; decide +kernel⟩,
   ⟨berthS (laneS fw (.pier 0)) 5 (fun y => { y with state := .assigned, commit := some .zeroing }), 5, by decide +kernel⟩,
   ⟨recS (berthS fw 5 (fun y => { y with state := .running, t2 := [(0, win0)] })) 5, [5, 0, 9], 5, by unfold BerthCmd; and_intros <;> first | with_reducible exact sound_recS (by decide +kernel) | decide +kernel⟩,
   ⟨berthS fw 5 (fun y => { y with state := .suspended }), [5, 0], 5, by unfold BerthCmd; decide +kernel⟩,
   ⟨fw.setSite 3 { siteInit with wiping := true, step := .boarded, version := 2 }, 3, [], true, by decide +kernel⟩,
   ⟨fw.setSite 11 { siteInit with wiping := true, step := .boarded, version := 3 }, 11, [1], by decide +kernel⟩,
   ⟨fw.setSite 3 { siteInit with wiping := true, step := .boarded, version := 3 }, 3, [], by decide +kernel⟩,
   ⟨fw.setSite 0 { siteInit with wiping := true }, 0, by decide +kernel⟩⟩

theorem witness_RinseSteps :
    (∃ (s : State) (body : Bytes) (b : Nat), BerthCmd s body 2 b ∧ rinsable (s.berth b) = true ∧ openJob (s.bp b) = none ∧ bcastRuns s (.tables b) = false) ∧
    (∃ (s : State) (body : Bytes) (b : Nat), BerthCmd s body 2 b ∧ rinsable (s.berth b) = true ∧ openJob (s.bp b) = none ∧ bcastRuns s (.tables b) = true) ∧
    (∃ (s : State) (body : Bytes) (b : Nat), BerthCmd s body 2 b ∧ (s.berth b).state = .free ∧ (s.berth b).level = .memoryOnly ∧ bcastRuns s (.tables b) = false) ∧
    (∃ (s : State) (body : Bytes) (b : Nat), BerthCmd s body 2 b ∧ (s.berth b).state = .rinsing) ∧
    (∃ (s : State) (b : Nat), pilotUp s = true ∧ (s.berth b).state = .rinsing ∧ (s.berth b).step = 3 ∧ (s.berth b).sequencer = false) ∧
    (∃ (s : State) (b : Nat), pilotUp s = true ∧ (s.berth b).state = .rinsing ∧ (s.berth b).step = 6 ∧ (s.berth b).sequencer = false) ∧
    (∃ (s : State) (b : Nat), accepts s = true ∧ s.pilot.phase ≠ .halted ∧ (s.berth b).state = .rinsing ∧ (s.berth b).step = 0 ∧ (s.berth b).sequencer = false ∧ (s.berth b).recorded5 = false) :=
  ⟨⟨berthS fw 5 (fun y => { y with state := .running }), [5, 0], 5, by unfold BerthCmd; decide +kernel⟩,
   ⟨onLanes (fun l => { l with bcasts := [bc (some (.tables 5)) [3]] }) (berthS fw 5 (fun y => { y with state := .running })), [5, 0], 5, by unfold BerthCmd; decide +kernel⟩,
   ⟨berthS fw 5 (fun y => { y with state := .free, level := .memoryOnly }), [5, 0], 5, by unfold BerthCmd; decide +kernel⟩,
   ⟨berthS fw 5 (fun y => { y with state := .rinsing }), [5, 0], 5, by unfold BerthCmd; decide +kernel⟩,
   ⟨berthS fw 5 (fun y => { y with state := .rinsing, step := 3 }), 5, by decide +kernel⟩,
   ⟨berthS fw 5 (fun y => { y with state := .rinsing, step := 6 }), 5, by decide +kernel⟩,
   ⟨berthS fw 5 (fun y => { y with state := .rinsing }), 5, by decide +kernel⟩⟩

theorem witness_PierLines :
    (∃ (s : State) (n home b : Nat) (k : KeyFill) (l : FabricLine), LineBound s n home b k l ∧ l.op = .read ∧ (findWindow (s.pier n) n home l.line b).isSome = true ∧ lineBusy (s.pier n) l.line = false) ∧
    (∃ (s : State) (n home b : Nat) (k : KeyFill) (l : FabricLine), LineBound s n home b k l ∧ l.op = .read ∧ findWindow (s.pier n) n home l.line b = none ∧ (s.pier n).refuseAlarm = false) ∧
    (∃ (s : State) (n home b : Nat) (k : KeyFill) (l : FabricLine), LineBound s n home b k l ∧ l.op = .write ∧ findWindow (s.pier n) n home l.line b = some true ∧ (s.pier n).refuseAlarm = false) ∧
    (∃ (s : State) (n home b : Nat) (l : FabricLine), accepts s = true ∧ n < 136 ∧ homeOf s n = some home ∧ laneUp s n = true ∧ l.init < 12 ∧ (s.pier n).missQ = [] ∧ (s.pier n).park = false ∧ tfind (s.pier n).bind l.init = some b ∧ keyEntry (s.pier n) b = none) ∧
    (∃ (s : State) (n : Nat) (l : FabricLine), accepts s = true ∧ 32 ≤ (s.pier n).missQ.length) ∧
    (∃ (s : State) (n home : Nat) (o : OutRead) (rest : List OutRead) (stored side : Bytes), HostOpen s ∧ (s.pier n).park = false ∧ n < 136 ∧ homeOf s n = some home ∧ (s.pier n).outs = o :: rest ∧ o.use = .toFabric ∧ o.berth = none) :=
  ⟨⟨lineS 17 false, 17, 17, 1, key0, lineR .read, by unfold LineBound; decide +kernel⟩,
   ⟨pierS (lineS 17 false) 17 (fun p => { p with win := [] }), 17, 17, 1, key0, lineR .read, by unfold LineBound; decide +kernel⟩,
   ⟨lineS 134 true, 134, 134, 1, key0, lineR .write, by unfold LineBound; decide +kernel⟩,
   ⟨pierS (lineS 17 false) 17 (fun p => { p with keys := [] }), 17, 17, 1, lineR .read, by decide +kernel⟩,
   ⟨pierS fw 3 (fun p => { p with missQ := List.replicate 32 { line := lineR .read, asked := none } }), 3, lineR .read, by decide +kernel⟩,
   ⟨pierS (laneS fw (.pier 17)) 17 (fun p => { p with outs := [outR] }), 17, 17, outR, [], zeros 64, zeros 8, by unfold HostOpen; decide +kernel⟩⟩

theorem witness_PierUpkeep :
    (∃ (s : State) (n line : Nat) (p : Bytes) (rest : List (Nat × Bytes)), HostOpen s ∧ (s.pier n).scrub = (line, p) :: rest ∧ lineBusy (s.pier n) line = false) ∧
    (∃ (s : State) (n home : Nat) (z : ZeroRun), HostOpen s ∧ n < 136 ∧ homeOf s n = some home ∧ (s.pier n).zero = some z ∧ z.pos + 1 < 1024 * z.size ∧ lineBusy (s.pier n) (Config.channelLine (home % 17) (1024 * z.base + z.pos)) = false) ∧
    (∃ (s : State) (n home mib i b : Nat) (k : KeyFill) (kk : Bytes), HostOpen s ∧ homeOf s n = some home ∧ (s.pier n).fill = some (mib, i) ∧ i + 1 < 16384 ∧ (i % 8 = 0 ∨ (metaFind (s.pier n) (16384 * mib + i)).isSome = true) ∧ fillBerth (s.pier n) home mib = some b ∧ keyEntry (s.pier n) b = some (some k) ∧ genKeys k (curGen k) = some kk) ∧
    (∃ (s : State) (n home b : Nat) (st ml : Bytes), HostOpen s ∧ 136 ≤ n ∧ n < 154 ∧ homeOf s n = some home ∧ sweepOf s home = some b ∧ (s.pier n).sweepDue = false ∧ sweepWins (s.pier n) home b = []) ∧
    (∃ (s : State) (n home : Nat), accepts s = true ∧ homeOf s n = some home ∧ (s.pier n).sweepDue = true ∧ s.vault.sweeps = []) ∧
    (∃ (s : State) (n home i : Nat) (c : Cursor) (st sd : Bytes), HostOpen s ∧ homeOf s n = some home ∧ tfind (s.pier n).cursors i = some c ∧ c.closing = true ∧ c.done = false ∧ c.size / 64 ≤ c.pos) ∧
    (∃ (s : State) (n : Nat) (seq : BitVec 16) (rest : List (BitVec 16)), accepts s = true ∧ (s.pier n).drain = seq :: rest ∧ rest.contains seq = false ∧ drained (s.pier n) = true) ∧
    (∃ (s : State) (n : Nat), commanded s = true ∧ n < 154 ∧ (s.pier n).outs = [] ∧ (s.pier n).held = [] ∧ (s.pier n).missQ = []) ∧
    (∃ (s : State) (n : Nat), commanded s = true ∧ n < 154 ∧ (s.pier n).outs ≠ []) ∧
    (∃ (s : State) (n : Nat), commanded s = true ∧ n < 154 ∧ (s.island (.pier n)).ucOk = true ∧ (s.island (.pier n)).test = .passed ∧ s.power.domUp.getLsbD (domainOf (.pier n)) = true) ∧
    (∃ (s : State) (n : Nat) (seq : BitVec 16), commanded s = true ∧ n < 154 ∧ holdsKeys s n = true) ∧
    (∃ (s : State) (n : Nat), commanded s = true ∧ n < 154 ∧ laneServes s n = true ∧ (s.pier n).zeroSize ≠ 0 ∧ (s.pier n).zero = none) ∧
    (∃ (s : State) (n m : Nat), commanded s = true ∧ 136 ≤ n ∧ n < 154 ∧ (s.pier n).fill = none) :=
  ⟨⟨pierS fw 3 (fun p => { p with scrub := [(7, zeros 64)] }), 3, 7, zeros 64, [], by unfold HostOpen; decide +kernel⟩,
   ⟨pierS fw 3 (fun p => { p with zero := some { base := 0, size := 1, pos := 1022 } }), 3, 3, { base := 0, size := 1, pos := 1022 }, by unfold HostOpen; decide +kernel⟩,
   ⟨pierS fw 136 (fun p => { p with fill := some (3, 16376), win := [(0, winE 1 false)], keys := [(1, some key0)] }), 136, 136, 3, 16376, 1, key0, zeros 64, by unfold HostOpen; decide +kernel⟩,
   ⟨onVault (fun v => { v with sweeps := [(1, [136])] }) fw, 136, 136, 1, [], [], by unfold HostOpen; decide +kernel⟩,
   ⟨pierS fw 138 (fun p => { p with sweepDue := true }), 138, 138, by decide +kernel⟩,
   ⟨pierS fw 3 (fun p => { p with cursors := [(0, cur0)] }), 3, 3, 0, cur0, [], [], by unfold HostOpen; decide +kernel⟩,
   ⟨pierS fw 3 (fun p => { p with drain := [9] }), 3, 9, [], by decide +kernel⟩,
   ⟨fw, 3, by decide +kernel⟩,
   ⟨pierS fw 3 (fun p => { p with outs := [outR] }), 3, by decide +kernel⟩,
   ⟨laneS fw (.pier 135), 135, by decide +kernel⟩,
   ⟨fw, 0, 9, by decide +kernel⟩,
   ⟨pierS (laneS fw (.pier 0)) 0 (fun p => { p with zeroSize := 4 }), 0, by decide +kernel⟩,
   ⟨fw, 136, 5, by decide +kernel⟩⟩

theorem witness_LaneHandshakes :
    (∃ (s : State) (n : Nat) (seq : BitVec 16), accepts s = true ∧ n < 154 ∧ holdsKeys s n = true ∧ (s.island (.pier n)).service ≠ .spotTest ∧ tget [] s.lanes.cmds n = [.commit seq] ∧ (s.pier n).seqSeen = false) ∧
    (∃ (s : State) (n b : Nat) (f : KeyFill), accepts s = true ∧ n < 154 ∧ holdsKeys s n = true ∧ tget [] s.lanes.cmds n = [] ∧ tget [] s.vault.channels n = [.fill b (some f)] ∧ (s.pier n).missQ = [] ∧ (s.pier n).park = false) ∧
    (∃ (s : State) (n b : Nat) (e : Word), accepts s = true ∧ n < 154 ∧ holdsKeys s n = true ∧ tget [] s.vault.channels n = [.invalidate b e] ∧ pinned (s.pier n) = []) ∧
    (∃ (s : State) (b : Nat), pilotUp s = true ∧ (s.berth b).commit = some .broadcast ∧ bcastRuns s (.tables b) = false ∧ everyLane s ≠ []) ∧
    (∃ (s : State) (n j : Nat) (seq : BitVec 16) (k : Option BroadcastKind), pilotUp s = true ∧ n < 154 ∧ j ≠ n ∧ s.lanes.acks = [(n, seq)] ∧ s.lanes.bcasts = [{ kind := k, seq := seq, waiting := [n, j] }]) ∧
    (∃ (s : State) (n b : Nat) (seq : BitVec 16), pilotUp s = true ∧ n < 154 ∧ s.lanes.acks = [(n, seq)] ∧ s.lanes.bcasts = [{ kind := some (.tables b), seq := seq, waiting := [n] }] ∧ (s.berth b).commit = some .broadcast ∧ (s.berth b).replyDue = true ∧ (s.berth b).gateDue = false) ∧
    (∃ (s : State) (n : Nat) (seq : BitVec 16), accepts s = true ∧ n < 154 ∧ holdsKeys s n = true ∧ tget [] s.lanes.cmds n = [.commit seq] ∧ (s.pier n).seqSeen = true ∧ (s.pier n).lastSeq = seq ∧ (s.pier n).drain = [] ∧ (s.island (.pier n)).service ≠ .spotTest) :=
  ⟨⟨onLanes (fun l => { l with cmds := [(153, [.commit 9])] }) fw, 153, 9, by decide +kernel⟩,
   ⟨onVault (fun v => { v with channels := [(3, [.fill 1 (some key0)])] }) fw, 3, 1, key0, by decide +kernel⟩,
   ⟨onVault (fun v => { v with channels := [(3, [.invalidate 1 5])] }) (pierS fw 3 (fun p => { p with keys := [(1, some key0)] })), 3, 1, 5, by decide +kernel⟩,
   ⟨berthS (laneS fw (.pier 0)) 5 (fun y => { y with commit := some .broadcast }), 5, by decide +kernel⟩,
   ⟨onLanes (fun l => { l with acks := [(3, 9)], bcasts := [bc none [3, 4]] }) fw, 3, 4, 9, none, by decide +kernel⟩,
   ⟨onLanes (fun l => { l with acks := [(3, 9)], bcasts := [bc (some (.tables 5)) [3]] }) (berthS fw 5 (fun y => { y with commit := some .broadcast, replyDue := true })), 3, 5, 9, by decide +kernel⟩,
   ⟨onLanes (fun l => { l with cmds := [(153, [.commit 9])] }) (pierS fw 153 (fun p => { p with seqSeen := true, lastSeq := 9 })), 153, 9, by decide +kernel⟩⟩

theorem witness_DarnAndSpotTests :
    (∃ (s : State) (c : DarnCause), SpareReady s) ∧
    (∃ (s : State), SpareReady s ∧ s.lanes.bcasts.any (fun x => x.waiting.contains 0) = true) ∧
    (∃ (s : State) (c : DarnCause), SpareReady s) ∧
    (∃ (s : State), SpareReady s ∧ (s.pgroup 0).period ≠ 0 ∧ (s.pgroup 0).hold = false ∧ (s.pgroup 0).next = 0 ∧ groupWaits s (.piers 0) = false ∧ laneUp s 0 = true ∧ laneUp s 16 = true) ∧
    (∃ (s : State), Quiet s ∧ (s.pgroup 0).test = some (0, some 16) ∧ s.cover = [(16, 0)] ∧ tget [] s.lanes.cmds 16 = [] ∧ tget [] s.vault.channels 16 = []) ∧
    (∃ (s : State), Quiet s ∧ (s.pgroup 0).test = some (0, some 16) ∧ s.cover = [(16, 0)]) :=
  ⟨⟨ready2, .comparator, by unfold SpareReady Quiet; decide +kernel⟩,
   ⟨onLanes (fun l => { l with bcasts := [bc none [0]] }) ready2, by unfold SpareReady Quiet; decide +kernel⟩,
   ⟨ready2, .comparator, by unfold SpareReady Quiet; decide +kernel⟩,
   ⟨ready2, by unfold SpareReady Quiet; decide +kernel⟩,
   ⟨sp16, by unfold Quiet; decide +kernel⟩,
   ⟨sp16, by unfold Quiet; decide +kernel⟩⟩

theorem witness_LinkFrames :
    (∃ (c : (Nat → GwFrame → Instr) × Byte × Nat) (s : State) (lane n : Nat) (f : GwFrame), c ∈ linkFrames ∧ accepts s = true ∧ laneLink s lane = some n ∧ (((s.link n).link = .down ∨ (s.link n).link = .closed))) ∧
    (∃ (c : (Nat → GwFrame → Instr) × Byte × Nat) (s : State) (lane n : Nat) (f : GwFrame), c ∈ linkFrames ∧ accepts s = true ∧ laneLink s lane = some n ∧ ((s.link n).link = .opening ∨ (s.link n).link = .attested) ∧ (s.link n).refill = true) ∧
    (∃ (c : (Nat → GwFrame → Instr) × Byte × Nat) (s : State) (lane n : Nat) (f : GwFrame), c ∈ linkFrames ∧ AtLink s lane n ∧ (s.link n).rxq = [] ∧ (s.link n).link = .opening ∧ c.2.2 ≠ 0 ∧ c.2.1 ≠ 0x23) ∧
    (∃ (c : (Nat → GwFrame → Instr) × Byte × Nat) (s : State) (lane n : Nat) (f : GwFrame), c ∈ linkFrames ∧ AtLink s lane n ∧ (s.link n).rxq = [] ∧ (s.link n).link = .attested ∧ c.2.2 = 2 ∧ (s.link n).job ≠ .keyed) ∧
    (∃ (c : (Nat → GwFrame → Instr) × Byte × Nat) (s : State) (lane n : Nat) (f : GwFrame), c ∈ linkFrames ∧ AtLink s lane n ∧ (s.link n).rxq = [] ∧ classIn (s.link n) c.2.1 c.2.2 = true ∧ (s.link n).genLinkRx = (s.link n).genLink ∧ openFrame (s.link n) c.2.1 f c.2.2 = .ctrFail) ∧
    (∃ (c : (Nat → GwFrame → Instr) × Byte × Nat) (s : State) (lane n : Nat) (f : GwFrame), c ∈ linkFrames ∧ AtLink s lane n ∧ (s.link n).rxq = [] ∧ classIn (s.link n) c.2.1 c.2.2 = true ∧ (s.link n).genLinkRx = (s.link n).genLink ∧ openFrame (s.link n) c.2.1 f c.2.2 = .tagFail) ∧
    (∃ (c : (Nat → GwFrame → Instr) × Byte × Nat) (s : State) (lane n : Nat) (f : GwFrame), c ∈ linkFrames ∧ AtLink s lane n ∧ (s.link n).rxq = [] ∧ classIn (s.link n) c.2.1 c.2.2 = true ∧ (s.link n).genLinkRx = (s.link n).genLink ∧ openFrame (s.link n) c.2.1 f c.2.2 = .discard) ∧
    (∃ (x : GwLink) (kind : Byte) (f : GwFrame), f.ctrLo ≠ BitVec.ofNat 32 (ctr x 1)) ∧
    (∃ (x : GwLink) (kind : Byte) (f : GwFrame), f.flags.getLsbD 3 ≠ decide (x.genLinkRx % 2 = 1)) ∧
    (∃ (s : State) (lane n : Nat) (f : GwFrame), AtLink s lane n ∧ (s.link n).rxq = [] ∧ kindClass f.kind = none ∧ ((s.link n).link = .opening ∨ (s.link n).link = .attested)) ∧
    (∃ (c : (Nat → GwFrame → Instr) × Byte × Nat) (s : State) (lane n : Nat) (f : GwFrame) (p : Bytes), c ∈ linkFrames ∧ Arrives s lane n c.2.1 c.2.2 f p ∧ pilotUp s = false ∧ c.2.1 ≠ 0x01 ∧ c.2.1 ≠ 0x10 ∧ ((c.2.2 = 0 → (s.link n).link = .opening))) ∧
    (∃ (c : (Nat → GwFrame → Instr) × Byte × Nat) (s : State) (lane n : Nat) (f : GwFrame) (p : Bytes), c ∈ linkFrames ∧ Arrives s lane n c.2.1 c.2.2 f p ∧ pilotUp s = true ∧ f.flags.getLsbD 4 = true ∧ c.2.1 ≠ 0x01 ∧ c.2.1 ≠ 0x10 ∧ ((c.2.2 = 0 → (s.link n).link = .opening))) ∧
    (∃ (c : (Nat → GwFrame → Instr) × Byte × Nat) (s : State) (lane n : Nat) (f : GwFrame) (p : Bytes), c ∈ linkFrames ∧ Arrives s lane n c.2.1 c.2.2 f p ∧ c.2.2 = 0 ∧ (s.link n).link = .attested) ∧
    (∃ (s : State) (lane n : Nat) (f : GwFrame) (p : Bytes), Arrives s lane n 0x10 1 f p) ∧
    (∃ (s : State) (lane n : Nat) (f : GwFrame) (p : Bytes), Arrives s lane n 0x01 2 f p ∧ f.flags.toNat % 8 < (s.link n).chCount) ∧
    (∃ (s : State) (lane n : Nat) (f : GwFrame) (p : Bytes), Arrives s lane n 0x01 2 f p ∧ ¬f.flags.toNat % 8 < (s.link n).chCount) :=
  ⟨⟨(.keepalive, 0x10, 1), lane0 rom (lk .closed .none), 0, 0, badFrame, by and_intros <;> first | (with_reducible (show _ ∈ linkFrames); simp [linkFrames]) | decide +kernel⟩,
   ⟨(.payload, 0x01, 2), lane0 rom { lk .attested .keyed with refill := true }, 0, 0, badFrame, by and_intros <;> first | (with_reducible (show _ ∈ linkFrames); simp [linkFrames]) | decide +kernel⟩,
   ⟨(.jobOffer, 0x12, 1), lane0 rom (lk .opening .none), 0, 0, badFrame, by unfold AtLink; and_intros <;> first | (with_reducible (show _ ∈ linkFrames); simp [linkFrames]) | decide +kernel⟩,
   ⟨(.payload, 0x01, 2), lane0 rom (lk .attested .agreeing), 0, 0, badFrame, by unfold AtLink; and_intros <;> first | (with_reducible (show _ ∈ linkFrames); simp [linkFrames]) | decide +kernel⟩,
   ⟨(.payload, 0x01, 2), lane0 rom (lk .attested .keyed), 0, 0, { badFrame with ctrLo := 5 }, by unfold AtLink; and_intros <;> first | (with_reducible (show _ ∈ linkFrames); simp [linkFrames]) | decide +kernel⟩,
   ⟨(.route, 0x1B, 1), lane0 rom { lk .attested .none with key := none }, 0, 0, badFrame, by unfold AtLink; and_intros <;> first | (with_reducible (show _ ∈ linkFrames); simp [linkFrames]) | decide +kernel⟩,
   ⟨(.linkHello, 0x20, 0), lane0 rom (lk .opening .none), 0, 0, badFrame, by unfold AtLink; and_intros <;> first | (with_reducible (show _ ∈ linkFrames); simp [linkFrames]) | decide +kernel⟩,
   ⟨gwInit, 0x01, { badFrame with ctrLo := 1 }, by decide +kernel⟩,
   ⟨gwInit, 0x11, { badFrame with flags := 8 }, by decide +kernel⟩,
   ⟨lane0 rom (lk .opening .none), 0, 0, { badFrame with kind := 0x77 }, by unfold AtLink; and_intros <;> first | decide +kernel⟩,
   ⟨(.route, 0x1B, 1), lane0 rom (lk .attested .none), 0, 0, fr (lk .attested .none) 0x1B 1 [], plain (lk .attested .none) 0x1B 1 [], by unfold Arrives AtLink; and_intros <;> first | (with_reducible (show _ ∈ linkFrames); simp [linkFrames]) | with_reducible exact opens (by decide +kernel) (by decide +kernel) | decide +kernel⟩,
   ⟨(.linkKex, 0x21, 0), lane0 fw (lk .opening .none), 0, 0, frameFor (lk .opening .none) 0x21 16 0 [1] [], plainOf (lk .opening .none) 0x21 (frameFor (lk .opening .none) 0x21 16 0 [1] []) 0, by unfold Arrives AtLink; and_intros <;> first | (with_reducible (show _ ∈ linkFrames); simp [linkFrames]) | with_reducible exact opens (by decide +kernel) (by decide +kernel) | decide +kernel⟩,
   ⟨(.linkError, 0x24, 0), lane0 rom (lk .attested .none), 0, 0, fr (lk .attested .none) 0x24 0 [], plain (lk .attested .none) 0x24 0 [], by unfold Arrives AtLink; and_intros <;> first | (with_reducible (show _ ∈ linkFrames); simp [linkFrames]) | with_reducible exact opens (by decide +kernel) (by decide +kernel) | decide +kernel⟩,
   ⟨lane0 rom (lk .attested .none), 0, 0, fr (lk .attested .none) 0x10 1 [], plain (lk .attested .none) 0x10 1 [], by unfold Arrives AtLink; and_intros <;> first | with_reducible exact opens (by decide +kernel) (by decide +kernel) | decide +kernel⟩,
   ⟨lane0 rom { lk .attested .keyed with chCount := 1 }, 0, 0, fr { lk .attested .keyed with chCount := 1 } 0x01 2 [7], plain { lk .attested .keyed with chCount := 1 } 0x01 2 [7], by unfold Arrives AtLink; and_intros <;> first | with_reducible exact opens (by decide +kernel) (by decide +kernel) | decide +kernel⟩,
   ⟨lane0 rom (lk .attested .keyed), 0, 0, fr (lk .attested .keyed) 0x01 2 [7], plain (lk .attested .keyed) 0x01 2 [7], by unfold Arrives AtLink; and_intros <;> first | with_reducible exact opens (by decide +kernel) (by decide +kernel) | decide +kernel⟩⟩

theorem witness_LinkMessages :
    (∃ (s : State) (lane n : Nat) (f : GwFrame) (p : Bytes), Reads s lane n 0x20 0 f p ∧ (s.link n).peerHello = []) ∧
    (∃ (s : State) (lane n : Nat) (f : GwFrame) (p : Bytes), Reads s lane n 0x20 0 f p ∧ (s.link n).peerHello = [] ∧ s.ferry.engs = []) ∧
    (∃ (s : State) (lane n : Nat) (f : GwFrame) (p : Bytes), Reads s lane n 0x21 0 f p ∧ (s.link n).peerHello ≠ [] ∧ sideHigher s n = false ∧ (s.link n).sid = [] ∧ (s.slot (16 + n)).valid = true ∧ slotSound s (16 + n) = true) ∧
    (∃ (s : State) (lane n : Nat) (f : GwFrame) (p : Bytes), Reads s lane n 0x22 0 f p ∧ (s.link n).evidence = false ∧ (s.link n).finGot = false) ∧
    (∃ (s : State) (lane n : Nat) (f : GwFrame) (p : Bytes), Reads s lane n 0x23 1 f p ∧ (s.link n).link = .opening ∧ (s.link n).finSent = false) ∧
    (∃ (s : State) (lane n : Nat) (f : GwFrame) (p : Bytes), Reads s lane n 0x24 0 f p ∧ s.ferry.engs = []) :=
  ⟨⟨lane0 fw opn, 0, 0, fr opn 0x20 0 [], plain opn 0x20 0 [], by unfold Reads Arrives AtLink; and_intros <;> first | with_reducible exact opens (by decide +kernel) (by decide +kernel) | decide +kernel⟩,
   ⟨lane0 fw opn, 0, 0, fr opn 0x20 0 [], plain opn 0x20 0 [], by unfold Reads Arrives AtLink; and_intros <;> first | with_reducible exact opens (by decide +kernel) (by decide +kernel) | decide +kernel⟩,
   ⟨slotL (lane0 fw { opn with peerHello := [1] }) 0, 0, 0, fr { opn with peerHello := [1] } 0x21 0 [], plain { opn with peerHello := [1] } 0x21 0 [], by unfold Reads Arrives AtLink; and_intros <;> first | with_reducible exact sound_slotS (by decide +kernel) | with_reducible exact opens (by decide +kernel) (by decide +kernel) | decide +kernel⟩,
   ⟨lane0 fw opn, 0, 0, fr opn 0x22 0 [], plain opn 0x22 0 [], by unfold Reads Arrives AtLink; and_intros <;> first | with_reducible exact opens (by decide +kernel) (by decide +kernel) | decide +kernel⟩,
   ⟨lane0 fw opn, 0, 0, fr opn 0x23 1 [3], plain opn 0x23 1 [3], by unfold Reads Arrives AtLink; and_intros <;> first | with_reducible exact opens (by decide +kernel) (by decide +kernel) | decide +kernel⟩,
   ⟨lane0 fw opn, 0, 0, fr opn 0x24 0 [3], plain opn 0x24 0 [3], by unfold Reads Arrives AtLink; and_intros <;> first | with_reducible exact opens (by decide +kernel) (by decide +kernel) | decide +kernel⟩⟩

theorem witness_LinkMessages_more :
    (∃ (s : State) (lane n b g : Nat) (f : GwFrame) (p : Bytes) (j : Job), Reads s lane n 0x13 1 f p ∧ (s.link n).link = .attested ∧ (s.link n).jobBerth = some b ∧ openJob (s.bp b) = some j ∧ sideHigher s n = false ∧ (s.link n).job = .agreeing ∧ (s.link n).jobId = [] ∧ (s.link n).offerRetry = false ∧ (s.link n).offers = g) ∧
    (∃ (s : State) (lane n : Nat) (f : GwFrame) (p : Bytes), Reads s lane n 0x12 1 f p ∧ (s.link n).link = .attested ∧ sideHigher s n = true ∧ (s.link n).job ≠ .none) ∧
    (∃ (s : State) (lane n : Nat) (f : GwFrame) (p : Bytes), Reads s lane n 0x11 1 f p ∧ (s.link n).link = .attested ∧ (s.link n).job = .keyed ∧ (s.link n).genTx = (s.link n).genRx + 1 ∧ (s.slot (16 + n)).valid = true ∧ slotSound s (16 + n) = true) ∧
    (∃ (s : State) (lane n : Nat) (f : GwFrame) (p : Bytes), Reads s lane n 0x18 1 f p ∧ (s.link n).link = .attested ∧ ((∀ k, k < 48 → k ≠ n → (s.link k).link ≠ .attested)) ∧ s.press.berths = []) ∧
    (∃ (s : State) (lane n : Nat) (f : GwFrame) (p : Bytes), Reads s lane n 0x19 1 f p ∧ s.crossing.forming = true ∧ s.crossing.awaiting.contains n = true ∧ (s.crossing.awaiting.filter (· != n)) ≠ [] ∧ s.press.berths = []) ∧
    (∃ (s : State) (lane n : Nat) (f : GwFrame) (p : Bytes), Reads s lane n 0x1A 1 f p ∧ s.crossing.forming = true ∧ s.crossing.parent = some n ∧ s.crossing.held = [] ∧ s.crossing.children = [] ∧ s.press.berths = []) ∧
    (∃ (s : State) (lane n : Nat) (f : GwFrame) (p : Bytes), Reads s lane n 0x1B 1 f p ∧ s.crossing.forming = false) :=
  ⟨⟨lane0 (jobS fw 5) { lk .attested .agreeing with jobBerth := some 5 }, 0, 0, 5, 0, fr { lk .attested .agreeing with jobBerth := some 5 } 0x13 1 [3], plain { lk .attested .agreeing with jobBerth := some 5 } 0x13 1 [3], job1, by unfold Reads Arrives AtLink; and_intros <;> first | with_reducible exact opens (by decide +kernel) (by decide +kernel) | decide +kernel⟩,
   ⟨lane0 (onFuse (fun f => { f with shadows := unitShadows }) fw) keyd, 0, 0, fr keyd 0x12 1 [3], plain keyd 0x12 1 [3], by unfold Reads Arrives AtLink; and_intros <;> first | with_reducible exact opens (by decide +kernel) (by decide +kernel) | decide +kernel⟩,
   ⟨slotL (lane0 fw { keyd with genTx := 1, genKey := 1 }) 0, 0, 0, fr { keyd with genTx := 1, genKey := 1 } 0x11 1 [3], plain { keyd with genTx := 1, genKey := 1 } 0x11 1 [3], by unfold Reads Arrives AtLink; and_intros <;> first | with_reducible exact sound_slotS (by decide +kernel) | with_reducible exact opens (by decide +kernel) (by decide +kernel) | decide +kernel⟩,
   ⟨lane0 fw att, 0, 0, fr att 0x18 1 [3], plain att 0x18 1 [3], by unfold Reads Arrives AtLink; and_intros <;> first | with_reducible exact opens (by decide +kernel) (by decide +kernel) | decide +kernel⟩,
   ⟨onCrossing (fun c => { c with forming := true, awaiting := [0, 4] }) (lane0 fw att), 0, 0, fr att 0x19 1 [3], plain att 0x19 1 [3], by unfold Reads Arrives AtLink; and_intros <;> first | with_reducible exact opens (by decide +kernel) (by decide +kernel) | decide +kernel⟩,
   ⟨onCrossing (fun c => { c with forming := true, parent := some 0 }) (lane0 fw att), 0, 0, fr att 0x1A 1 [3], plain att 0x1A 1 [3], by unfold Reads Arrives AtLink; and_intros <;> first | with_reducible exact opens (by decide +kernel) (by decide +kernel) | decide +kernel⟩,
   ⟨lane0 fw att, 0, 0, fr att 0x1B 1 [3], plain att 0x1B 1 [3], by unfold Reads Arrives AtLink; and_intros <;> first | with_reducible exact opens (by decide +kernel) (by decide +kernel) | decide +kernel⟩⟩

theorem witness_LinkEvents :
    (∃ (s : State) (lane n : Nat), LinkUp s lane n ∧ laneServes s (linkLane s n) = true ∧ pilotUp s = true ∧ s.pilot.ready = true ∧ (s.link n).dead = false ∧ (s.link n).park = false ∧ ((s.link n).link = .down ∨ (s.link n).link = .closed) ∧ slotFree s (16 + n) = true ∧ s.vault.drbgOk = true) ∧
    (∃ (s : State) (lane n : Nat), LinkUp s lane n ∧ laneServes s (linkLane s n) = true ∧ pilotUp s = true ∧ s.pilot.ready = true ∧ (s.link n).dead = false ∧ (s.link n).park = false ∧ (s.link n).trained = true ∧ (s.link n).link = .closed ∧ slotFree s (16 + n) = true ∧ s.vault.drbgOk = true) ∧
    (∃ (s : State) (lane n : Nat), LinkUp s lane n ∧ (s.link n).link = .attested ∧ pilotUp s = false) ∧
    (∃ (s : State) (lane n : Nat), LinkUp s lane n ∧ (s.link n).link = .attested ∧ pilotUp s = false ∧ commanded s = true) ∧
    (∃ (s : State) (lane n : Nat), LinkUp s lane n ∧ (s.link n).link = .attested ∧ pilotUp s = false ∧ withholds (s.link n) = false) ∧
    (∃ (s : State) (lane n : Nat), LinkUp s lane n ∧ (s.link n).link = .attested ∧ pilotUp s = false ∧ withholds (s.link n) = true) ∧
    (∃ (s : State) (lane n : Nat), LinkUp s lane n ∧ (s.link n).link = .attested ∧ pilotUp s = false) :=
  ⟨⟨lane0 fw gwInit, 0, 0, by unfold LinkUp; decide +kernel⟩,
   ⟨lane0 fw (lk .closed .none), 0, 0, by unfold LinkUp; decide +kernel⟩,
   ⟨lane0 rom att, 0, 0, by unfold LinkUp; decide +kernel⟩,
   ⟨lane0 rom att, 0, 0, by unfold LinkUp; decide +kernel⟩,
   ⟨lane0 rom att, 0, 0, by unfold LinkUp; decide +kernel⟩,
   ⟨lane0 rom { att with bundles := [{ ch := 8, data := [], order := 0 }] }, 0, 0, by unfold LinkUp; decide +kernel⟩,
   ⟨lane0 rom { att with bundles := [{ ch := 8, data := [], order := 0 }] }, 0, 0, by unfold LinkUp; decide +kernel⟩⟩

theorem witness_LinkEvents_more :
    (∃ (s : State) (lane n : Nat), LinkUp s lane n ∧ (s.link n).link = .attested ∧ pilotUp s = true ∧ ((∀ k, k < 48 → k ≠ n → (s.link k).link ≠ .attested)) ∧ s.press.berths = [] ∧ s.crossing.held = []) ∧
    (∃ (s : State) (lane n : Nat), LinkUp s lane n ∧ (s.link n).link = .opening ∧ (s.link n).peerHello = []) ∧
    (∃ (s : State) (lane n : Nat), LinkUp s lane n ∧ (s.link n).link = .attested ∧ (s.link n).refill = false) ∧
    (∃ (s : State) (lane n : Nat), LinkUp s lane n ∧ (s.link n).link = .attested ∧ (s.link n).refill = true) ∧
    (∃ (s : State), pilotUp s = true ∧ batchLinks s ≠ [] ∧ touchSlot s 4 = s ∧ slotServes s 4 6 = true) ∧
    (∃ (s : State) (lane n b : Nat) (j : Job), LinkUp s lane n ∧ pilotUp s = true ∧ (s.link n).offerRetry = true ∧ (s.link n).jobBerth = some b ∧ openJob (s.bp b) = some j ∧ (s.slot (16 + n)).valid = true ∧ slotSound s (16 + n) = true ∧ s.vault.drbgOk = true) ∧
    (∃ (s : State) (lane n : Nat), LinkUp s lane n ∧ (s.link n).link = .attested ∧ pilotUp s = false ∧ rekeyDue (s.link n) 1 = true) :=
  ⟨⟨lane0 fw att, 0, 0, by unfold LinkUp; decide +kernel⟩,
   ⟨lane0 fw opn, 0, 0, by unfold LinkUp; decide +kernel⟩,
   ⟨lane0 fw att, 0, 0, by unfold LinkUp; decide +kernel⟩,
   ⟨lane0 fw { att with refill := true }, 0, 0, by unfold LinkUp; decide +kernel⟩,
   ⟨slotS (lane0 fw { opn with sid := [1] }) 4 1 0x40 (zeros 120), by and_intros <;> first | with_reducible exact serves_slotS (by decide +kernel) | with_reducible exact serves_below (by decide +kernel) | with_reducible exact touch_slotS (by decide +kernel) | decide +kernel⟩,
   ⟨slotL (lane0 (jobS fw 5) { att with jobBerth := some 5, offerRetry := true }) 0, 0, 0, 5, job1, by unfold LinkUp; and_intros <;> first | with_reducible exact sound_slotS (by decide +kernel) | decide +kernel⟩,
   ⟨lane0 rom { att with ctrs := [(2, 2 ^ 32)] }, 0, 0, by unfold LinkUp; decide +kernel⟩⟩

theorem witness_LinkEvents_last :
    (∃ (s : State) (lane n : Nat), LinkUp s lane n ∧ (s.link n).link = .attested ∧ pilotUp s = false ∧ rekeyDue (s.link n) 2 = true ∧ (s.link n).job = .keyed) ∧
    (∃ (s : State) (lane h : Nat), commanded s = true ∧ lane < 52 ∧ homeOf s (154 + lane) = some h ∧ servedBy s h = 154 + lane ∧ pilotUp s = false ∧ s.ferry.engs = []) ∧
    (∃ (s : State) (lane : Nat), commanded s = true ∧ 48 ≤ lane ∧ lane < 52 ∧ homeOf s (154 + lane) = none) ∧
    (∃ (s : State) (n : Nat) (seq : BitVec 16), commanded s = true ∧ n < 52 ∧ holdsKeys s (154 + n) = true) ∧
    (∃ (s : State) (lane n : Nat), commanded s = true ∧ lane < 52 ∧ laneRegs s lane = n ∧ (kindClass (s.link n).cfKind = none ∨ (s.link n).cfKind = 0x01)) ∧
    (∃ (s : State) (lane n : Nat), commanded s = true ∧ lane < 52 ∧ laneRegs s lane = n ∧ (s.link n).cfKind = 0x20 ∧ laneUp s (154 + lane) = false) ∧
    (∃ (s : State) (lane n : Nat), commanded s = true ∧ lane < 52 ∧ laneRegs s lane = n ∧ (s.link n).cfKind = 0x10 ∧ (s.link n).cfLen.toNat ≤ 1024 ∧ (s.link n).link = .attested ∧ laneUp s (154 + lane) = true) ∧
    (∃ (s : State) (lane n : Nat) (e : Byte × Bool × Bytes) (rest : List (Byte × Bool × Bytes)), LinkUp s lane n ∧ commanded s = true ∧ pilotUp s = false ∧ (s.link n).rxq = e :: rest ∧ (s.link n).heldRx = []) :=
  ⟨⟨lane0 rom { keyd with ctrs := [(1, 2 ^ 32)] }, 0, 0, by unfold LinkUp; decide +kernel⟩,
   ⟨lane0 rom att, 0, 154, by decide +kernel⟩,
   ⟨fw, 51, by decide +kernel⟩,
   ⟨fw, 51, 9, by decide +kernel⟩,
   ⟨lane0 fw { att with cfKind := 0x01 }, 0, 0, by decide +kernel⟩,
   ⟨linkS fw 0 { att with cfKind := 0x20 }, 0, 0, by decide +kernel⟩,
   ⟨lane0 fw { att with cfKind := 0x10 }, 0, 0, by decide +kernel⟩,
   ⟨lane0 rom { att with rxq := [(0x18, false, [])] }, 0, 0, (0x18, false, []), [], by unfold LinkUp; decide +kernel⟩⟩

theorem witness_SentFrames :
    (∃ (s : State) (lane n : Nat) (k : Bytes), LinkUp s lane n ∧ (s.link n).link = .attested ∧ (s.link n).refill = false ∧ laneServes s (linkLane s n) = true ∧ gwKey (s.link n) 1 false = some k ∧ gwRoom (s.link n) 1 = true ∧ (s.link n).moveDue = false) ∧
    (∃ (s : State) (n : Nat) (o : OutFrame), (kindClass o.kind = some 1 ∨ kindClass o.kind = some 2) ∧ (s.link n).refill = true) :=
  ⟨⟨lane0 fw att, 0, 0, List.replicate 32 1, by unfold LinkUp; decide +kernel⟩,
   ⟨linkS fw 3 { att with refill := true }, 3, { kind := 0x10, stream := 0, more := false, body := [] }, by decide +kernel⟩⟩

theorem witness_Jobs :
    (∃ (c : (Nat → Bytes → Instr) × Byte) (s : State) (b : Nat) (m : Bytes), c ∈ vfCommands ∧ pilotUp s = true ∧ Quiet s ∧ vfExists s b = true ∧ s.pilot.ready = false) ∧
    (∃ (c : (Nat → Bytes → Instr) × Byte) (s : State) (b : Nat) (m : Bytes), c ∈ vfCommands ∧ pilotUp s = true ∧ Quiet s ∧ vfExists s b = true ∧ s.pilot.ready = true ∧ (s.berth b).state = .free) ∧
    (∃ (c : (Nat → Bytes → Instr) × Byte) (s : State) (b : Nat) (m : Bytes), c ∈ vfCommands ∧ pilotUp s = true ∧ Quiet s ∧ vfExists s b = true ∧ s.pilot.ready = true ∧ (s.berth b).state = .rinsing) ∧
    (∃ (s : State) (b : Nat) (m : Bytes), VfAsks s b .assigned ∧ (s.berth b).commit = none ∧ jobMalformed m = true) ∧
    (∃ (s : State) (b : Nat) (m : Bytes), VfAsks s b .running) ∧
    (∃ (s : State) (b : Nat) (m : Bytes), VfAsks s b .assigned ∧ (s.berth b).commit = none ∧ jobMalformed m = false ∧ arraysIn s = 0) ∧
    (∃ (s : State) (b : Nat) (m : Bytes), VfAsks s b .assigned ∧ jobCheck s b m = 0 ∧ (s.record b).opened = true ∧ (s.record b).unusable = false ∧ s.vault.drbgOk = true ∧ ringsHeld s < 64) ∧
    (∃ (s : State) (b : Nat) (m : Bytes), VfAsks s b .assigned ∧ jobCheck s b m = 0 ∧ (s.record b).opened = false) ∧
    (∃ (s : State) (b : Nat) (m : Bytes), VfAsks s b .assigned ∧ jobCheck s b m = 0 ∧ (s.record b).opened = true ∧ (s.record b).unusable = false ∧ s.vault.drbgOk = false) ∧
    (∃ (s : State) (b : Nat) (m : Bytes), VfAsks s b .assigned ∧ jobCheck s b m = 0 ∧ (s.record b).opened = true ∧ (s.record b).unusable = false ∧ s.vault.drbgOk = true ∧ 64 ≤ ringsHeld s) ∧
    (∃ (s : State) (b : Nat) (j : Job), VfAsks s b .running ∧ openJob (s.bp b) = some j ∧ j.closing = false ∧ (s.bp b).armed = [] ∧ (s.bp b).points = []) ∧
    (∃ (s : State) (b : Nat) (m : Bytes), VfAsks s b .assigned ∧ openJob (s.bp b) = none) ∧
    (∃ (s : State) (b : Nat) (j : Job), pilotUp s = true ∧ Quiet s ∧ (s.berth b).state = .running ∧ (s.bp b).job = some j ∧ j.isOpen = true ∧ j.closing = true ∧ j.answer = true ∧ j.members = [] ∧ (s.bp b).armed = [] ∧ (s.bp b).outbox = [] ∧ (s.bp b).unread = [] ∧ (s.bp b).points = [] ∧ (s.berth b).sites = 0) ∧
    (∃ (s : State) (b : Nat) (m : Bytes), VfAsks s b .assigned ∧ m.length = 22 ∧ leAt m 2 1 = 1 ∧ leAt m 3 1 = 0 ∧ leAt m 0 2 < 1024 ∧ leAt m 20 2 < 1024) ∧
    (∃ (s : State) (b : Nat) (m : Bytes), VfAsks s b .running) :=
  ⟨⟨(.jobOpen, 0x60), onPilot (fun p => { p with ready := false }) (vfB .assigned), 1, [], by unfold Quiet; and_intros <;> first | (with_reducible (show _ ∈ vfCommands); simp [vfCommands]) | decide +kernel⟩,
   ⟨(.holdQuery, 0x62), vfB .free, 1, [], by unfold Quiet; and_intros <;> first | (with_reducible (show _ ∈ vfCommands); simp [vfCommands]) | decide +kernel⟩,
   ⟨(.pairStatus, 0x65), vfB .rinsing, 1, [], by unfold Quiet; and_intros <;> first | (with_reducible (show _ ∈ vfCommands); simp [vfCommands]) | decide +kernel⟩,
   ⟨vfB .assigned, 1, [], by unfold VfAsks Quiet; decide +kernel⟩,
   ⟨vfB .running, 1, [], by unfold VfAsks Quiet; decide +kernel⟩,
   ⟨vfB .assigned, 1, jobMsg, by unfold VfAsks Quiet; decide +kernel⟩,
   ⟨laneS (recS (vfB .assigned) 1) (.press 0), 1, jobMsg, by unfold VfAsks Quiet; decide +kernel⟩,
   ⟨laneS (vfB .assigned) (.press 0), 1, jobMsg, by unfold VfAsks Quiet; decide +kernel⟩,
   ⟨onVault (fun v => { v with drbgOk := false }) (laneS (recS (vfB .assigned) 1) (.press 0)), 1, jobMsg, by unfold VfAsks Quiet; decide +kernel⟩,
   ⟨onPress (fun p => { p with berths := (List.range 64).map (fun i => (i + 2, { berthPressInit with ringHeld := true })) }) (laneS (recS (vfB .assigned) 1) (.press 0)), 1, jobMsg, by unfold VfAsks Quiet; decide +kernel⟩,
   ⟨vfJ, 1, job1, by unfold VfAsks Quiet; decide +kernel⟩,
   ⟨vfB .assigned, 1, [], by unfold VfAsks Quiet; decide +kernel⟩,
   ⟨bpS (vfB .running) 1 (fun x => { x with job := some { job1 with closing := true, answer := true } }), 1, { job1 with closing := true, answer := true }, by unfold Quiet; decide +kernel⟩,
   ⟨vfB .assigned, 1, [0xFF, 3, 1] ++ zeros 19, by unfold VfAsks Quiet; decide +kernel⟩,
   ⟨vfB .running, 1, [], by unfold VfAsks Quiet; decide +kernel⟩⟩

theorem witness_PressRing :
    (∃ (s : State) (b : Nat) (d : Bytes) (j : Job), Quiet s ∧ HostOpen s ∧ vfExists s b = true ∧ (s.fn (.vf b)).mse = true ∧ d.length = 64 ∧ openJob (s.bp b) = some j ∧ j.closing = false ∧ (s.berth b).state = .running ∧ (s.bp b).ring.length < 256) ∧
    (∃ (s : State) (b o : Nat) (d : Bytes), Quiet s ∧ HostOpen s ∧ vfExists s b = true ∧ (s.fn (.vf b)).mse = true ∧ (s.berth b).state ≠ .rinsing ∧ (o ≠ 0x2040 ∨ d.length ≠ 64 ∨ openJob (s.bp b) = none)) ∧
    (∃ (s : State) (b : Nat) (d : Bytes) (j : Job), Quiet s ∧ HostOpen s ∧ vfExists s b = true ∧ (s.fn (.vf b)).mse = true ∧ d.length = 64 ∧ openJob (s.bp b) = some j ∧ j.closing = false ∧ (s.berth b).state = .running ∧ 256 ≤ (s.bp b).ring.length) ∧
    (∃ (s : State) (k b : Nat) (d : Bytes) (j : Job), Quiet s ∧ k < 12 ∧ siteBerth s k = some b ∧ d.length = 64 ∧ openJob (s.bp b) = some j ∧ j.closing = false ∧ (s.berth b).state = .running ∧ (s.bp b).ring.length < 256) ∧
    (∃ (s : State) (k : Nat) (d : Bytes), Quiet s ∧ k < 12 ∧ siteBerth s k = none) ∧
    (∃ (s : State) (b : Nat) (d : Bytes) (rest : List Bytes) (j : Job), Quiet s ∧ (s.bp b).ring = d :: rest ∧ openJob (s.bp b) = some j ∧ (s.bp b).head = none ∧ j.closing = false ∧ (s.berth b).state ≠ .rinsing ∧ (s.bp b).points = [] ∧ (s.bp b).entries = [] ∧ (s.bp b).exports = [] ∧ (s.bp b).segments = [] ∧ s.ferry.engs = [] ∧ (s.berth b).ferryCount = 0) ∧
    (∃ (s : State) (b : Nat) (j : Job) (slots : Tbl (Nat × Nat)) (d : Bytes), Quiet s ∧ waitingHead s b = some (j, slots, d) ∧ (ownReady (s.bp b) j slots d = false ∨ s.press.waiting.head? ≠ some b)) ∧
    (∃ (s : State) (b : Nat) (j : Job) (slots : Tbl (Nat × Nat)) (d : Bytes), Quiet s ∧ waitingHead s b = some (j, slots, d) ∧ j.closing = false ∧ ownReady (s.bp b) j slots d = true ∧ s.press.waiting.head? = some b ∧ samplerSeed s b = none) ∧
    (∃ (s : State) (b : Nat) (j : Job) (slots : Tbl (Nat × Nat)) (d seed : Bytes) (i : Instr), (i = .declArm b ∨ i = .capturePinRetry b) ∧ Quiet s ∧ waitingHead s b = some (j, slots, d) ∧ j.closing = false ∧ ownReady (s.bp b) j slots d = true ∧ s.press.waiting.head? = some b ∧ samplerSeed s b = some (some seed)) ∧
    (∃ (s : State) (b : Nat) (v : Word), Quiet s ∧ HostOpen s ∧ vfExists s b = true ∧ (s.fn (.vf b)).mse = true ∧ (v - (s.bp b).cons).toNat ≤ ((s.bp b).prod - (s.bp b).cons).toNat ∧ (s.bp b).ledger = [] ∧ (s.bp b).outbox = []) ∧
    (∃ (s : State) (b : Nat) (v : Word), Quiet s ∧ HostOpen s ∧ vfExists s b = true ∧ (s.fn (.vf b)).mse = true ∧ ((s.bp b).prod - (s.bp b).cons).toNat < (v - (s.bp b).cons).toNat) ∧
    (∃ (s : State) (b : Nat), Quiet s ∧ HostOpen s ∧ vfExists s b = true ∧ (s.fn (.vf b)).mse = true ∧ (s.berth b).state ≠ .rinsing) ∧
    (∃ (s : State) (b o : Nat) (d : Bytes), Quiet s ∧ HostOpen s ∧ vfExists s b = true ∧ (s.fn (.vf b)).mse = true ∧ (s.berth b).state = .rinsing) :=
  ⟨⟨vfJ, 1, zeros 64, job1, by unfold Quiet HostOpen; decide +kernel⟩,
   ⟨vfB .running, 1, 0x2040, zeros 64, by unfold Quiet HostOpen; decide +kernel⟩,
   ⟨bpS vfJ 1 (fun x => { x with ring := List.replicate 256 [] }), 1, zeros 64, job1, by unfold Quiet HostOpen; decide +kernel⟩,
   ⟨berthS vfJ 1 (fun y => { y with sites := 0x800 }), 11, 1, zeros 64, job1, by unfold Quiet; decide +kernel⟩,
   ⟨fw, 11, zeros 64, by unfold Quiet; decide +kernel⟩,
   ⟨bpS vfJ 1 (fun x => { x with ring := [zeros 64] }), 1, zeros 64, [], job1, by unfold Quiet; decide +kernel⟩,
   ⟨bpS headS 1 (fun x => { x with exports := [(8, 0, 64)] }), 1, job1, [(0, 0, 64)], decl1, by unfold Quiet; decide +kernel⟩,
   ⟨headS, 1, job1, [(0, 0, 64)], decl1, by unfold Quiet; decide +kernel⟩,
   ⟨onPress (fun p => { p with keys := [(1, some key0)] }) headS, 1, job1, [(0, 0, 64)], decl1, zeros 48, .declArm 1, by unfold Quiet; decide +kernel⟩,
   ⟨bpS (vfB .running) 1 (fun x => { x with prod := 5 }), 1, 5, by unfold Quiet HostOpen; decide +kernel⟩,
   ⟨vfB .running, 1, 1, by unfold Quiet HostOpen; decide +kernel⟩,
   ⟨vfB .running, 1, by unfold Quiet HostOpen; decide +kernel⟩,
   ⟨vfB .rinsing, 1, 0x2040, zeros 64, by unfold Quiet HostOpen; decide +kernel⟩⟩

theorem witness_PressTiles :
    (∃ (s : State) (n i : Nat) (r : CapRange), Quiet s ∧ tfind (s.pier n).ranges i = some r ∧ r.done = true) ∧
    (∃ (s : State) (n i b home : Nat) (r : CapRange) (a : Armed) (u : Tile), OneTile s b a u .capturing ∧ homeOf s n = some home ∧ tfind (s.pier n).ranges i = some r ∧ r.done = false ∧ rangeFull (s.pier n) home r = true ∧ r.vf = b ∧ r.declId = a.declId ∧ u.operands = [(home, i)] ∧ (s.bp b).segments = [] ∧ s.press.ready = []) ∧
    (∃ (s : State) (b : Nat) (a : Armed) (u : Tile), OneTile s b a u .capturing ∧ u.result = [] ∧ u.operands ≠ []) ∧
    (∃ (s : State) (b : Nat) (a : Armed) (u : Tile), OneTile s b a u .capturing ∧ u.result ≠ []) ∧
    (∃ (s : State) (n b : Nat) (a : Armed) (u : Tile), OneTile s b a u .ready ∧ arrayUp s n = true ∧ (s.array n).run = none ∧ (s.array n).park = false ∧ s.ferry.bursts.contains (.press n) = false ∧ unwritten s b a.declId false = false ∧ s.press.ready = [(b, a.declId, u.ti, u.tj)]) ∧
    (∃ (s : State) (n : Nat), Quiet s ∧ (arrayUp s n = false ∨ (s.array n).run.isSome = true ∨ s.press.ready = [])) ∧
    (∃ (s : State) (n b : Nat) (a : Armed) (u : Tile) (d : TileData), OneTile s b a u (.running n) ∧ (s.array n).run = some (b, a.declId, u.ti, u.tj) ∧ u.result = [] ∧ (s.array n).park = false ∧ unwritten s b a.declId true = false ∧ fedAll s n u = true) ∧
    (∃ (s : State) (n b : Nat) (id : DWord) (ti tj : Nat), Quiet s ∧ n < 16 ∧ (s.island (.press n)).service ≠ .failed ∧ (s.array n).run = some (b, id, ti, tj) ∧ s.press.ready = []) ∧
    (∃ (s : State) (n : Nat) (c : ArrayCause), Quiet s ∧ n < 16 ∧ (s.island (.press n)).service ≠ .failed) ∧
    (∃ (s : State) (n : Nat), commanded s = true ∧ n < 16 ∧ (s.array n).run = none) ∧
    (∃ (s : State) (n : Nat), commanded s = true ∧ n < 16 ∧ (s.array n).run.isSome = true) ∧
    (∃ (s : State) (n : Nat), commanded s = true ∧ n < 16 ∧ (s.island (.press n)).ucOk = true ∧ (s.island (.press n)).test = .passed ∧ s.power.domUp.getLsbD (domainOf (.press n)) = true) ∧
    (∃ (s : State) (b : Nat) (r : Bytes) (rest : List Bytes), Quiet s ∧ (s.bp b).unread = r :: rest ∧ leAt r 0 1 = 0 ∧ (s.bp b).entries = [] ∧ (s.bp b).segments = [] ∧ (s.berth b).ferryCount = 0) ∧
    (∃ (s : State) (b : Nat) (r : Bytes) (rest : List Bytes) (e : HoldEntry), Quiet s ∧ (s.bp b).unread = r :: rest ∧ leAt r 0 1 = 1 ∧ (s.bp b).entries = [e] ∧ (s.bp b).segments = [] ∧ segSettled (s.bp b) e.segment = false ∧ (s.berth b).ferryCount = 0 ∧ e.declId = BitVec.ofNat 64 (leAt r 4 8) ∧ e.left = 1 ∧ e.orphan = false ∧ e.state = .damp ∧ e.own = 0) ∧
    (∃ (s : State) (n b : Nat) (a : Armed) (u : Tile) (r : TileRef), accepts s = true ∧ (s.bp b).armed = [a] ∧ a.tiles = [u] ∧ u.stage = .capturing ∧ (s.bp b).segments = [] ∧ s.reports = { rewritten := [], lost := [r], pairBad := [] } ∧ r.vf = b ∧ r.declId = a.declId ∧ r.result = false ∧ u.parts.contains r.tag = true ∧ arrayUp s n = false) ∧
    (∃ (s : State) (n b : Nat) (a : Armed) (u : Tile) (r : TileRef), accepts s = true ∧ (s.bp b).armed = [a] ∧ a.tiles = [u] ∧ u.stage = .capturing ∧ (s.bp b).segments = [] ∧ s.reports = { rewritten := [r], lost := [], pairBad := [] } ∧ r.vf = b ∧ r.declId = a.declId ∧ r.result = true ∧ r.tag = 0 ∧ arrayUp s n = false) :=
  ⟨⟨pierS fw 3 (fun p => { p with ranges := [(0, { rangeR with done := true })] }), 3, 0, { rangeR with done := true }, by unfold Quiet; decide +kernel⟩,
   ⟨pierS (tileS (tile0 .capturing [(3, 0)] [])) 3 (fun p => { p with ranges := [(0, rangeR)] }), 3, 0, 1, 3, rangeR, armed0 (tile0 .capturing [(3, 0)] []), tile0 .capturing [(3, 0)] [], by unfold OneTile Quiet; decide +kernel⟩,
   ⟨tileS (tile0 .capturing [(3, 0)] []), 1, armed0 (tile0 .capturing [(3, 0)] []), tile0 .capturing [(3, 0)] [], by unfold OneTile Quiet; decide +kernel⟩,
   ⟨tileS (tile0 .capturing [] [(3, 1)]), 1, armed0 (tile0 .capturing [] [(3, 1)]), tile0 .capturing [] [(3, 1)], by unfold OneTile Quiet; decide +kernel⟩,
   ⟨onPress (fun p => { p with ready := [(1, 7, 0, 0)] }) (laneS (tileS (tile0 .ready [] [])) (.press 15)), 15, 1, armed0 (tile0 .ready [] []), tile0 .ready [] [], by unfold OneTile Quiet; decide +kernel⟩,
   ⟨laneS fw (.press 15), 15, by unfold Quiet; decide +kernel⟩,
   ⟨arrayS (tileS (tile0 (.running 0) [] [])) 0 (fun x => { x with run := some (1, 7, 0, 0) }), 0, 1, armed0 (tile0 (.running 0) [] []), tile0 (.running 0) [] [], data0, by unfold OneTile Quiet; decide +kernel⟩,
   ⟨arrayS (laneS fw (.press 0)) 0 (fun x => { x with run := some (1, 7, 0, 0) }), 0, 1, 7, 0, 0, by unfold Quiet; decide +kernel⟩,
   ⟨laneS fw (.press 15), 15, .residue, by unfold Quiet; decide +kernel⟩,
   ⟨fw, 15, by decide +kernel⟩,
   ⟨arrayS fw 15 (fun x => { x with run := some (1, 7, 0, 0) }), 15, by decide +kernel⟩,
   ⟨laneS fw (.press 15), 15, by decide +kernel⟩,
   ⟨bpS vfJ 1 (fun x => { x with unread := [recOf 0] }), 1, recOf 0, [], by unfold Quiet; decide +kernel⟩,
   ⟨bpS vfJ 1 (fun x => { x with unread := [recOf 1], entries := [entry7] }), 1, recOf 1, [], entry7, by unfold Quiet; decide +kernel⟩,
   ⟨{ tileS tileP with reports := { rewritten := [], lost := [lostRef], pairBad := [] } }, 0, 1, armed0 tileP, tileP, lostRef, by decide +kernel⟩,
   ⟨{ tileS tileP with reports := { rewritten := [{ lostRef with result := true }], lost := [], pairBad := [] } }, 0, 1, armed0 tileP, tileP, { lostRef with result := true }, by decide +kernel⟩⟩

theorem witness_LineHold :
    (∃ (s : State) (c : Nat), accepts s = true ∧ (s.ch c).state = .waiting ∧ isExport (dOp (s.ch c).desc) = true ∧ (s.ch c).hold ≠ some .go ∧ holdAnswer (s.bp (chBerth s c)) (srcSpan (s.ch c).desc).1 (srcSpan (s.ch c).desc).2 (exportLabel (s.ch c).desc) = .go) ∧
    (∃ (s : State) (c : Nat), accepts s = true ∧ (s.ch c).state = .waiting ∧ isExport (dOp (s.ch c).desc) = true ∧ (s.ch c).hold ≠ some .go ∧ holdAnswer (s.bp (chBerth s c)) (srcSpan (s.ch c).desc).1 (srcSpan (s.ch c).desc).2 (exportLabel (s.ch c).desc) = .wait) ∧
    (∃ (s : State) (c : Nat), accepts s = true ∧ (s.ch c).state = .waiting ∧ isExport (dOp (s.ch c).desc) = true ∧ (s.ch c).hold ≠ some .go ∧ holdAnswer (s.bp (chBerth s c)) (srcSpan (s.ch c).desc).1 (srcSpan (s.ch c).desc).2 (exportLabel (s.ch c).desc) = .refuse) ∧
    (∃ (x : BerthPress) (lo hi : Nat) (l : Option Nat), x.sealed = true) ∧
    (∃ (x : BerthPress) (lo hi : Nat) (l : Option Nat) (e : HoldEntry), e ∈ x.entries ∧ e.state = .failed ∧ overlaps (lo, hi - lo) (entryRange e) = true) ∧
    (∃ (x : BerthPress) (lo hi : Nat) (l : Option Nat) (e : HoldEntry), x.sealed = false ∧ ((∀ f ∈ x.entries, f.state ≠ .failed)) ∧ e ∈ x.entries ∧ e.state = .damp ∧ overlaps (lo, hi - lo) (entryRange e) = true) ∧
    (∃ (x : BerthPress) (lo hi : Nat) (l : Option Nat), x.sealed = false ∧ x.entries = [] ∧ openJob x = none) ∧
    (∃ (s : State) (b : Nat) (m : Bytes), VfAsks s b .assigned ∧ m.length = 4 ∧ openJob (s.bp b) = none) ∧
    (∃ (s : State) (b : Nat) (m : Bytes) (j : Job) (g : Segment), VfAsks s b .running ∧ m.length = 4 ∧ openJob (s.bp b) = some j ∧ findSeg (s.bp b) (leAt m 0 4) = some g ∧ tooOld (s.bp b) (leAt m 0 4) = false) ∧
    (∃ (s : State) (b : Nat) (m : Bytes) (j : Job), VfAsks s b .running ∧ m.length = 4 ∧ openJob (s.bp b) = some j ∧ segState (s.bp b) (leAt m 0 4) = .old) ∧
    (∃ (s : State) (b : Nat) (m : Bytes), VfAsks s b .running ∧ m.length ≠ 4) :=
  ⟨⟨exportS fw, 8, by decide +kernel⟩,
   ⟨exportS (bpS fw 1 (fun x => { x with entries := [entry7] })), 8, by decide +kernel⟩,
   ⟨exportS (bpS fw 1 (fun x => { x with sealed := true })), 8, by decide +kernel⟩,
   ⟨{ berthPressInit with sealed := true }, 0, 0, none, by decide +kernel⟩,
   ⟨{ berthPressInit with entries := [{ entry7 with state := .failed }] }, 0, 64, none, { entry7 with state := .failed }, by decide +kernel⟩,
   ⟨{ berthPressInit with entries := [entry7] }, 0, 64, none, entry7, ⟨rfl, by simp [entry7], by simp, rfl, by decide⟩⟩,
   ⟨berthPressInit, 0, 64, none, by decide +kernel⟩,
   ⟨vfB .assigned, 1, zeros 4, by unfold VfAsks Quiet; decide +kernel⟩,
   ⟨bpS vfJ 1 (fun x => { x with segments := [seg5] }), 1, [5, 0, 0, 0], job1, seg5, by unfold VfAsks Quiet; decide +kernel⟩,
   ⟨bpS vfJ 1 (fun x => { x with segments := { seg5 with num := 0, settled := some true } :: (List.range 64).map (fun i => { seg5 with num := i + 1, settled := some true }) }), 1, zeros 4, job1, by unfold VfAsks Quiet; decide +kernel⟩,
   ⟨vfJ, 1, [], by unfold VfAsks Quiet; decide +kernel⟩⟩

theorem witness_Pair :
    (∃ (s : State) (b : Nat) (m : Bytes), VfAsks s b .assigned) ∧
    (∃ (s : State) (b : Nat) (m : Bytes), VfAsks s b .running ∧ pointMalformed m = true) ∧
    (∃ (s : State) (b : Nat) (m : Bytes), VfAsks s b .running) ∧
    (∃ (s : State) (b : Nat) (m : Bytes) (j : Job) (p : PairPoint), VfAsks s b .running ∧ m.length = 4 ∧ (s.bp b).job = some j ∧ j.members ≠ [] ∧ (s.bp b).points = [p] ∧ p.point.toNat = leAt m 0 4) ∧
    (∃ (s : State) (b : Nat) (m : Bytes), VfAsks s b .running ∧ m.length = 4 ∧ (s.bp b).job = none) ∧
    (∃ (s : State) (n i b home : Nat) (x : BerthPress) (j : Job) (p : PairPoint), Quiet s ∧ pilotUp s = true ∧ homeOf s n = some home ∧ s.press.berths = [(b, x)] ∧ openJob x = some j ∧ x.points = [p] ∧ p.closed = true ∧ p.cursors = [(home, i)] ∧ p.sent = none ∧ p.outcome = 0 ∧ leaderOf s j ≠ selfId s ∧ s.crossing.forming = true ∧ tfind (s.pier n).cursors i = none) ∧
    (∃ (s : State) (m : Bytes) (b : Nat) (j : Job), pilotUp s = true ∧ Quiet s ∧ jobBerthOf s (slice m 0 16) = some b ∧ openJob (s.bp b) = some j ∧ (s.bp b).points = [] ∧ (s.bp b).votes = [] ∧ m.length = 40 + 32 * leAt m 39 1 ∧ (classIds s j).contains (slice m 20 16) = true) ∧
    (∃ (s : State) (m : Bytes), pilotUp s = true ∧ Quiet s ∧ jobBerthOf s (slice m 0 16) = none) ∧
    (∃ (s : State) (m : Bytes) (b : Nat) (p : PairPoint), pilotUp s = true ∧ Quiet s ∧ jobBerthOf s (slice m 0 16) = some b ∧ m.length = 59 ∧ leAt m 38 1 = 3 ∧ leAt m 40 2 = 1 ∧ slice m 42 16 = selfId s ∧ byteAt m 58 = 2 ∧ (s.bp b).points = [p] ∧ p.point = BitVec.ofNat 32 (leAt m 16 4) ∧ p.outcome = 0 ∧ (s.bp b).entries = [] ∧ (s.bp b).segments = [] ∧ (s.berth b).state = .running ∧ (s.berth b).ferryCount = 0) ∧
    (∃ (s : State) (m : Bytes) (b : Nat) (j : Job), pilotUp s = true ∧ Quiet s ∧ jobBerthOf s (slice m 0 16) = some b ∧ m.length = 36 ∧ openJob (s.bp b) = some j ∧ (presentIds j).contains (slice m 16 16) = true ∧ slice m 16 16 ≠ selfId s ∧ (s.bp b).points = [] ∧ jobLinks s b = [] ∧ (s.bp b).votes = []) ∧
    (∃ (s : State) (b : Nat) (j : Job) (p : PairPoint), pilotUp s = true ∧ Quiet s ∧ openJob (s.bp b) = some j ∧ (s.bp b).points = [p] ∧ p.sent.isSome = true ∧ p.outcome = 0 ∧ leaderOf s j = selfId s) ∧
    (∃ (vs : List PairVote) (x y z : Bytes) (e : List (Word × Nat × BitVec 128)), x ≠ y ∧ x ≠ z ∧ y ≠ z ∧ voteKey vs x = some e ∧ voteKey vs y = some e ∧ voteKey vs z ≠ some e) ∧
    (∃ (vs : List PairVote) (x y : Bytes) (e f : List (Word × Nat × BitVec 128)), x ≠ y ∧ voteKey vs x = some e ∧ voteKey vs y = some f) ∧
    (∃ (s : State) (b : Nat) (p : PairPoint), pilotUp s = true ∧ Quiet s ∧ (s.bp b).points = [p] ∧ p.sent.isSome = true ∧ p.outcome = 0 ∧ (s.bp b).entries = [] ∧ (s.bp b).segments = [] ∧ (s.berth b).ferryCount = 0) ∧
    (∃ (s : State) (b : Nat) (j : Job) (p : PairPoint), VfAsks s b .running ∧ openJob (s.bp b) = some j ∧ j.closing = false ∧ (s.bp b).armed = [] ∧ (s.bp b).points = [p] ∧ p.closed = true) ∧
    (∃ (s : State) (b : Nat) (j : Job) (p : PairPoint), VfAsks s b .running ∧ openJob (s.bp b) = some j ∧ j.closing = false ∧ (s.bp b).armed = [] ∧ (s.bp b).points = [p] ∧ p.closed = false ∧ p.sent = none ∧ p.outcome = 0 ∧ leaderOf s j ≠ selfId s ∧ s.crossing.forming = true) :=
  ⟨⟨vfB .assigned, 1, [], by unfold VfAsks Quiet; decide +kernel⟩,
   ⟨vfB .running, 1, [], by unfold VfAsks Quiet; decide +kernel⟩,
   ⟨pairS job2 [], 1, [4, 0, 0, 0, 0, 0, 0, 0, 9, 0, 0, 0, 0, 0, 0, 0, 1, 0, 0, 0] ++ [1] ++ zeros 15 ++ [64] ++ zeros 7, by unfold VfAsks Quiet; decide +kernel⟩,
   ⟨pairS job2 [point4], 1, [4, 0, 0, 0], job2, point4, by unfold VfAsks Quiet; decide +kernel⟩,
   ⟨vfB .running, 1, [4, 0, 0, 0], by unfold VfAsks Quiet; decide +kernel⟩,
   ⟨onCrossing (fun c => { c with forming := true }) (pairS job3 [{ point4 with closed := true, cursors := [(3, 0)] }]), 3, 0, 1, 3, { berthPressInit with job := some job3, points := [{ point4 with closed := true, cursors := [(3, 0)] }] }, job3, { point4 with closed := true, cursors := [(3, 0)] }, by unfold Quiet; decide +kernel⟩,
   ⟨pairS job2 [], zeros 20 ++ other ++ zeros 4, 1, job2, by unfold Quiet; decide +kernel⟩,
   ⟨fw, [], by unfold Quiet; decide +kernel⟩,
   ⟨pairS job2 [point4], zeros 16 ++ [4] ++ zeros 21 ++ [3, 0, 1] ++ zeros 17 ++ [2], 1, point4, by unfold Quiet; decide +kernel⟩,
   ⟨pairS job2 [], zeros 16 ++ other ++ zeros 4, 1, job2, by unfold Quiet; decide +kernel⟩,
   ⟨pairS job2 [{ point4 with sent := some vote0 }], 1, job2, { point4 with sent := some vote0 }, by unfold Quiet; decide +kernel⟩,
   ⟨[voteOf 1 5, voteOf 2 5, voteOf 3 6], [1], [2], [3], [(1, 2, 5)], by decide +kernel⟩,
   ⟨[voteOf 1 5, voteOf 2 6], [1], [2], [(1, 2, 5)], [(1, 2, 6)], by decide +kernel⟩,
   ⟨pairS job2 [{ point4 with sent := some vote0 }], 1, { point4 with sent := some vote0 }, by unfold Quiet; decide +kernel⟩,
   ⟨pairS job2 [{ point4 with closed := true }], 1, job2, { point4 with closed := true }, by unfold VfAsks Quiet; decide +kernel⟩,
   ⟨onCrossing (fun c => { c with forming := true }) (pairS job3 [point4]), 1, job3, point4, by unfold VfAsks Quiet; decide +kernel⟩⟩

theorem witness_IdleTests :
    (∃ (s : State), pilotUp s = true ∧ testPeriod s.fuse = 0) ∧
    (∃ (s : State) (k : Nat), pilotUp s = true ∧ testPeriod s.fuse ≠ 0 ∧ (List.range 12).filter (testable s) = [k]) ∧
    (∃ (s : State) (k : Nat) (id : Word) (d : DWord), pilotUp s = true ∧ Quiet s ∧ id ∈ tget [] s.press.tests k) ∧
    (∃ (s : State) (k : Nat) (id : Word) (r : Byte) (d : DWord), pilotUp s = true ∧ Quiet s ∧ id ∈ tget [] s.press.tests k ∧ r ≠ 0 ∧ r ≠ 2 ∧ s.berths = []) ∧
    (∃ (s : State) (k : Nat) (id : Word) (rest : List Word), pilotUp s = true ∧ Quiet s ∧ tget [] s.press.tests k = id :: rest ∧ s.berths = []) ∧
    (∃ (s : State) (k : Nat) (id : Word) (r : Byte) (d : DWord), pilotUp s = true ∧ Quiet s ∧ id ∉ tget [] s.press.tests k) ∧
    (∃ (s : State) (k : Nat), pilotUp s = true ∧ Quiet s ∧ tget [] s.press.tests k = []) :=
  ⟨⟨fw, by decide +kernel⟩,
   ⟨berthS (testFuse.setSite 3 { siteInit with step := .boarded, version := 2, sbUp := true, present := true }) 1 (fun y => { y with state := .assigned, sites := 8 }), 3, by decide +kernel⟩,
   ⟨testsS, 3, 5, 0, by unfold Quiet; decide +kernel⟩,
   ⟨testsS, 3, 5, 1, 0, by unfold Quiet; decide +kernel⟩,
   ⟨testsS, 3, 5, [], by unfold Quiet; decide +kernel⟩,
   ⟨testsS, 3, 6, 0, 0, by unfold Quiet; decide +kernel⟩,
   ⟨testsS, 4, by unfold Quiet; decide +kernel⟩⟩

theorem witness_FerryChannels :
    (∃ (s : State) (vf k c : Nat) (st : ChState), ChUp s vf k c st ∧ st ≠ .idle ∧ st ≠ .silenced) ∧
    (∃ (s : State) (vf k : Nat) (i : Instr), accepts s = true ∧ ((vfExists s vf = false ∨ (s.fn (.vf vf)).mse = true ∧ (runCh s vf k = none ∨ ∃ c, runCh s vf k = some c ∧ (s.ch c).state = .silenced))) ∧ (i = .ferryChDoorbell vf k ∨ i = .stop vf k ∨ i = .skip vf k ∨ i = .resume vf k)) ∧
    (∃ (s : State) (vf k : Nat) (i : Instr), HostOpen s ∧ vfExists s vf = true ∧ (s.fn (.vf vf)).mse = false ∧ (i = .ferryChDoorbell vf k ∨ i = .stop vf k ∨ i = .skip vf k ∨ i = .resume vf k)) ∧
    (∃ (s : State) (vf k c : Nat), ChUp s vf k c .idle ∧ (s.ch c).chain = false ∧ (s.fn (.vf vf)).bme = true ∧ (s.fn (.vf vf)).ats = false ∧ tagReady s (vf + 2) = true) ∧
    (∃ (s : State) (vf k c : Nat), ChUp s vf k c .idle ∧ (s.ch c).chain = true ∧ (s.fn (.vf vf)).bme = true ∧ (s.fn (.vf vf)).ats = false ∧ tagReady s (vf + 2) = true) ∧
    (∃ (s : State) (vf k c : Nat), ChUp s vf k c .idle ∧ (s.ch c).chain = false ∧ (s.fn (.vf vf)).bme = true ∧ (s.fn (.vf vf)).ats = false ∧ tagReady s (vf + 2) = false) ∧
    (∃ (s : State) (vf k c : Nat), ChUp s vf k c .idle ∧ (s.fn (.vf vf)).bme = false) ∧
    (∃ (s : State) (vf k c : Nat), ChUp s vf k c .running) ∧
    (∃ (s : State) (vf k c : Nat), ChUp s vf k c .halted ∧ (s.ch c).desc ≠ [] ∧ dFlag (s.ch c).desc 0 = true ∧ (s.ch c).dbcount = (s.ch c).cap) ∧
    (∃ (s : State) (vf k c : Nat), ChUp s vf k c .halted ∧ (s.ch c).desc ≠ [] ∧ dFlag (s.ch c).desc 0 = false ∧ (s.fn (.vf vf)).bme = true ∧ (s.fn (.vf vf)).ats = false) ∧
    (∃ (s : State) (vf k c : Nat), ChUp s vf k c .halted ∧ (s.fn (.vf vf)).bme = true ∧ (s.fn (.vf vf)).ats = false) ∧
    (∃ (s : State) (vf k c : Nat) (st : ChState), ChUp s vf k c st ∧ st ≠ .halted ∧ st ≠ .silenced) :=
  ⟨⟨chUp .waiting id, 1, 0, 8, .waiting, by unfold ChUp HostOpen; decide +kernel⟩,
   ⟨fw, 1, 0, .stop 1 0, ⟨by decide +kernel, .inl (by decide +kernel), .inr (.inl rfl)⟩⟩,
   ⟨vf1.setFn (.vf 1) fnInit, 1, 0, .stop 1 0, by unfold HostOpen; decide +kernel⟩,
   ⟨bus (chUp .idle id), 1, 0, 8, by unfold ChUp HostOpen; decide +kernel⟩,
   ⟨bus (chUp .idle (fun x => { x with chain := true })), 1, 0, 8, by unfold ChUp HostOpen; decide +kernel⟩,
   ⟨onHost (fun h => { h with fresh := [(3, 16384)] }) (bus (chUp .idle id)), 1, 0, 8, by unfold ChUp HostOpen; decide +kernel⟩,
   ⟨chUp .idle id, 1, 0, 8, by unfold ChUp HostOpen; decide +kernel⟩,
   ⟨chUp .running id, 1, 0, 8, by unfold ChUp HostOpen; decide +kernel⟩,
   ⟨chUp .halted (fun x => { x with desc := desc1 }), 1, 0, 8, by unfold ChUp HostOpen; decide +kernel⟩,
   ⟨bus (chUp .halted (fun x => { x with desc := desc0 })), 1, 0, 8, by unfold ChUp HostOpen; decide +kernel⟩,
   ⟨bus (chUp .halted id), 1, 0, 8, by unfold ChUp HostOpen; decide +kernel⟩,
   ⟨chUp .running id, 1, 0, 8, .running, by unfold ChUp HostOpen; decide +kernel⟩⟩

theorem witness_FerryReads :
    (∃ (s : State) (c : Nat) (r : HostReq) (d : Bytes), Fetching s c r ∧ d.length = 64) ∧
    (∃ (s : State) (c vf : Nat) (r : HostReq) (d : Bytes), Fetching s c r ∧ s.host.quarantine = [] ∧ r.fn = vf + 2 ∧ r.len = 64 ∧ r.got = [] ∧ d.length = 64 ∧ tagReady s (vf + 2) = true) ∧
    (∃ (s : State) (vf tag : Nat) (c : HostCpl), HostOpen s ∧ s.host.quarantine = [] ∧ s.host.reqs = []) ∧
    (∃ (s : State) (c vf : Nat) (r : HostReq) (d : Bytes), Fetching s c r ∧ s.host.quarantine = [] ∧ r.fn = vf + 2 ∧ r.len = 64 ∧ r.got = [] ∧ tagReady s (vf + 2) = true) ∧
    (∃ (s : State) (c vf : Nat) (r : HostReq) (d : Bytes), Fetching s c r ∧ s.host.quarantine = [] ∧ r.fn = vf + 2 ∧ r.len = 64 ∧ r.got = [] ∧ d.length < 64) ∧
    (∃ (s : State) (c vf : Nat) (r : HostReq), Fetching s c r ∧ r.fn = vf + 2 ∧ 8 ≤ c ∧ r.ch = c ∧ r.timedOut = false) ∧
    (∃ (s : State) (vf : Nat) (r : HostReq), accepts s = true ∧ s.host.quarantine = [r] ∧ r.fn = vf + 2 ∧ tagReady s (vf + 2) = true) ∧
    (∃ (s : State) (vf c : Nat) (r : HostReq), HostOpen s ∧ s.host.failed = [r] ∧ r.fn = vf + 2 ∧ r.use = .fetch c ∧ (s.fn (.vf vf)).bme = true ∧ (s.fn (.vf vf)).ats = false ∧ tagReady s (vf + 2) = true) :=
  ⟨⟨fetching, 8, req0, desc1, by unfold Fetching HostOpen; decide +kernel⟩,
   ⟨fetching, 8, 1, req0, desc1, by unfold Fetching HostOpen; decide +kernel⟩,
   ⟨fw, 1, 5, wholeCpl req0 [], by unfold HostOpen; decide +kernel⟩,
   ⟨fetching, 8, 1, req0, [], by unfold Fetching HostOpen; decide +kernel⟩,
   ⟨fetching, 8, 1, req0, [1, 2], by unfold Fetching HostOpen; decide +kernel⟩,
   ⟨fetching, 8, 1, req0, by unfold Fetching HostOpen; decide +kernel⟩,
   ⟨onHost (fun h => { h with quarantine := [req0] }) fw, 1, req0, by decide +kernel⟩,
   ⟨onHost (fun h => { h with failed := [req0] }) (bus (chUp .fetching id)), 1, 8, req0, by unfold HostOpen; decide +kernel⟩⟩

theorem witness_FerryEngines :
    (∃ (s : State) (e c : Nat), CopyReady s e c) ∧
    (∃ (s : State) (e : Nat), accepts s = true ∧ (engReady s e = false ∨ (nextRestart s = none ∧ nextPrivileged s = none ∧ nextWaiting (creditLook s) = none))) ∧
    (∃ (s : State) (e o n : Nat) (r : EngRun) (d : Bytes), accepts s = true ∧ tfind s.ferry.engs e = some r ∧ r.wait = .fabricRead o n ∧ r.ch ≠ noCh ∧ 8 ≤ r.ch) ∧
    (∃ (s : State) (e o n : Nat) (r : EngRun) (d : Bytes), accepts s = true ∧ tfind s.ferry.engs e = some r ∧ r.wait = .fabricRead o n ∧ r.ch ≠ noCh ∧ 8 ≤ r.ch ∧ dOp (s.ch r.ch).desc = 1 ∧ r.w < dTotal (s.ch r.ch).desc ∧ r.buf = [] ∧ d.length = 64 ∧ o + n ≤ 64 ∧ n = dstRun (s.ch r.ch).desc r.w) ∧
    (∃ (s : State) (e : Nat) (r : EngRun), accepts s = true ∧ tfind s.ferry.engs e = some r ∧ r.wait = .finished ∧ 8 ≤ r.ch ∧ (s.ch r.ch).stop = false ∧ dFlag (s.ch r.ch).desc 0 = true ∧ dFlag (s.ch r.ch).desc 1 = false ∧ (s.ch r.ch).dbcount = (s.ch r.ch).cap) ∧
    (∃ (s : State) (e : Nat) (r : EngRun), accepts s = true ∧ tfind s.ferry.engs e = some r ∧ r.wait = .finished ∧ 8 ≤ r.ch ∧ (s.ch r.ch).stop = true) ∧
    (∃ (s : State) (e : Nat) (r : EngRun), accepts s = true ∧ tfind s.ferry.engs e = some r ∧ r.wait = .finished ∧ r.ch < 8) ∧
    (∃ (s : State) (p : Nat), pilotUp s = true ∧ p < 8 ∧ (s.pch p).busy = false ∧ areaHit s p = false) ∧
    (∃ (s : State) (p : Nat), pilotUp s = true ∧ areaHit s p = true) ∧
    (∃ (s : State) (p : Nat), pilotUp s = true ∧ (s.pch p).busy = true ∧ s.ferry.engs = []) ∧
    (∃ (s : State) (seq : BitVec 16) (c : Nat) (m : ChMap), pilotUp s = true ∧ s.ferry.lastSeq ≠ some seq ∧ s.ferry.mapsStaged = [(c, m)]) ∧
    (∃ (s : State) (seq : BitVec 16), pilotUp s = true ∧ s.ferry.lastSeq = some seq) ∧
    (∃ (s : State) (n : Nat), Quiet s ∧ (s.array n).run = none ∧ s.ferry.requests.contains (.press n) = false) ∧
    (∃ (s : State) (p : Peripheral), Quiet s) ∧
    (∃ (s : State) (b : Nat) (r : Bytes), Quiet s ∧ s.ferry.bursts = [.sampler b] ∧ s.ferry.requests = [.sampler b] ∧ (s.bp b).outbox = [r] ∧ leAt r 0 1 ≠ 5) ∧
    (∃ (s : State) (n b k line lines : Nat) (a : Armed) (u : Tile), Quiet s ∧ s.ferry.bursts = [.press n] ∧ feedBurst s n = some (k, line, lines) ∧ runTile s n = some (b, a, u)) ∧
    (∃ (s : State) (n : Nat), Quiet s ∧ s.ferry.bursts = [.press n] ∧ feedBurst s n = none) ∧
    (∃ (s : State) (e : Nat), Quiet s ∧ e < 8 ∧ (s.island (.ferry e)).service ≠ .failed ∧ tfind s.ferry.engs e = none) ∧
    (∃ (s : State) (e : Nat) (r : EngRun), Quiet s ∧ e < 8 ∧ (s.island (.ferry e)).service ≠ .failed ∧ tfind s.ferry.engs e = some r ∧ 8 ≤ r.ch ∧ r.ch < noCh) ∧
    (∃ (s : State) (e c : Nat) (x : FerryCh), accepts s = true ∧ engReady s e = true ∧ nextPrivileged s = none ∧ s.ferry.chs = [(c, x)] ∧ 8 ≤ c ∧ x.state = .waiting ∧ dOp x.desc = 1 ∧ x.rate ≠ 0xFF ∧ x.redo = false ∧ x.credit < 0) :=
  ⟨⟨copying, 7, 8, by unfold CopyReady; decide +kernel⟩,
   ⟨fw, 8, by decide +kernel⟩,
   ⟨engS 3 (run0 8 (.fabricRead 0 64)) copying, 3, 0, 64, run0 8 (.fabricRead 0 64), [], by decide +kernel⟩,
   ⟨engS 3 (run0 8 (.fabricRead 0 64)) copying, 3, 0, 64, run0 8 (.fabricRead 0 64), zeros 64, by decide +kernel⟩,
   ⟨engS 3 (run0 8 .finished) (chUp .running (fun x => { x with desc := desc1 })), 3, run0 8 .finished, by decide +kernel⟩,
   ⟨engS 3 (run0 8 .finished) (chUp .running (fun x => { x with desc := desc1, stop := true })), 3, run0 8 .finished, by decide +kernel⟩,
   ⟨engS 3 (run0 7 .finished) fw, 3, run0 7 .finished, by decide +kernel⟩,
   ⟨fw, 7, by decide +kernel⟩,
   ⟨onBoard (fun b => { b with areas := [(0, areaD)] }) (modPch fw 0 (fun x => { x with desc := [(19, 0xFF), (20, 0x0B), (40, 64), (50, 1)] })), 0, by decide +kernel⟩,
   ⟨modPch fw 7 (fun x => { x with busy := true }), 7, by decide +kernel⟩,
   ⟨onFerry (fun x => { x with mapsStaged := [(9, { valid := true, rel := 1, berth := 1 })] }) fw, 4, 9, { valid := true, rel := 1, berth := 1 }, by decide +kernel⟩,
   ⟨onFerry (fun x => { x with lastSeq := some 4 }) fw, 4, by decide +kernel⟩,
   ⟨fw, 15, by unfold Quiet; decide +kernel⟩,
   ⟨fw, .press 15, by unfold Quiet; decide +kernel⟩,
   ⟨bpS (onFerry (fun x => { x with bursts := [.sampler 1], requests := [.sampler 1] }) fw) 1 (fun x => { x with outbox := [recOf 1] }), 1, recOf 1, by unfold Quiet; decide +kernel⟩,
   ⟨arrayS (onFerry (fun x => { x with bursts := [.press 3] }) (tileS tileF)) 3 (fun x => { x with run := some (1, 7, 0, 0) }), 3, 1, 0, 5, 2, armed0 tileF, tileF, by unfold Quiet; decide +kernel⟩,
   ⟨onFerry (fun x => { x with bursts := [.press 3], requests := [.press 3] }) fw, 3, by unfold Quiet; decide +kernel⟩,
   ⟨fw, 7, by unfold Quiet; decide +kernel⟩,
   ⟨engS 7 (run0 8 .finished) (chUp .running id), 7, run0 8 .finished, by unfold Quiet; decide +kernel⟩,
   ⟨laneS (chUp .waiting (fun x => { x with desc := desc1, rate := 1, credit := -1 })) (.ferry 7), 7, 8, { chInit with state := .waiting, desc := desc1, rate := 1, credit := -1 }, by decide +kernel⟩⟩

theorem witness_HostConfiguration :
    (∃ (s : State) (f : Func) (r : UrReason), HostOpen s ∧ r ≠ .vendorType1 ∧ urHolds s f r = true) ∧
    (∃ (s : State) (f : Func) (p : Bool), HostOpen s) ∧
    (∃ (s : State) (f : Func) (v : Nat), HostOpen s ∧ fnExists s f = true ∧ v < 2 ∧ (s.fn f).msixPend = 1#10 <<< v ∧ (s.fn f).bme = true ∧ (s.fn f).ats = false) ∧
    (∃ (s : State) (f : Func) (v : Nat) (m e : Bool), HostOpen s ∧ fnExists s f = true ∧ v < 2 ∧ (s.fn f).msixPend = 0) ∧
    (∃ (s : State) (b v : Nat), HostOpen s ∧ vfExists s b = true ∧ v < 10 ∧ (s.fn (.vf b)).msixPend = 1#10 <<< v ∧ (s.fn (.vf b)).bme = true ∧ (s.fn (.vf b)).ats = true ∧ s.host.atc = [] ∧ s.host.reqs = [] ∧ s.host.failed = [] ∧ tagReady s (b + 2) = true) ∧
    (∃ (s : State) (f : Func), HostOpen s ∧ fnExists s f = true ∧ (s.fn f).msixPend = 0 ∧ s.host.events = []) ∧
    (∃ (s : State) (b c : Nat), HostOpen s ∧ vfExists s b = true ∧ berthChs s b = [c] ∧ (s.ch c).state = .waiting ∧ s.ferry.engs = [] ∧ s.host.reqs = []) ∧
    (∃ (s : State) (f : Func), HostOpen s ∧ (f = .pf0 ∨ f = .pf1) ∧ s.host.events = []) ∧
    (∃ (s : State) (b : Nat) (e : Bool), HostOpen s ∧ vfExists s b = true) ∧
    (∃ (s : State) (e : HostEvent) (rest : List HostEvent), commanded s = true ∧ s.host.events = e :: rest) :=
  ⟨⟨fw, .vf 4095, .memorySpaceOff, by unfold HostOpen; decide +kernel⟩,
   ⟨fw, .pf1, true, by unfold HostOpen; decide +kernel⟩,
   ⟨fw.setFn .pf0 { fnInit with msixPend := 2, bme := true }, .pf0, 1, by unfold HostOpen; decide +kernel⟩,
   ⟨fw, .pf1, 1, true, true, by unfold HostOpen; decide +kernel⟩,
   ⟨vf1.setFn (.vf 1) { fnInit with bme := true, ats := true, msixPend := 1 }, 1, 0, by unfold HostOpen; decide +kernel⟩,
   ⟨vf1, .vf 7, by unfold HostOpen; decide +kernel⟩,
   ⟨chUp .waiting id, 1, 8, by unfold HostOpen; decide +kernel⟩,
   ⟨fw, .pf1, by unfold HostOpen; decide +kernel⟩,
   ⟨vf1, 7, true, by unfold HostOpen; decide +kernel⟩,
   ⟨onHost (fun h => { h with events := [event1] }) fw, event1, [], by decide +kernel⟩⟩

theorem witness_Mailbox :
    (∃ (s : State) (code a b : Byte), OneFragment s .pf0 code a b ∧ (s.hslot 0).owner = none ∧ s.pilot.phase = .firmware ∧ s.host.events = []) ∧
    (∃ (s : State) (code a b : Byte), OneFragment s .pf0 code a b ∧ (s.hslot 0).owner = none ∧ s.pilot.phase = .halted) ∧
    (∃ (s : State) (code a b : Byte), OneFragment s .pf0 code a b ∧ (s.hslot 0).owner = none ∧ s.pilot.phase = .warm) ∧
    (∃ (s : State) (f : Func), HostOpen s ∧ fnExists s f = true ∧ (s.fn f).mse = true ∧ ((s.fn f).mbx = .serving ∨ (s.fn f).mbx = .responding)) ∧
    (∃ (s : State) (a b : Byte) (n : Nat), HostOpen s ∧ (s.fn .pf0).mse = true ∧ (s.fn .pf0).mbx = .idle ∧ (s.fn .pf0).slot = none ∧ (s.fn .pf0).got = 0 ∧ (s.fn .pf0).txLen = 256 ∧ (s.fn .pf0).txLast = false ∧ (s.hslot 0).owner = none ∧ 248 < n ∧ n ≤ 32768 ∧ mread 0 (s.fn .pf0).buf 0 8 = [0x13, 0, a, b] ++ toLe 4 n) ∧
    (∃ (s : State) (f : Func), HostOpen s ∧ fnExists s f = true ∧ (s.fn f).mse = true ∧ (s.fn f).mbx = .receiving ∧ (s.fn f).txBusy = true) ∧
    (∃ (s : State) (f : Func), HostOpen s ∧ fnExists s f = true ∧ (s.fn f).mse = true ∧ (s.fn f).mbx = .idle ∧ (s.fn f).txLen = 0) ∧
    (∃ (s : State) (code a b : Byte), OneFragment s .pf0 code a b ∧ (s.hslot 0).owner ≠ none) ∧
    (∃ (s : State) (f : Func), HostOpen s ∧ fnExists s f = true ∧ (s.fn f).mse = true ∧ (s.fn f).rxReady = false) ∧
    (∃ (s : State) (f : Func) (k : Nat), HostOpen s ∧ fnExists s f = true ∧ (s.fn f).mse = true ∧ (s.fn f).mbx = .responding ∧ (s.fn f).rxReady = true ∧ (s.fn f).rxLast = true ∧ (s.fn f).slot = some k) ∧
    (∃ (s : State) (f : Func), HostOpen s ∧ fnExists s f = true ∧ (s.fn f).mse = true ∧ (s.fn f).mbx = .receiving ∧ (s.fn f).slot = none ∧ s.host.events = []) ∧
    (∃ (s : State) (k : Nat), HostOpen s ∧ (s.fn .pf0).mse = true ∧ (s.fn .pf0).mbx = .serving ∧ (s.fn .pf0).slot = some k) ∧
    (∃ (s : State) (f : Func) (i : Instr), HostOpen s ∧ fnExists s f = true ∧ (s.fn f).mse = false ∧ (i = .mbxGo f ∨ i = .next f ∨ i = .mbxAbort f)) ∧
    (∃ (s : State) (f : Func), HostOpen s ∧ (s.fn f).mse = true ∧ (s.fn f).mbx = .idle) ∧
    (∃ (s : State) (f : Func), accepts s = true ∧ fnExists s f = true ∧ (s.fn f).mbx = .receiving) ∧
    (∃ (s : State) (k : BitVec 6) (f : Func), commanded s = true ∧ (s.hslot k.toNat).owner = some (fnIx f) ∧ fnIx f < 4098 ∧ (s.fn f).mbx = .serving ∧ (s.fn f).slot = some k.toNat) ∧
    (∃ (s : State) (k : BitVec 6), commanded s = true ∧ (s.hslot k.toNat).owner = some goneFn) ∧
    (∃ (s : State) (c : Byte), pilotUp s = true ∧ carries .pf0 c.toNat = false) ∧
    (∃ (s : State) (n : Nat) (c : Byte), pilotUp s = true ∧ s.pilot.ready = true ∧ vfExists s n = true ∧ carries (.vf n) c.toNat = false) ∧
    (∃ (s : State), pilotUp s = true) ∧
    (∃ (s : State) (m : Bytes), pilotUp s = true ∧ m ≠ []) :=
  ⟨⟨asking fw, 0x11, 3, 0, by unfold OneFragment HostOpen; decide +kernel⟩,
   ⟨asking (onPilot (fun p => { p with phase := .halted }) fw), 0x11, 3, 0, by unfold OneFragment HostOpen; decide +kernel⟩,
   ⟨asking (onPilot (fun p => { p with phase := .warm }) fw), 0x11, 3, 0, by unfold OneFragment HostOpen; decide +kernel⟩,
   ⟨fnS fw (fun x => { x with mbx := .serving }), .pf1, by unfold HostOpen; decide +kernel⟩,
   ⟨fw.setFn .pf0 { fnInit with mse := true, txLen := 256, buf := [(0, 0x13), (2, 3), (5, 4)] }, 3, 0, 1024, by unfold HostOpen; decide +kernel⟩,
   ⟨fnS fw (fun x => { x with mbx := .receiving, txBusy := true }), .pf1, by unfold HostOpen; decide +kernel⟩,
   ⟨fw, .pf1, by unfold HostOpen; decide +kernel⟩,
   ⟨owned 0 1 (asking fw), 0x11, 3, 0, by unfold OneFragment HostOpen; decide +kernel⟩,
   ⟨vf1, .vf 7, by unfold HostOpen; decide +kernel⟩,
   ⟨owned 1 1 (fnS fw (fun x => { x with mbx := .responding, rxReady := true, rxLast := true, slot := some 1 })), .pf1, 1, by unfold HostOpen; decide +kernel⟩,
   ⟨fnS fw (fun x => { x with mbx := .receiving }), .pf1, by unfold HostOpen; decide +kernel⟩,
   ⟨fw.setFn .pf0 { fw.fn .pf0 with mbx := .serving, slot := some 0 }, 0, by unfold HostOpen; decide +kernel⟩,
   ⟨fw.setFn .pf0 fnInit, .pf0, .mbxGo .pf0, by unfold HostOpen; decide +kernel⟩,
   ⟨fw, .pf0, by unfold HostOpen; decide +kernel⟩,
   ⟨owned 1 1 (fnS fw (fun x => { x with mbx := .receiving, slot := some 1 })), .pf1, by decide +kernel⟩,
   ⟨owned 1 1 (fnS fw (fun x => { x with mbx := .serving, slot := some 1 })), 1, .pf1, by decide +kernel⟩,
   ⟨owned 63 goneFn fw, 63, by decide +kernel⟩,
   ⟨fw, 0x15, by decide +kernel⟩,
   ⟨vf1, 7, 0x10, by decide +kernel⟩,
   ⟨fw, by decide +kernel⟩,
   ⟨fw, [0], by decide +kernel⟩⟩

theorem witness_HostResets :
    (∃ (s : State) (n : Nat), pilotUp s = true ∧ HostOpen s ∧ vfExists s n = true ∧ rinsable (s.berth n) = true ∧ openJob (s.bp n) = none) ∧
    (∃ (s : State) (n : Nat), HostOpen s ∧ vfExists s n = true ∧ (s.berth n).state = .free) ∧
    (∃ (s : State), HostOpen s) ∧
    (∃ (s : State), HostOpen s ∧ s.host.vfEnable = false) ∧
    (∃ (s : State) (n : Nat), HostOpen s ∧ s.host.vfEnable = false) ∧
    (∃ (s : State), HostOpen s ∧ s.host.vfEnable = true ∧ s.host.numVfs = 0 ∧ s.host.events = []) ∧
    (∃ (s : State), HostOpen s ∧ s.host.vfEnable = false) :=
  ⟨⟨vf1.setBerth 7 { berthInit with state := .running }, 7, by unfold HostOpen; decide +kernel⟩,
   ⟨vf1, 0, by unfold HostOpen; decide +kernel⟩,
   ⟨rom, by unfold HostOpen; decide +kernel⟩,
   ⟨fw, by unfold HostOpen; decide +kernel⟩,
   ⟨fw, 5000, by unfold HostOpen; decide +kernel⟩,
   ⟨onHost (fun h => { h with vfEnable := true }) fw, by unfold HostOpen; decide +kernel⟩,
   ⟨fw, by unfold HostOpen; decide +kernel⟩⟩

theorem witness_Translation :
    (∃ (s : State) (b range : Nat) (w : Bool) (r : HostReq) (c : TransCpl), Asking s b range w r ∧ s.ferry.engs = [] ∧ berthChs s b = [] ∧ (s.fn (.vf b)).msixWait = 0 ∧ c.status = .ok ∧ c.canRead = true ∧ c.untransOnly = false ∧ 2097152 ≤ c.size ∧ s.host.atc = []) ∧
    (∃ (s : State) (b ch range : Nat) (w : Bool) (r : HostReq) (c : TransCpl), Asking s b range w r ∧ s.ferry.engs = [] ∧ berthChs s b = [ch] ∧ (s.ch ch).state = .fetching ∧ (s.ch ch).stuck = some range ∧ c.status = .ur) ∧
    (∃ (s : State) (b tag : Nat) (c : TransCpl), HostOpen s ∧ s.host.quarantine = [] ∧ s.host.reqs = []) ∧
    (∃ (s : State) (b itag base size : Nat), HostOpen s ∧ vfExists s b = true ∧ (s.fn (.vf b)).ats = true) ∧
    (∃ (s : State) (b itag base size : Nat), HostOpen s ∧ vfExists s b = true ∧ (s.fn (.vf b)).ats = false) ∧
    (∃ (s : State) (b : Nat) (v : Inval), HostOpen s ∧ s.host.invals = [v] ∧ v.fn = b + 2 ∧ v.waiting = []) ∧
    (∃ (s : State) (b : Nat) (v : Inval), HostOpen s ∧ s.host.invals = [v] ∧ v.fn = b + 2 ∧ v.waiting ≠ []) ∧
    (∃ (s : State) (b : Nat) (p : PageReq), HostOpen s ∧ s.host.pages = [p] ∧ p.fn = b + 2 ∧ p.dead = false ∧ s.ferry.engs = [] ∧ berthChs s b = [] ∧ (s.fn (.vf b)).msixWait = 0) ∧
    (∃ (s : State) (b : Nat) (p : PageReq), HostOpen s ∧ s.host.pages = [p] ∧ p.fn = b + 2 ∧ p.dead = false ∧ s.ferry.engs = [] ∧ berthChs s b = []) ∧
    (∃ (s : State) (b i : Nat) (r : PrgCode), HostOpen s ∧ s.host.pages = []) ∧
    (∃ (s : State) (b e : Nat) (p : PageReq) (r : EngRun), accepts s = true ∧ s.host.pages = [p] ∧ p.fn = b + 2 ∧ p.dead = false ∧ s.ferry.engs = [(e, r)] ∧ r.wait = .page p.range ∧ 8 ≤ r.ch ∧ r.ch < noCh ∧ chFn s r.ch = b + 2 ∧ berthChs s b = []) ∧
    (∃ (s : State) (b : Nat) (p : PageReq), accepts s = true ∧ s.host.pages = [p] ∧ p.fn = b + 2 ∧ s.ferry.engs = [] ∧ berthChs s b = [] ∧ (s.fn (.vf b)).msixWait = 0) :=
  ⟨⟨trS false, 1, 3, false, treq false, tcpl, by unfold Asking HostOpen; decide +kernel⟩,
   ⟨onHost (fun h => { h with reqs := [treq false] }) (chUp .fetching (fun x => { x with stuck := some 3 })), 1, 8, 3, false, treq false, { tcpl with status := .ur }, by unfold Asking HostOpen; decide +kernel⟩,
   ⟨fw, 1, 5, tcpl, by unfold HostOpen; decide +kernel⟩,
   ⟨withAts vf1, 1, 31, 0, 4096, by unfold HostOpen; decide +kernel⟩,
   ⟨vf1, 1, 31, 0, 4096, by unfold HostOpen; decide +kernel⟩,
   ⟨onHost (fun h => { h with invals := [{ fn := 3, itag := 2, waiting := [] }] }) fw, 1, { fn := 3, itag := 2, waiting := [] }, by unfold HostOpen; decide +kernel⟩,
   ⟨onHost (fun h => { h with invals := [{ fn := 3, itag := 2, waiting := [5] }] }) fw, 1, { fn := 3, itag := 2, waiting := [5] }, by unfold HostOpen; decide +kernel⟩,
   ⟨pagesS [page0], 1, page0, by unfold HostOpen; decide +kernel⟩,
   ⟨pagesS [page0], 1, page0, by unfold HostOpen; decide +kernel⟩,
   ⟨fw, 1, 4, .success, by unfold HostOpen; decide +kernel⟩,
   ⟨engS 2 (run0 9 (.page 6)) (onFerry (fun x => { x with maps := [(9, { valid := false, rel := 0, berth := 1 })] }) (pagesS [page0])), 1, 2, page0, run0 9 (.page 6), by decide +kernel⟩,
   ⟨pagesS [{ page0 with dead := true }], 1, { page0 with dead := true }, by decide +kernel⟩⟩

theorem witness_Journal :
    (∃ (s : State) (r : Bytes) (rest : List Bytes), pilotUp s = true ∧ s.jrn.buffer = r :: rest ∧ journalSectors s ≠ 0 ∧ freeSlot s s.jrn.sector s.jrn.slot < 1024 ∧ s.jrn.dropped = none ∧ leAt r 8 2 ≠ 2) ∧
    (∃ (s : State) (r : Bytes) (rest : List Bytes), pilotUp s = true ∧ s.jrn.buffer = r :: rest ∧ journalSectors s ≠ 0 ∧ freeSlot s s.jrn.sector s.jrn.slot < 1024 ∧ s.jrn.dropped = none ∧ leAt r 8 2 = 2) ∧
    (∃ (s : State) (start : Nat), freeSlot s s.jrn.sector start < 1024) ∧
    (∃ (s : State) (r u : Bytes) (rest : List Bytes) (st : Word), pilotUp s = true ∧ s.jrn.buffer = r :: rest ∧ journalSectors s ≠ 0 ∧ freeSlot s s.jrn.sector s.jrn.slot < 1024 ∧ s.jrn.fails = 0) ∧
    (∃ (r u : Bytes), r.length = 64 ∧ (tornRecord r u).take 60 ≠ r.take 60) ∧
    (∃ (s : State) (r u : Bytes) (rest : List Bytes) (st : Word), pilotUp s = true ∧ s.jrn.buffer = r :: rest ∧ journalSectors s ≠ 0 ∧ freeSlot s s.jrn.sector s.jrn.slot < 1024 ∧ s.jrn.fails ≠ 0 ∧ s.pilot.ready = true) ∧
    (∃ (s : State) (r : Bytes) (rest : List Bytes), pilotUp s = true ∧ s.jrn.buffer = r :: rest ∧ journalSectors s ≠ 0 ∧ 1024 ≤ freeSlot s s.jrn.sector s.jrn.slot ∧ s.jrn.index < 2 ^ 32 - 1) ∧
    (∃ (s : State) (r : Bytes) (rest : List Bytes) (st : Word), pilotUp s = true ∧ s.jrn.buffer = r :: rest ∧ journalSectors s ≠ 0 ∧ 1024 ≤ freeSlot s s.jrn.sector s.jrn.slot ∧ s.jrn.index < 2 ^ 32 - 1 ∧ s.jrn.fails = 0) ∧
    (∃ (s : State) (r : Bytes) (rest : List Bytes) (e : FlashEnd), pilotUp s = true ∧ s.jrn.buffer = r :: rest ∧ journalSectors s ≠ 0 ∧ 1024 ≤ freeSlot s s.jrn.sector s.jrn.slot ∧ 2 ^ 32 - 1 ≤ s.jrn.index) ∧
    (∃ (s : State) (e : FlashEnd), pilotUp s = true ∧ s.jrn.buffer = []) ∧
    (∃ (s : State), commanded s = true ∧ s.ring.eid ≠ 0 ∧ ((∀ k, (tget notifyInit s.ring.notify k).holdoff = false))) ∧
    (∃ (s : State), commanded s = true ∧ s.ring.eid = 0) ∧
    (∃ (s : State), commanded s = true) ∧
    (∃ (s : State) (v : Word), HostOpen s ∧ (s.fn .pf0).mse = true) ∧
    (∃ (s : State), pilotUp s = true) ∧
    (∃ (s : State), pilotUp s = true ∧ s.jrn.countersDirty = false) ∧
    (∃ (s : State), pilotUp s = true ∧ s.jrn.countersDirty = true ∧ s.jrn.scanned = true ∧ s.jrn.index < 2 ^ 32 - 1 ∧ s.jrn.buffer.length < 256) ∧
    (∃ (s : State) (m : Bytes), pilotUp s = true ∧ (m.length ≠ 10 ∨ leAt m 8 2 = 0 ∨ 500 < leAt m 8 2)) ∧
    (∃ (s : State) (m : Bytes), pilotUp s = true ∧ m.length = 10 ∧ 1 ≤ leAt m 8 2 ∧ leAt m 8 2 ≤ 500) ∧
    (∃ (s : State), pilotUp s = true) ∧
    (∃ (s : State) (m : Bytes), pilotUp s = true ∧ m ≠ []) ∧
    (∃ (s : State) (m : Bytes), pilotUp s = true ∧ m.length ≠ 7472) ∧
    (∃ (s : State) (m : Bytes), pilotUp s = true) ∧
    (∃ (s : State) (m : Bytes), m.length = 7472 ∧ allZero (slice m 57 3) = true ∧ leAt m 56 1 ≤ 3 ∧ s.pilot.timeNonce = none) :=
  ⟨⟨jrnS, zeros 64, [], by decide +kernel⟩,
   ⟨onJrn (fun j => { j with buffer := [zeros 8 ++ [2, 0] ++ zeros 54] }) jrnS, zeros 8 ++ [2, 0] ++ zeros 54, [], by decide +kernel⟩,
   ⟨jrnS, 0, by decide +kernel⟩,
   ⟨jrnS, zeros 64, [], [], 5, by decide +kernel⟩,
   ⟨zeros 64, [1], by decide +kernel⟩,
   ⟨onJrn (fun j => { j with fails := 1 }) jrnS, zeros 64, [], [], 5, by decide +kernel⟩,
   ⟨onJrn (fun j => { j with slot := 1024 }) jrnS, zeros 64, [], by decide +kernel⟩,
   ⟨onJrn (fun j => { j with slot := 1024 }) jrnS, zeros 64, [], 5, by decide +kernel⟩,
   ⟨onJrn (fun j => { j with slot := 1024, index := 2 ^ 32 - 1 }) jrnS, zeros 64, [], .ok, by decide +kernel⟩,
   ⟨fw, .ok, by decide +kernel⟩,
   ⟨onRing (fun r => { r with eid := 9 }) fw, ⟨by decide +kernel, by decide +kernel, fun _ => rfl⟩⟩,
   ⟨fw, by decide +kernel⟩,
   ⟨rom, by decide +kernel⟩,
   ⟨fw, 3, by unfold HostOpen; decide +kernel⟩,
   ⟨fw, by decide +kernel⟩,
   ⟨fw, by decide +kernel⟩,
   ⟨onJrn (fun j => { j with countersDirty := true, scanned := true }) fw, by decide +kernel⟩,
   ⟨fw, zeros 10, by decide +kernel⟩,
   ⟨fw, zeros 8 ++ [0xF4, 1], by decide +kernel⟩,
   ⟨fw, by decide +kernel⟩,
   ⟨fw, [1], by decide +kernel⟩,
   ⟨fw, [], by decide +kernel⟩,
   ⟨fw, [], by decide +kernel⟩,
   ⟨fw, zeros 7472, by decide +kernel⟩⟩

theorem witness_TimeNonce :
    (∃ (s : State), pilotUp s = true ∧ s.vault.drbgOk = true) ∧
    (∃ (s : State), pilotUp s = true ∧ s.vault.drbgOk = false) ∧
    (∃ (s : State), accepts s = true) ∧
    (∃ (s : State) (m : Bytes), pilotUp s = true ∧ m ≠ []) :=
  ⟨⟨fw, by decide +kernel⟩,
   ⟨onVault (fun v => { v with drbgOk := false }) fw, by decide +kernel⟩,
   ⟨rom, by decide +kernel⟩,
   ⟨fw, [1], by decide +kernel⟩⟩

theorem witness_RegisterWrites :
    (∃ (s : State) (v : Word), commanded s = true) ∧
    (∃ (s : State) (v : Word), commanded s = true ∧ s.vault.busy = false) ∧
    (∃ (s : State) (v : Word), commanded s = true ∧ s.vault.busy = true) ∧
    (∃ (s : State) (a : Nat) (v : Word), commanded s = true ∧ ((a % 4 ≠ 0 ∧ ((sramAt a).isSome = true ∨ (blockAt a).isSome = true)) ∨ a < 0x10000000 ∨ 0x37000000 ≤ a)) ∧
    (∃ (s : State) (a : Nat) (v : Word) (half : Bool), commanded s = true ∧ 0x20000000 ≤ a ∧ a < 0x37000000 ∧ blockAt a = none) ∧
    (∃ (s : State) (a : Nat) (v : Word) (half : Bool), commanded s = true ∧ (blockAt a).isSome = true) ∧
    (∃ (s : State) (a : Nat) (v : Word), commanded s = false) ∧
    (∃ (s : State) (v : Word), accepts s = true ∧ inserted s = true ∧ mboxOpen s = true) ∧
    (∃ (s : State) (a : Nat) (v : Word), accepts s = true ∧ mboxOpen s = false) ∧
    (∃ (s : State) (f : Func) (v : Word), HostOpen s ∧ fnExists s f = true ∧ (s.fn f).mse = true) ∧
    (∃ (s : State) (b c : Nat) (v : Word), HostOpen s ∧ vfExists s b = true ∧ (s.fn (.vf b)).mse = true ∧ (s.berth b).state ≠ .rinsing ∧ runCh s b 0 = some c ∧ (s.ch c).state = .idle) ∧
    (∃ (s : State) (b c : Nat) (v : Word), HostOpen s ∧ vfExists s b = true ∧ (s.fn (.vf b)).mse = true ∧ (s.berth b).state ≠ .rinsing ∧ runCh s b 0 = some c ∧ (s.ch c).state = .running) ∧
    (∃ (s : State) (b a : Nat) (v : Word), accepts s = true ∧ vfExists s b = false) ∧
    (∃ (s : State) (f : Func) (v : Word), HostOpen s ∧ fnExists s f = true) ∧
    (∃ (s : State) (f : Func) (v w : Word) (x : Byte), HostOpen s ∧ fnExists s f = true ∧ (s.fn f).mse = true) ∧
    (∃ (s : State) (f : Func) (a : Nat) (v w : Word), HostOpen s ∧ fnExists s f = true ∧ (s.fn f).mse = true ∧ a % 4 ≠ 0) ∧
    (∃ (s : State) (f : Func) (a : Nat) (v w : Word), HostOpen s ∧ fnExists s f = true ∧ (s.fn f).mse = true ∧ a % 8 ≠ 0) ∧
    (∃ (s : State) (f : Func) (a len : Nat) (v : Word), HostOpen s ∧ fnExists s f = true ∧ (s.fn f).mse = false) ∧
    (∃ (s : State) (f : Func) (v : Word), HostOpen s ∧ fnExists s f = true) :=
  ⟨⟨fw, 7, by decide +kernel⟩,
   ⟨fw, 7, by decide +kernel⟩,
   ⟨onVault (fun v => { v with busy := true }) fw, 7, by decide +kernel⟩,
   ⟨fw, 0x21000016, 7, by decide +kernel⟩,
   ⟨fw, 0x2F000000, 7, true, by decide +kernel⟩,
   ⟨fw, 0x20000004, 7, true, by decide +kernel⟩,
   ⟨onPilot (fun p => { p with phase := .halted }) fw, 0x21000014, 7, by decide +kernel⟩,
   ⟨onPins (fun p => { p with ir := .lcMbox }) (ins fw), 7, by decide +kernel⟩,
   ⟨fw, 0x220000C8, 7, by decide +kernel⟩,
   ⟨vf1, .vf 7, 7, by unfold HostOpen; decide +kernel⟩,
   ⟨chUp .idle id, 1, 8, 7, by unfold HostOpen; decide +kernel⟩,
   ⟨chUp .running id, 1, 8, 7, by unfold HostOpen; decide +kernel⟩,
   ⟨vf1, 8, 0x100, 7, by decide +kernel⟩,
   ⟨vf1, .vf 7, 7, by unfold HostOpen; decide +kernel⟩,
   ⟨fw, .pf0, 1, 2, 3, by unfold HostOpen; decide +kernel⟩,
   ⟨fw, .pf0, 1, 0, 0, by unfold HostOpen; decide +kernel⟩,
   ⟨fw, .pf0, 4, 0, 0, by unfold HostOpen; decide +kernel⟩,
   ⟨fw.setFn .pf0 fnInit, .pf0, 0, 4, 0, by unfold HostOpen; decide +kernel⟩,
   ⟨fw, .pf0, 0, by unfold HostOpen; decide +kernel⟩⟩

theorem witness_SramStores :
    (∃ (s : State) (i : Nat) (v : Word), commanded s = true ∧ i % 4 = 0 ∧ i < 0x200000 ∧ ((s.pilot.codeLocked = true → s.pilot.codeLen ≤ i)) ∧ Memory.wf 0 s.pilot.sram = true) ∧
    (∃ (s : State) (i : Nat) (v : Word) (half : Bool), commanded s = true ∧ ((half = true → i % 2 = 0)) ∧ i < 0x200000 ∧ ((s.pilot.codeLocked = true → s.pilot.codeLen ≤ i)) ∧ Memory.wf 0 s.pilot.sram = true) ∧
    (∃ (s : State) (i : Nat) (v : Word), commanded s = true ∧ i % 4 = 0 ∧ i < 0x200000 ∧ s.pilot.codeLocked = true ∧ i < s.pilot.codeLen) :=
  ⟨⟨onPilot (fun p => { p with codeLocked := true, codeLen := 8 }) fw, 8, 7, by decide +kernel⟩,
   ⟨fw, 5, 7, false, by decide +kernel⟩,
   ⟨onPilot (fun p => { p with codeLocked := true, codeLen := 8 }) fw, 4, 7, by decide +kernel⟩⟩

theorem witness_StepRunsFront :
    (∃ (c : Instr) (rest : List Instr) (s : State), s.pending = c :: rest) ∧
    (∃ (s : State), s.pending = []) :=
  ⟨⟨.fuseTackCommit, [], { fw with pending := [.fuseTackCommit] }, by decide +kernel⟩,
   ⟨fw, by decide +kernel⟩⟩

theorem witness_AlwaysOnDomains :
    (∃ (s t : State), AlwaysOn s ∧ step s = .next t) :=
  ⟨fw, fw, by unfold AlwaysOn; exact ⟨by decide +kernel, rfl⟩⟩

/-! ### Well-formedness: one ill-formed term for each check, which the check refuses -/

theorem test_ill_formed_1 :
    (∀ x1 x2, wellFormed (.pllLockLoss (.pier 154) x1 x2) = false) ∧
    (wellFormed (.pwrDomainOn 20) = false) ∧
    (wellFormed (.pwrDomainOff 20) = false) ∧
    (wellFormed (.domainPowerUpDone 20) = false) ∧
    (wellFormed (.islandSelfTestStart (.pier 154)) = false) ∧
    (∀ x1, wellFormed (.islandSelfTestDone (.pier 154) x1) = false) ∧
    (∀ x1, wellFormed (.coreIslandSelfTestDone (.pier 154) x1) = false) ∧
    (∀ x1, wellFormed (.microcodeCrcReturn (.pier 154) x1) = false) ∧
    (∀ x1, wellFormed (.boardingReply 12 x1) = false) ∧
    (∀ x1, wellFormed (.loadAck 12 x1) = false) ∧
    (wellFormed (.send 12) = false) ∧
    (wellFormed (.abort 12) = false) ∧
    (wellFormed (.rxReadyClear 12) = false) ∧
    (∀ x1, wellFormed (.siteReplyAssembled 12 x1) = false) ∧
    (wellFormed (.siteReplyTimeout 12) = false) ∧
    (wellFormed (.sidebandDown 12) = false) ∧
    (wellFormed (.invalidation (.pier 154)) = false) ∧
    (wellFormed (.invalidationAck (.pier 154)) = false) ∧
    (wellFormed (.keyFillArrive (.pier 154)) = false) :=
  ⟨fun _ _ => rfl, rfl, rfl, rfl, rfl, fun _ => rfl, fun _ => rfl, fun _ => rfl, fun _ => rfl, fun _ => rfl, rfl, rfl, rfl, fun _ => rfl, rfl, rfl, rfl, rfl, rfl⟩

theorem test_ill_formed_2 :
    (wellFormed (.sweepDoneReport 154) = false) ∧
    (∀ x1, wellFormed (.hello 4096 x1) = false) ∧
    (∀ x1, wellFormed (.prirdoRelease 4096 x1) = false) ∧
    (∀ x1, wellFormed (.prirdoEnd 4096 x1) = false) ∧
    (∀ x1, wellFormed (.prirdoReservedType 4096 x1) = false) ∧
    (wellFormed (.prirdoSessionTimeout 7) = false) ∧
    (wellFormed (.berthCommitContinue 4096) = false) ∧
    (∀ x1 x2, wellFormed (.wipeAck 12 x1 x2) = false) ∧
    (wellFormed (.wipeTimeout 12) = false) ∧
    (wellFormed (.rinseStepDone 4096) = false) ∧
    (wellFormed (.rinseSequencerTakeover 4096) = false) ∧
    (wellFormed (.laneCommandAccept (.pier 154)) = false) ∧
    (∀ x1, wellFormed (.pierLine 154 x1) = false) ∧
    (∀ x1 x2, wellFormed (.pierReadReturn 154 x1 x2) = false) ∧
    (wellFormed (.pierScrubWrite 154) = false) ∧
    (wellFormed (.pierZeroWrite 154) = false) ∧
    (wellFormed (.uninitFillWrite 154) = false) ∧
    (∀ x1 x2, wellFormed (.pierSweepLine 154 x1 x2) = false) ∧
    (∀ x2 x3, wellFormed (.pairCompletionRead 154 0 x2 x3) = false) ∧
    (∀ x2 x3, wellFormed (.pairCompletionRead 0 4 x2 x3) = false) :=
  ⟨rfl, fun _ => rfl, fun _ => rfl, fun _ => rfl, fun _ => rfl, rfl, rfl, fun _ _ => rfl, rfl, rfl, rfl, rfl, fun _ => rfl, fun _ _ => rfl, rfl, rfl, rfl, fun _ _ => rfl, fun _ _ => rfl, fun _ _ => rfl⟩

theorem test_ill_formed_3 :
    (wellFormed (.pierCommitDrainDone 154) = false) ∧
    (∀ x1, wellFormed (.pierPark 154 x1) = false) ∧
    (∀ x1, wellFormed (.pierCommitGo (.group 9) x1) = false) ∧
    (wellFormed (.pierZeroGo (.group 9)) = false) ∧
    (wellFormed (.pierZeroUninit (.group 9)) = false) ∧
    (wellFormed (.capturePinRetry 4096) = false) ∧
    (∀ x1 x2 x3, wellFormed (.darn (.pier 154) x1 x2 x3) = false) ∧
    (wellFormed (.broadcastAckTimeout (.pier 154)) = false) ∧
    (wellFormed (.spotTestStart (.gangway 4)) = false) ∧
    (∀ x1, wellFormed (.spotTestEnd (.gangway 4) x1) = false) ∧
    (wellFormed (.broadcast (.gate 4096)) = false) ∧
    (wellFormed (.broadcastAck (.pier 154)) = false) ∧
    (wellFormed (.linkTrainedEvent 52) = false) ∧
    (wellFormed (.linkLayerDown 52) = false) ∧
    (∀ x1, wellFormed (.linkHello 52 x1) = false) ∧
    (∀ x1, wellFormed (.linkKex 52 x1) = false) ∧
    (∀ x1, wellFormed (.linkEvidence 52 x1) = false) ∧
    (∀ x1, wellFormed (.linkFin 52 x1) = false) ∧
    (∀ x1, wellFormed (.linkError 52 x1) = false) ∧
    (∀ x1, wellFormed (.keepalive 52 x1) = false) :=
  ⟨rfl, fun _ => rfl, fun _ => rfl, rfl, rfl, rfl, fun _ _ _ => rfl, rfl, rfl, fun _ => rfl, rfl, rfl, rfl, rfl, fun _ => rfl, fun _ => rfl, fun _ => rfl, fun _ => rfl, fun _ => rfl, fun _ => rfl⟩

theorem test_ill_formed_4 :
    (∀ x1, wellFormed (.rekey 52 x1) = false) ∧
    (∀ x1, wellFormed (.jobOffer 52 x1) = false) ∧
    (∀ x1, wellFormed (.jobAccept 52 x1) = false) ∧
    (∀ x1, wellFormed (.discover 52 x1) = false) ∧
    (∀ x1, wellFormed (.echo 52 x1) = false) ∧
    (∀ x1, wellFormed (.formed 52 x1) = false) ∧
    (∀ x1, wellFormed (.route 52 x1) = false) ∧
    (∀ x1, wellFormed (.payload 52 x1) = false) ∧
    (∀ x1, wellFormed (.reservedKindFrame 52 x1) = false) ∧
    (wellFormed (.linkHelloTimeout 52) = false) ∧
    (wellFormed (.linkReopenTimer 52) = false) ∧
    (wellFormed (.linkSilenceTimeout 52) = false) ∧
    (wellFormed (.keepaliveTimer 52) = false) ∧
    (wellFormed (.creditWithholdTimeout 52) = false) ∧
    (wellFormed (.jobOfferRetry 52) = false) ∧
    (∀ x1, wellFormed (.rekeyThreshold 52 x1) = false) ∧
    (wellFormed (.close 52) = false) ∧
    (∀ x1, wellFormed (.gwPark 52 x1) = false) ∧
    (∀ x1, wellFormed (.gwCommitGo (.lane 52) x1) = false) ∧
    (wellFormed (.gwCfSend 52) = false) :=
  ⟨fun _ => rfl, fun _ => rfl, fun _ => rfl, fun _ => rfl, fun _ => rfl, fun _ => rfl, fun _ => rfl, fun _ => rfl, fun _ => rfl, rfl, rfl, rfl, rfl, rfl, rfl, fun _ => rfl, rfl, fun _ => rfl, fun _ => rfl, rfl⟩

theorem test_ill_formed_5 :
    (wellFormed (.gwCfRxFree 52) = false) ∧
    (∀ x1, wellFormed (.jobOpen 4096 x1) = false) ∧
    (∀ x1, wellFormed (.jobClose 4096 x1) = false) ∧
    (wellFormed (.jobCloseComplete 4096) = false) ∧
    (∀ x1 x2, wellFormed (.pressDeclPort 4096 x1 x2) = false) ∧
    (∀ x1, wellFormed (.declare 12 x1) = false) ∧
    (wellFormed (.declHeadCheck 4096) = false) ∧
    (wellFormed (.declArm 4096) = false) ∧
    (wellFormed (.rangeDone 154 0) = false) ∧
    (wellFormed (.rangeDone 0 1024) = false) ∧
    (∀ x1 x2, wellFormed (.operandWaitTimeout 4096 x1 x2) = false) ∧
    (wellFormed (.tileDispatch 16) = false) ∧
    (∀ x1, wellFormed (.tileComplete 16 x1) = false) ∧
    (∀ x1, wellFormed (.arrayFault 16 x1) = false) ∧
    (wellFormed (.verdictApply 4096) = false) ∧
    (∀ x1, wellFormed (.pressVerdictCons 4096 x1) = false) ∧
    (wellFormed (.pressRegionCommit 4096) = false) ∧
    (∀ x1, wellFormed (.pressPark 16 x1) = false) ∧
    (wellFormed (.holdCheck 512) = false) ∧
    (∀ x1, wellFormed (.holdQuery 4096 x1) = false) :=
  ⟨rfl, fun _ => rfl, fun _ => rfl, rfl, fun _ _ => rfl, fun _ => rfl, rfl, rfl, rfl, rfl, fun _ _ => rfl, rfl, fun _ => rfl, fun _ => rfl, rfl, fun _ => rfl, rfl, fun _ => rfl, rfl, fun _ => rfl⟩

theorem test_ill_formed_6 :
    (∀ x1, wellFormed (.jobPeers 4096 x1) = false) ∧
    (∀ x1, wellFormed (.pairPoint 4096 x1) = false) ∧
    (∀ x1, wellFormed (.pairStatus 4096 x1) = false) ∧
    (wellFormed (.pairCursorDone 154 0) = false) ∧
    (wellFormed (.pairCursorDone 0 4) = false) ∧
    (∀ x1, wellFormed (.pairDigestTimeout 4096 x1) = false) ∧
    (∀ x1, wellFormed (.pairVerdictTimeout 4096 x1) = false) ∧
    (∀ x1 x2 x3, wellFormed (.idleTestReport 12 x1 x2 x3) = false) ∧
    (wellFormed (.idleTestTimeout 12) = false) ∧
    (wellFormed (.ferryChDoorbell 4096 0) = false) ∧
    (wellFormed (.ferryChDoorbell 0 8) = false) ∧
    (wellFormed (.stop 4096 0) = false) ∧
    (wellFormed (.stop 0 8) = false) ∧
    (wellFormed (.skip 4096 0) = false) ∧
    (wellFormed (.skip 0 8) = false) ∧
    (wellFormed (.resume 4096 0) = false) ∧
    (wellFormed (.resume 0 8) = false) ∧
    (∀ x1, wellFormed (.descriptorFetchDone 512 x1) = false) ∧
    (wellFormed (.engineStart 8) = false) ∧
    (wellFormed (.descriptorDone 8) = false) :=
  ⟨fun _ => rfl, fun _ => rfl, fun _ => rfl, rfl, rfl, fun _ => rfl, fun _ => rfl, fun _ _ _ => rfl, rfl, rfl, rfl, rfl, rfl, rfl, rfl, rfl, rfl, fun _ => rfl, rfl, rfl⟩

theorem test_ill_formed_7 :
    (∀ x1 x2, wellFormed (.hostCompletion (.vf 4096) x1 x2) = false) ∧
    (∀ x1 x2, wellFormed (.fabricResponse 8 x1 x2) = false) ∧
    (∀ x1, wellFormed (.hostRequestRetry (.vf 4096) x1) = false) ∧
    (∀ x1, wellFormed (.completionTimeout (.vf 4096) x1) = false) ∧
    (∀ x1, wellFormed (.tagQuarantineExpiry (.vf 4096) x1) = false) ∧
    (wellFormed (.ferryPchGo 8) = false) ∧
    (wellFormed (.ferryPchAbort 8) = false) ∧
    (∀ x1, wellFormed (.peripheralRequest (.press 16) x1) = false) ∧
    (wellFormed (.peripheralBurstDone (.press 16)) = false) ∧
    (wellFormed (.ferryEngineFault 8) = false) ∧
    (wellFormed (.islandRestart (.pier 154)) = false) ∧
    (∀ x1 x2, wellFormed (.hostUnsupportedRequest (.vf 4096) x1 x2) = false) ∧
    (wellFormed (.mbxGo (.vf 4096)) = false) ∧
    (wellFormed (.next (.vf 4096)) = false) ∧
    (wellFormed (.mbxAbort (.vf 4096)) = false) ∧
    (wellFormed (.mbxExpiry (.vf 4096)) = false) ∧
    (∀ x1, wellFormed (.mailboxUnknownCode (.vf 4096) x1) = false) ∧
    (wellFormed (.flr (.vf 4096)) = false) ∧
    (wellFormed (.busMasterClear (.vf 4096)) = false) ∧
    (wellFormed (.busMasterSet (.vf 4096)) = false) :=
  ⟨fun _ _ => rfl, fun _ _ => rfl, fun _ => rfl, fun _ => rfl, fun _ => rfl, rfl, rfl, fun _ => rfl, rfl, rfl, rfl, fun _ _ => rfl, rfl, rfl, rfl, rfl, fun _ => rfl, rfl, rfl, rfl⟩

theorem test_ill_formed_8 :
    (∀ x1 x2 x3, wellFormed (.invalidateRequest (.vf 4096) x1 x2 x3) = false) ∧
    (wellFormed (.invalidateCompletion (.vf 4096)) = false) ∧
    (∀ x1 x2, wellFormed (.translationCompletion (.vf 4096) x1 x2) = false) ∧
    (∀ x1 x2, wellFormed (.prgResponse (.vf 4096) x1 x2) = false) ∧
    (∀ x1, wellFormed (.pageRequestTimeout (.vf 4096) x1) = false) ∧
    (∀ x1, wellFormed (.pageRequestIndexRelease (.vf 4096) x1) = false) ∧
    (∀ x1 x2, wellFormed (.registerWrite (.bar (.vf 4096)) x1 x2) = false) ∧
    (∀ x2 x3, wellFormed (.msixMaskChange (.vf 4096) 0 x2 x3) = false) ∧
    (∀ x2 x3, wellFormed (.msixMaskChange .pf0 10 x2 x3) = false) ∧
    (∀ x1, wellFormed (.priEnableChange (.vf 4096) x1) = false) :=
  ⟨fun _ _ _ => rfl, rfl, fun _ _ => rfl, fun _ _ => rfl, fun _ => rfl, fun _ => rfl, fun _ _ => rfl, fun _ _ => rfl, fun _ _ => rfl, fun _ => rfl⟩

/-- The alternatives of each kind of target, at the first number past the range. -/
theorem test_ill_formed_targets :
    [Island.pier 154, .gangway 52, .press 16, .ferry 8].all (fun i => !islandOk i) = true ∧
    [PierTarget.pier 154, .group 9].all (fun t => !pierTargetOk t) = true ∧
    [GwTarget.lane 52, .group 4].all (fun t => !gwTargetOk t) = true ∧
    [TestGroup.piers 9, .gangway 4].all (fun t => !testGroupOk t) = true ∧
    [BroadcastKind.tables 4096, .gate 4096].all (fun t => !broadcastOk t) = true ∧
    [Peripheral.press 16, .sampler 4096, .gangway 52].all (fun t => !peripheralOk t) = true ∧
    [RegPort.bar (.vf 4096), .config (.vf 4096)].all (fun t => !regPortOk t) = true := by decide

/-- The last number of each range is well formed. -/
theorem test_well_formed :
    [Instr.pllLockLoss (.pier 153) true true, .pllLockLoss (.gangway 51) true true, .pwrDomainOn 19, .send 11].all wellFormed = true := by decide

/-! ### Known answers, none of them from the model -/

/-- A hexadecimal constant as bytes, the highest first. -/
def hexBytes (len value : Nat) : Bytes := toBe len value

/-- The letters of a text as bytes. -/
def textBytes (t : String) : Bytes := t.toList.map (fun c => BitVec.ofNat 8 c.toNat)

/-- FIPS 180-4 example: SHA-384 of "abc". -/
theorem test_sha384_abc : sha384 (textBytes "abc") =
    hexBytes 48 0xcb00753f45a35e8bb5a03d699ac65007272c32ab0eded1631a8b605a43ff5bed8086072ba1e7cc2358baeca134c825a7 := by
  decide +kernel

/-- FIPS 202 example: SHA3-384 of "abc". -/
theorem test_sha3384_abc : sha3384 (textBytes "abc") =
    hexBytes 48 0xec01498288516fc926459f58e2c6ad8df9b473cb0fc08c2596da7cf0e49be4b298d88cea927ac7f539f1edf228376d25 := by
  decide +kernel

/-- RFC 4231 test case 2. -/
theorem test_hmac384 : hmac384 (textBytes "Jefe") (textBytes "what do ya want for nothing?") =
    hexBytes 48 0xaf45d2e376484031617f78d2b58a6b1b9c7ef464f5a01b47e42ec3736322445e8e2240ca5e69e2c78b3239ecfab21649 := by
  decide +kernel

/-- FIPS 197, appendix C.3. -/
theorem test_aes256 : aesEnc (toBe 32 0x000102030405060708090a0b0c0d0e0f101112131415161718191a1b1c1d1e1f)
      (toBe 16 0x00112233445566778899aabbccddeeff) = toBe 16 0x8ea2b7ca516745bfeafc49904b496089 := by
  decide +kernel

/-- Test case 14 of the GCM specification: a zero key, a zero IV and one zero block. -/
theorem test_gcm256 : gcmEnc (zeros 32) (zeros 12) [] (zeros 16) =
    (toBe 16 0xcea7403d4d606b6e074ec5d3baf39d18, toBe 16 0xd0d1c8a799996bf0265b98b5d48ab919) := by
  decide +kernel

/-- The check value of CRC-32C (RFC 3720). -/
theorem test_crc32c : crc32c (textBytes "123456789") = 0xE3069283 := by decide +kernel

/-- 04, worked example: word 2,689 takes 0x3 by burning d0, c1, d1, c2 in this order. -/
theorem test_burn_order_board_record : burnOrder cellBlank (fuseEncode 3) = [0, 65, 1, 66] := by decide +kernel

/-- 04, worked example, step 5: raw d0 and c1 alone are Torn. -/
theorem test_interrupted_word_is_torn :
    let raw : BitVec 72 := (1#72 <<< 0) ||| (1#72 <<< 65)
    (classify { nominal := raw, low := raw, high := raw }).cls = .torn := by decide +kernel

/-- 04, worked example: the codeword of 0x4 is d2, c1, c2 and c7, so it does not cover a raw d0. -/
theorem test_codeword_of_4 : fuseEncode 4 = (1#72 <<< 2) ||| (1#72 <<< 65) ||| (1#72 <<< 66) ||| (1#72 <<< 71) := by
  decide +kernel

/-- 17, worked example: 0x3010_2024 is PIER_WIN_BASE of group 2, which stages on every Pier of stack 2. -/
theorem test_group_window_address :
    (List.range 154).all (fun n =>
      (tget winNone (((pilotWrite fw 0x30102024 7).pier n).winStaged) 0).base == (if 34 ≤ n ∧ n < 51 then 7 else 0)) = true := by
  decide +kernel

/-- 17, worked example: 0x3300_24B0 is FERRY_CH_MAP_300. -/
theorem test_channel_map_address :
    (tget chMapInit (pilotWrite fw 0x330024B0 0x10005).ferry.mapsStaged 300).berth = 5 := by decide +kernel

/-- 17, worked example: 0x3008_E020 is PIER_WIN_IDX of Pier 142. -/
theorem test_window_index_address : ((pilotWrite fw 0x3008E020 0x1803).pier 142).winPort = 6 ∧
    ((pilotWrite fw 0x3008E020 0x1803).pier 142).winIndex = 3 ∧ ((pilotWrite fw 0x3008E020 0x1803).pier 141).winIndex = 0 := by
  decide +kernel

/-- 16, example: a count of 41 in region 14 anchors 41,984 boots. -/
theorem test_anchor_of_boot_count : 41 * granule 0 = 41984 := by decide


/-- P-384 public key of RFC 6979, A.2.6. -/
theorem test_p384_public_key : eccPub 0x6B9D3DAD2E1B8C1C05B19875B6659F4DE23C3B667BF297BA9AA47740787137D896D5724E4C70A825F872C9EA60D2EDF5 =
    [0x04] ++ toBe 48 0xEC3A4E415B4E19A4568618029F427FA5DA9A8BC4AE92E02E06AAE5286B300C64DEF8F0EA9055866064A254515480BC13 ++
      toBe 48 0x8015D9B72D7D57244EA8EF9AC0C621896708A59367F9DFB9F54CA84B3F1C9DB1288B231C3AE0D4FE7344FD2533264720 := by decide +kernel

/-- The first powers of the NTT tables of FIPS 203 (appendix A) and FIPS 204 (appendix B). -/
theorem test_ntt_roots : kemRing.zeta 1 = 1729 ∧ kemRing.zeta 2 = 2580 ∧ dsaRing.zeta 1 = 4808194 ∧ dsaRing.zeta 2 = 3765607 := by decide +kernel

/-- SHAKE128 of the empty message (FIPS 202). -/
theorem test_shake128_empty : shake128 [] 16 = toBe 16 0x7F9C2BA4E88F827D616045507605853E := by decide +kernel
end Sys2Proof.Tests
end

section
/-! The invariant of the domains that are always on (R44). The power controller is written by a few functions only: for every other
function that takes a state to a state one frame rule says that it leaves `power` as it is, proved from the rules of the functions it
calls. The functions that do write it follow in the last part. -/

namespace Sys2Proof.Machine

/-! ### Rules for branches, folds and pairs -/

@[simp] theorem power_ite (c : Prop) [Decidable c] (a b : State) : (if c then a else b).power = if c then a.power else b.power :=
  apply_ite State.power c a b
@[simp] theorem foldl_power {α : Type} (f : State → α → State) (hf : ∀ t a, (f t a).power = t.power) (l : List α) (s : State) :
    (l.foldl f s).power = s.power := by
  induction l generalizing s with
  | nil => rfl
  | cons a l ih => rw [List.foldl_cons, ih, hf]
@[simp] theorem foldl_emit_power {α : Type} (g : State → α → Emission) (l : List α) (s : State) :
    (l.foldl (fun t a => emit t (g t a)) s).power = s.power :=
  foldl_power _ (fun t a => emit_power t (g t a)) l s
@[simp] theorem foldl_setSite_power {α : Type} (k : State → α → Nat) (x : State → α → Site) (l : List α) (s : State) :
    (l.foldl (fun t a => t.setSite (k t a) (x t a)) s).power = s.power :=
  foldl_power _ (fun t a => State.setSite_power t (k t a) (x t a)) l s

/-! A result taken apart by `match` or `split`, by the equation it leaves. -/

theorem power_fst {α : Type} {p : State × α} {t : State} {a : α} (h : p = (t, a)) : t.power = p.1.power := by rw [h]
theorem power_snd {α : Type} {p : α × State} {t : State} {a : α} (h : p = (a, t)) : t.power = p.2.power := by rw [h]

/-! ### Outcomes that keep the power controller -/

/-- The outcome is a next state, and its power controller is that of `s`. -/
def KeepsPower (s : State) (o : Out) : Prop := CompletesWith o (fun t => t.power = s.power)
theorem next_keepsPower {s t : State} (h : t.power = s.power) : KeepsPower s (.next t) := ⟨t, rfl, h⟩
theorem next_ite_keepsPower {s t : State} (c : Prop) [Decidable c] (h : t.power = s.power) :
    KeepsPower s (.next (if c then t else s)) :=
  next_keepsPower (by rw [power_ite, h, ite_self])

/-! ### The gates and the shared operations -/

theorem whenRunning_keepsPower (s : State) {f : State → State} (hf : ∀ t, (f t).power = t.power) : KeepsPower s (whenRunning s f) :=
  next_ite_keepsPower _ (hf s)
theorem whenCommanded_keepsPower (s : State) {f : State → State} (hf : ∀ t, (f t).power = t.power) : KeepsPower s (whenCommanded s f) :=
  next_ite_keepsPower _ (hf s)
theorem whenFuse_keepsPower (s : State) {f : State → State} (hf : ∀ t, (f t).power = t.power) : KeepsPower s (whenFuse s f) :=
  next_ite_keepsPower _ (hf s)
theorem whenVault_keepsPower (s : State) {f : State → State} (hf : ∀ t, (f t).power = t.power) : KeepsPower s (whenVault s f) :=
  next_ite_keepsPower _ (hf s)
theorem whenPilot_keepsPower (s : State) {f : State → State} (hf : ∀ t, (f t).power = t.power) : KeepsPower s (whenPilot s f) :=
  next_ite_keepsPower _ (hf s)
theorem whenHost_keepsPower (s : State) {f : State → State} (hf : ∀ t, (f t).power = t.power) : KeepsPower s (whenHost s f) :=
  next_ite_keepsPower _ (hf s)
theorem whenMemory_keepsPower (s : State) {f : State → State} (hf : ∀ t, (f t).power = t.power) : KeepsPower s (whenMemory s f) :=
  next_ite_keepsPower _ (hf s)
@[simp] theorem sendRing_power (s : State) (f : RingFrame) : (sendRing s f).power = s.power := by simp only [sendRing, emit_power]
@[simp] theorem sendMctp_power (s : State) (dst : Byte) (owner : Bool) (e : Emission) (msg : Bytes) :
    (sendMctp s dst owner e msg).power = s.power := (congrArg State.power (sendMctp_frame s dst owner e msg) :)
@[simp] theorem controlAnswer_power (s : State) (dst : Byte) (e : Emission) (command : Byte) (body : Bytes) :
    (controlAnswer s dst e command body).power = s.power := by
  simp only [controlAnswer, sendMctp_power]
@[simp] theorem sendVendor_power (s : State) (dst : Byte) (owner : Bool) (e : Emission) (fields : List Bytes) :
    (sendVendor s dst owner e fields).power = s.power := by
  simp only [sendVendor, sendMctp_power]
@[simp] theorem drew_power (s : State) (n : Nat) : (drew s n).power = s.power := (congrArg State.power (drew_frame s n) :)
@[simp] theorem modFn_power (s : State) (f : Func) (g : HostFn → HostFn) :
    (modFn s f g).power = s.power := (congrArg State.power (modFn_frame s f g) :)
@[simp] theorem modHost_power (s : State) (g : HostGuard → HostGuard) :
    (modHost s g).power = s.power := (congrArg State.power (modHost_frame s g) :)
@[simp] theorem hgCount_power (s : State) (fn i : Nat) : (hgCount s fn i).power = s.power := by simp only [hgCount, modFn_power]
@[simp] theorem reqDone_power (s : State) (fn tag : Nat) : (reqDone s fn tag).power = s.power := by simp only [reqDone, modHost_power]
@[simp] theorem reqQuarantine_power (s : State) (r : HostReq) : (reqQuarantine s r).power = s.power := by
  simp only [reqQuarantine, modHost_power]
@[simp] theorem atcTouch_power (s : State) (fn : Nat) (used : Option (Nat × Nat)) :
    (atcTouch s fn used).power = s.power := (congrArg State.power (atcTouch_frame s fn used) :)
@[simp] theorem askTrans_power (s : State) (fn ch range : Nat) (write : Bool) (tries : Nat) :
    (askTrans s fn ch range write tries).power = s.power := (congrArg State.power (askTrans_frame s fn ch range write tries) :)
@[simp] theorem transMiss_power (s : State) (fn ch range : Nat) (write : Bool) :
    (transMiss s fn ch range write).power = s.power := (congrArg State.power (transMiss_frame s fn ch range write) :)
@[simp] theorem aer_power (s : State) (f : Func) (kind : Nat) :
    (aer s f kind).power = s.power := (congrArg State.power (aer_frame s f kind) :)
@[simp] theorem barOpen_power (s : State) (f : Func) (g : State → State) (hg : ∀ t, (g t).power = t.power) :
    (barOpen s f g).power = s.power := by
  simp only [barOpen, power_ite, ite_self, aer_power, hg]
theorem whenBar_keepsPower (s : State) (f : Func) {g : State → State} (hg : ∀ t, (g t).power = t.power) : KeepsPower s (whenBar s f g) :=
  whenHost_keepsPower s fun t => barOpen_power t f g hg
@[simp] theorem fragmentLook_power (s : State) (f : Func) : (fragmentLook s f).power = s.power := by
  simp only [fragmentLook, power_ite, ite_self, modHost_power, modFn_power]
@[simp] theorem msixSend_power (s : State) (raw : Option (Nat × Nat)) (f : Func) (v : Nat) :
    (msixSend s raw f v).power = s.power := (congrArg State.power (msixSend_frame s raw f v) :)
@[simp] theorem msix_power (s : State) (f : Func) (v : Nat) : (msix s f v).power = s.power := (congrArg State.power (msix_frame s f v) :)
@[simp] theorem msixRelease_power (s : State) (f : Func) : (msixRelease s f).power = s.power := by
  simp only [msixRelease, power_ite, ite_self, foldl_power, implies_true, msixSend_power, modFn_power]
@[simp] theorem alarm_power (s : State) (i : Island) (kind : BitVec 16) (a0 a1 : Word) :
    (alarm s i kind a0 a1).power = s.power := (congrArg State.power (alarm_frame s i kind a0 a1) :)
@[simp] theorem putSlot_power (s : State) (k : Nat) (d : DeviceSlot) :
    (putSlot s k d).power = s.power := (congrArg State.power (putSlot_frame s k d) :)
@[simp] theorem rotationSeen_power (old : BerthRecord) (t : State) (b : Nat) : (rotationSeen old t b).power = t.power := by
  simp only [rotationSeen, power_ite, ite_self, msix_power]
@[simp] theorem putRecord_power (s : State) (b : Nat) (r : BerthRecord) :
    (putRecord s b r).power = s.power := (congrArg State.power (putRecord_frame s b r) :)
@[simp] theorem changeRecord_power (s : State) (b : Nat) (r : BerthRecord) :
    (changeRecord s b r).power = s.power := (congrArg State.power (changeRecord_frame s b r) :)
@[simp] theorem useSlot_power (s : State) (k : Nat) : (useSlot s k).1.power = s.power := (congrArg State.power (useSlot_frame s k) :)
@[simp] theorem useRecord_power (s : State) (b : Nat) : (useRecord s b).1.power = s.power := (congrArg State.power (useRecord_frame s b) :)
@[simp] theorem touchSlot_power (s : State) (k : Nat) : (touchSlot s k).power = s.power := (congrArg State.power (touchSlot_frame s k) :)
@[simp] theorem sendNotify_power (s : State) (kind : BitVec 16) (count : Nat) (event : DWord) :
    (sendNotify s kind count event).power = s.power := by
  simp only [sendNotify, sendVendor_power]
@[simp] theorem notify_power (s : State) (kind : BitVec 16) (count : Nat) (event : DWord) :
    (notify s kind count event).power = s.power := (congrArg State.power (notify_frame s kind count event) :)
@[simp] theorem fltPost_power (s : State) (rcd : Bytes) : (fltPost s rcd).power = s.power := (congrArg State.power (fltPost_frame s rcd) :)
@[simp] theorem bufferRecord_power (s : State) (rcd : Bytes) :
    (bufferRecord s rcd).power = s.power := (congrArg State.power (bufferRecord_frame s rcd) :)
@[simp] theorem recordEntryBy_power (routed : Bool) (s0 : State) (e0 : AlarmEntry) : (recordEntryBy routed s0 e0).power = s0.power := by
  simp only [recordEntryBy, power_ite, ite_self, touchSlot_power, drew_power, bufferRecord_power, fltPost_power, notify_power]
@[simp] theorem recordEntry_power (s : State) (e : AlarmEntry) : (recordEntry s e).power = s.power := by
  simp only [recordEntry, recordEntryBy_power]
@[simp] theorem takeEntry_power (s : State) (e : AlarmEntry) : (takeEntry s e).power = s.power := by
  simp only [takeEntry, power_ite, ite_self, recordEntry_power]
@[simp] theorem record_power (s : State) (kind : BitVec 16) (a0 a1 : Word) :
    (record s kind a0 a1).power = s.power := (congrArg State.power (record_frame s kind a0 a1) :)
@[simp] theorem recordQuiet_power (s : State) (kind : BitVec 16) (a0 a1 : Word) : (recordQuiet s kind a0 a1).power = s.power := by
  simp only [recordQuiet, power_ite, ite_self, recordEntryBy_power]
@[simp] theorem bump_power (s : State) (i n : Nat) : (bump s i n).power = s.power := by simp only [bump]
@[simp] theorem showStat_power (s : State) (code : Byte) : (showStat s code).power = s.power := by simp only [showStat]
@[simp] theorem milestone_power (s : State) (code : Byte) : (milestone s code).power = s.power := by
  simp only [milestone, power_ite, ite_self, showStat_power]
@[simp] theorem showWait_power (s : State) : (showWait s).power = s.power := by simp only [showWait, power_ite, ite_self, milestone_power]
@[simp] theorem forwardToken_power (s : State) : (forwardToken s).power = s.power := (congrArg State.power (forwardToken_frame s) :)
@[simp] theorem halt_power (s : State) (code : Byte) : (halt s code).power = s.power := (congrArg State.power (halt_frame s code) :)

/-! ### The fuse controller -/

@[simp] theorem fuseAlarm_power (s : State) (bit region word : Nat) : (fuseAlarm s bit region word).power = s.power := by
  simp only [fuseAlarm, alarm_power]
@[simp] theorem wordAlarms_power (s : State) (w : Nat) : (wordAlarms s w).power = s.power := by
  unfold wordAlarms
  split <;> simp only [fuseAlarm_power]
@[simp] theorem regionAlarms_power (s : State) (r : Nat) : (regionAlarms s r).power = s.power := by
  simp only [regionAlarms, power_ite, ite_self, fuseAlarm_power]
@[simp] theorem changedRegionAlarms_power (s : State) (w : Nat) : (changedRegionAlarms s w).power = s.power := by
  simp only [changedRegionAlarms, power_ite, ite_self, regionAlarms_power]
@[simp] theorem resenseRange_power (s : State) (lo hi : Nat) (drift : List (Nat × FuseCell)) :
    (resenseRange s lo hi drift).power = s.power := by
  simp only [resenseRange, foldl_power, implies_true, wordAlarms_power, regionAlarms_power]
@[simp] theorem wordSensed_power (s : State) (sealing : Option Nat) (w : Nat) (rest : List (Nat × BitVec 72)) :
    (wordSensed s sealing w rest).power = s.power := by
  simp only [wordSensed, power_ite, ite_self, wordAlarms_power, changedRegionAlarms_power]
@[simp] theorem fuseNext_power (s : State) (owner : FuseOwner) (sealing : Option Nat) (todo : List (Nat × BitVec 72)) :
    (fuseNext s owner sealing todo).1.power = s.power := by
  induction todo generalizing s with
  | nil => rw [fuseNext]
  | cons x rest ih =>
    rw [fuseNext]
    split
    · rw [ih, wordSensed_power]
    · rfl
@[simp] theorem fuseGo_power (s : State) (owner : FuseOwner) (sealing : Option Nat) (todo : List (Nat × BitVec 72)) :
    (fuseGo s owner sealing todo).1.power = s.power := by
  have begun {t : State} {o : Option FuseOp} (h : fuseNext s owner sealing todo = (t, o)) : t.power = s.power :=
    (power_fst h).trans (fuseNext_power ..)
  unfold fuseGo
  split
  · exact begun ‹_›
  · exact begun ‹_›
  next t r h _ =>
    split
    · rw [regionAlarms_power, begun ‹_›]
    · split <;> rw [power_fst ‹_›, fuseNext_power, begun ‹_›]
@[simp] theorem fuseEnd_power (s : State) (err : Byte) : (fuseEnd s err).power = s.power := by simp only [fuseEnd]
@[simp] theorem fuseRefuse_power (s : State) (err : Byte) : (fuseRefuse s err).power = s.power := by simp only [fuseRefuse, fuseEnd_power]
@[simp] theorem fuseBegin_power (s : State) (sealing : Option Nat) (todo : List (Nat × BitVec 72)) :
    (fuseBegin s sealing todo).power = s.power := by
  unfold fuseBegin
  split <;> simp only [fuseEnd_power, power_fst ‹_›, fuseGo_power]
@[simp] theorem fuseCommand_power (s : State) (arm : Byte) (word : BitVec 12) (f : State → State) (hf : ∀ t, (f t).power = t.power) :
    (fuseCommand s arm word f).power = s.power := by
  simp only [fuseCommand, power_ite, ite_self, hf]
@[simp] theorem fuseProgram_power (s : State) (w : Nat) (v : BitVec 64) : (fuseProgram s w v).power = s.power := by
  unfold fuseProgram
  split <;> simp only [fuseBegin_power, bump_power, fuseRefuse_power]
@[simp] theorem execProgram_keepsPower (arm : Byte) (word : BitVec 12) (s : State) : KeepsPower s (execProgram arm word s) :=
  whenFuse_keepsPower s fun u => by simp only [implies_true, fuseCommand_power, fuseProgram_power]
@[simp] theorem execIncrement_keepsPower (arm : Byte) (word : BitVec 12) (s : State) : KeepsPower s (execIncrement arm word s) :=
  whenFuse_keepsPower s fun _ => fuseCommand_power _ _ _ _ fun u => by
    dsimp only
    split <;> simp only [fuseBegin_power, bump_power, fuseRefuse_power]
@[simp] theorem execFinalise_keepsPower (arm : Byte) (word : BitVec 12) (s : State) : KeepsPower s (execFinalise arm word s) :=
  whenFuse_keepsPower s fun _ => fuseCommand_power _ _ _ _ fun u => by
    dsimp only
    split <;> simp only [fuseBegin_power, bump_power, fuseRefuse_power]
@[simp] theorem execLockWrite_keepsPower (arm : Byte) (word : BitVec 12) (s : State) : KeepsPower s (execLockWrite arm word s) :=
  whenFuse_keepsPower s fun _ => fuseCommand_power _ _ _ _ fun u => by
    dsimp only
    split <;> simp only [fuseBegin_power, bump_power, fuseRefuse_power]
@[simp] theorem execLockRead_keepsPower (arm : Byte) (word : BitVec 12) (s : State) : KeepsPower s (execLockRead arm word s) :=
  whenFuse_keepsPower s fun u => by simp only [implies_true, fuseCommand_power, fuseProgram_power]
@[simp] theorem execResense_keepsPower (arm : Byte) (word : BitVec 12) (drift : List (Nat × FuseCell)) (s : State) :
    KeepsPower s (execResense arm word drift s) :=
  whenFuse_keepsPower s fun u => by simp only [implies_true, fuseCommand_power, fuseEnd_power, resenseRange_power]
@[simp] theorem execResenseAll_keepsPower (arm : Byte) (word : BitVec 12) (drift : List (Nat × FuseCell)) (s : State) :
    KeepsPower s (execResenseAll arm word drift s) :=
  whenFuse_keepsPower s fun u => by simp only [implies_true, fuseCommand_power, fuseEnd_power, resenseRange_power]
@[simp] theorem execWipe_keepsPower (arm : Byte) (word : BitVec 12) (s : State) : KeepsPower s (execWipe arm word s) :=
  whenFuse_keepsPower s fun u => by simp only [implies_true, fuseCommand_power, fuseRefuse_power]
@[simp] theorem execSeal_keepsPower (arm : Byte) (word : BitVec 12) (s : State) : KeepsPower s (execSeal arm word s) :=
  whenFuse_keepsPower s fun _ => fuseCommand_power _ _ _ _ fun u => by
    dsimp only
    split <;> simp only [fuseBegin_power, bump_power, drew_power, fuseRefuse_power]
@[simp] theorem execFuseReservedOp_keepsPower (arm : Byte) (word : BitVec 12) (op : BitVec 4) (s : State) :
    KeepsPower s (execFuseReservedOp arm word op s) :=
  whenFuse_keepsPower s fun u => by simp only [power_ite, ite_self, implies_true, fuseCommand_power, fuseRefuse_power]
@[simp] theorem anchorBurn_power (s : State) : (anchorBurn s).power = s.power := by
  simp only [anchorBurn]
  repeat' split
  all_goals simp only [fuseBegin_power]
@[simp] theorem anchorNext_power (s : State) (c : Byte) : (anchorNext s c).power = s.power := by
  simp only [anchorNext, power_ite, ite_self, anchorBurn_power]
@[simp] theorem fuseWordDone_power (s : State) (op : FuseOp) : (fuseWordDone s op).1.power = s.power := by
  unfold fuseWordDone
  split
  · rfl
  · split <;> simp only [power_fst ‹_›, fuseGo_power, wordSensed_power]
@[simp] theorem wordStopped_power (s : State) (w : Nat) : (wordStopped s w).power = s.power := by
  simp only [wordStopped, changedRegionAlarms_power, wordAlarms_power]
@[simp] theorem fusePulse_power (s : State) (level : BitVec 3) : (fusePulse s level).1.power = s.power := by
  simp only [fusePulse]
  repeat' split
  all_goals simp only [fuseWordDone_power, wordStopped_power]
@[simp] theorem execFuseTackCommit_keepsPower (s : State) : KeepsPower s (execFuseTackCommit s) :=
  whenFuse_keepsPower s fun u => by split <;> rfl

/-! ### The life cycle -/

@[simp] theorem mboxEnd_power (s : State) (code : Byte) : (mboxEnd s code).power = s.power := by simp only [mboxEnd, power_ite, ite_self]
@[simp] theorem note_power (s : State) (kind : BitVec 16) (a0 a1 : Word) : (note s kind a0 a1).power = s.power := by
  simp only [note, power_ite, ite_self, record_power]
@[simp] theorem lcEnd_power (s : State) (err : Byte) : (lcEnd s err).power = s.power := by
  simp only [lcEnd]
  split <;> simp only [note_power, mboxEnd_power]
@[simp] theorem wipeEnd_power (s : State) : (wipeEnd s).power = s.power := by simp only [wipeEnd, lcEnd_power]
@[simp] theorem wipeBegin_power (s : State) (target : BitVec 4) : (wipeBegin s target).power = s.power := by
  unfold wipeBegin
  split <;> simp only [wipeEnd_power, power_fst ‹_›, fuseNext_power]
@[simp] theorem transitionDone_power (s : State) (target : BitVec 4) : (transitionDone s target).power = s.power := by
  simp only [transitionDone, power_ite, ite_self, wipeBegin_power, lcEnd_power]
@[simp] theorem transitionBurn_power (s : State) (target : BitVec 4) : (transitionBurn s target).power = s.power := by
  simp only [transitionBurn]
  split
  · exact lcEnd_power ..
  · split <;> simp only [transitionDone_power, power_fst ‹_›, fuseNext_power]
@[simp] theorem lcGo_power (s : State) (target : BitVec 4) : (lcGo s target).power = s.power := by
  unfold lcGo
  split <;> simp only [power_ite, ite_self, transitionBurn_power]
@[simp] theorem execGo_keepsPower (target : BitVec 4) (s : State) : KeepsPower s (execGo target s) :=
  whenCommanded_keepsPower s fun u => by simp only [lcGo_power]
@[simp] theorem afterCommand_power (s : State) : (afterCommand s).power = s.power := by
  unfold afterCommand
  split <;> simp only [power_ite, ite_self, transitionBurn_power]
@[simp] theorem pulseDone_power (s : State) (level : BitVec 3) : (pulseDone s level).power = s.power := by
  have pulsed {op : FuseOp} {t : State} {p : PulseNext} (h : fusePulse s level = (t, p)) : t.power = s.power :=
    (power_fst h).trans (fusePulse_power ..)
  unfold pulseDone
  split
  · rfl
  · split <;> simp only [power_ite, anchorNext_power, afterCommand_power, fuseEnd_power, transitionDone_power, lcEnd_power, wipeEnd_power,
    ite_self, power_fst ‹_›, fusePulse_power]
@[simp] theorem execFuseBitPulseDone_keepsPower (level : BitVec 3) (s : State) : KeepsPower s (execFuseBitPulseDone level s) :=
  whenRunning_keepsPower s fun _ => pulseDone_power ..
@[simp] theorem fuseCut_power (s : State) (fuseErr : Byte) : (fuseCut s fuseErr).power = s.power := by
  simp only [fuseCut]
  repeat' split
  all_goals simp only [wordStopped_power, fuseEnd_power, lcEnd_power, afterCommand_power]
@[simp] theorem vppSet_power (s : State) : (vppSet s).power = s.power := by simp only [vppSet]
@[simp] theorem vppExit_power (s : State) (level : BitVec 3) : (vppExit s level).power = s.power := by
  simp only [vppExit]
  split <;> simp only [fuseCut_power, fuseAlarm_power]
@[simp] theorem execVppWindowExit_keepsPower (level : BitVec 3) (s : State) : KeepsPower s (execVppWindowExit level s) :=
  whenRunning_keepsPower s fun _ => vppExit_power ..
@[simp] theorem mboxSubmit_power (s : State) (req : BitVec 4) : (mboxSubmit s req).power = s.power := by simp only [mboxSubmit]
@[simp] theorem serveTransition_power (s : State) : (serveTransition s).power = s.power := by
  simp only [serveTransition]
  repeat' split
  all_goals simp only [mboxEnd_power, lcGo_power]
@[simp] theorem execTransition_keepsPower (s : State) : KeepsPower s (execTransition s) :=
  whenRunning_keepsPower s fun u => by simp only [power_ite, ite_self, mboxSubmit_power, serveTransition_power]
@[simp] theorem serveResumeWipe_power (s : State) : (serveResumeWipe s).power = s.power := by
  simp only [serveResumeWipe, power_ite, ite_self, mboxEnd_power, wipeBegin_power]
@[simp] theorem execResumeWipe_keepsPower (s : State) : KeepsPower s (execResumeWipe s) :=
  whenRunning_keepsPower s fun u => by simp only [power_ite, ite_self, mboxSubmit_power, serveResumeWipe_power]
@[simp] theorem execLcMboxReservedReq_keepsPower (req : BitVec 4) (s : State) : KeepsPower s (execLcMboxReservedReq req s) :=
  whenRunning_keepsPower s fun u => by simp only [power_ite, ite_self, mboxEnd_power, mboxSubmit_power]
@[simp] theorem execEndRequest_keepsPower (code : Byte) (s : State) : KeepsPower s (execEndRequest code s) :=
  whenCommanded_keepsPower s fun u => by simp only [mboxEnd_power]

/-! ### The Cable ring -/

@[simp] theorem execCableRingAgentStart_keepsPower (s : State) : KeepsPower s (execCableRingAgentStart s) :=
  whenRunning_keepsPower s fun u => by simp only [power_ite, ite_self, sendRing_power]
@[simp] theorem enumerate_power (s : State) (f : RingFrame) : (enumerate s f).power = s.power := by
  simp only [enumerate, power_ite, ite_self, sendRing_power]
@[simp] theorem takeToken_power (s : State) (f : RingFrame) : (takeToken s f).power = s.power := by
  simp only [takeToken]
  repeat' split
  all_goals simp only [sendRing_power]
@[simp] theorem sendNotReady_power (s : State) (src : Byte) : (sendNotReady s src).power = s.power := by
  simp only [sendNotReady, controlAnswer_power]
@[simp] theorem sendError_power (s : State) (src code : Byte) : (sendError s src code).power = s.power := by
  simp only [sendError, controlAnswer_power]
@[simp] theorem whenReady_power (s : State) (src : Byte) (f : State → State) (hf : ∀ t, (f t).power = t.power) :
    (whenReady s src f).power = s.power := by
  simp only [whenReady, power_ite, ite_self, sendNotReady_power, hf]
@[simp] theorem answerControl_power (s : State) (src command : Byte) (body : Bytes) :
    (answerControl s src command body).power = s.power := by
  simp only [answerControl, controlAnswer_power]
@[simp] theorem setEid_power (s : State) (src eid : Byte) : (setEid s src eid).power = s.power := by
  simp only [setEid, whenReady_power, power_ite, sendError_power, answerControl_power, ite_self, implies_true]
@[simp] theorem getEid_power (s : State) (src : Byte) : (getEid s src).power = s.power := by
  simp only [getEid, whenReady_power, answerControl_power, implies_true]
@[simp] theorem versionSupport_power (s : State) (src : Byte) : (versionSupport s src).power = s.power := by
  simp only [versionSupport, whenReady_power, answerControl_power, implies_true]
@[simp] theorem typeSupport_power (s : State) (src : Byte) : (typeSupport s src).power = s.power := by
  simp only [typeSupport, whenReady_power, answerControl_power, implies_true]
@[simp] theorem otherMessage_power (s : State) (src : Byte) : (otherMessage s src).power = s.power := by
  simp only [otherMessage, whenReady_power, sendError_power, implies_true]
@[simp] theorem sendSpdm_power (s : State) (src : Byte) (e : Emission) (fields : List Bytes) :
    (sendSpdm s src e fields).power = s.power := by
  simp only [sendSpdm, sendMctp_power]
@[simp] theorem sendBusy_power (s : State) (src : Byte) : (sendBusy s src).power = s.power := by simp only [sendBusy, sendSpdm_power]
@[simp] theorem toPilot_power (s : State) (src : Byte) (msg : Bytes) : (toPilot s src msg).power = s.power := by
  simp only [toPilot, power_ite, ite_self, sendNotReady_power, sendBusy_power, sendError_power]
@[simp] theorem toPilotServed_power (s : State) (src : Byte) (msg : Bytes) (f : State → State) (hf : ∀ t, (f t).power = t.power) :
    (toPilotServed s src msg f).power = s.power := by
  simp only [toPilotServed, power_ite, ite_self, toPilot_power, hf]
@[simp] theorem unitStatusAnswer_power (s : State) (src : Byte) : (unitStatusAnswer s src).power = s.power := by
  simp only [unitStatusAnswer, sendVendor_power]
@[simp] theorem message_power (s : State) (src : Byte) (msg : Bytes) : (message s src msg).power = s.power := by
  unfold message
  split <;> simp only [power_ite, ite_self, setEid_power, getEid_power, versionSupport_power, typeSupport_power, otherMessage_power,
    unitStatusAnswer_power, toPilot_power]
@[simp] theorem packet_power (s : State) (pos : Byte) (p : Bytes) : (packet s pos p).power = s.power := by
  simp only [packet]
  repeat' split
  all_goals simp only [message_power]
@[simp] theorem takeFrame_power (s : State) (f : RingFrame) : (takeFrame s f).power = s.power := by
  simp only [takeFrame, power_ite, ite_self, packet_power, takeToken_power]
@[simp] theorem receiveFrame_power (s : State) (raw : Bytes) : (receiveFrame s raw).power = s.power := by
  unfold receiveFrame
  split <;> simp only [power_ite, ite_self, enumerate_power, takeToken_power, takeFrame_power, sendRing_power]
theorem whenInserted_keepsPower (s : State) {f : State → State} (hf : ∀ t, (f t).power = t.power) : KeepsPower s (whenInserted s f) :=
  next_ite_keepsPower _ (hf s)
@[simp] theorem execRingFrameReceive_keepsPower (raw : Bytes) (s : State) : KeepsPower s (execRingFrameReceive raw s) :=
  whenInserted_keepsPower s fun _ => receiveFrame_power ..
@[simp] theorem execRingEnumerate_keepsPower (f : RingFrame) (s : State) : KeepsPower s (execRingEnumerate f s) :=
  whenInserted_keepsPower s fun _ => enumerate_power ..
@[simp] theorem execOrderingToken_keepsPower (f : RingFrame) (s : State) : KeepsPower s (execOrderingToken f s) :=
  whenInserted_keepsPower s fun _ => takeToken_power ..
@[simp] theorem execSetEndpointId_keepsPower (src eid : Byte) (s : State) : KeepsPower s (execSetEndpointId src eid s) :=
  whenInserted_keepsPower s fun _ => setEid_power ..
@[simp] theorem execGetEndpointId_keepsPower (src : Byte) (s : State) : KeepsPower s (execGetEndpointId src s) :=
  whenInserted_keepsPower s fun _ => getEid_power ..
@[simp] theorem execGetMctpVersionSupport_keepsPower (src : Byte) (s : State) : KeepsPower s (execGetMctpVersionSupport src s) :=
  whenInserted_keepsPower s fun _ => versionSupport_power ..
@[simp] theorem execGetMessageTypeSupport_keepsPower (src : Byte) (s : State) : KeepsPower s (execGetMessageTypeSupport src s) :=
  whenInserted_keepsPower s fun _ => typeSupport_power ..
@[simp] theorem execMctpOtherMessage_keepsPower (src msgType : Byte) (s : State) : KeepsPower s (execMctpOtherMessage src msgType s) :=
  whenInserted_keepsPower s fun u => by simp only [power_ite, ite_self, otherMessage_power]
@[simp] theorem setReady_power (s : State) : (setReady s).power = s.power := by
  simp only [setReady]
  repeat' split
  all_goals simp only [showWait_power]
@[simp] theorem execReady_keepsPower (s : State) : KeepsPower s (execReady s) := whenCommanded_keepsPower s fun _ => setReady_power ..
@[simp] theorem endToken_power (s : State) : (endToken s).power = s.power := by simp only [endToken, forwardToken_power]
@[simp] theorem execForward_keepsPower (s : State) : KeepsPower s (execForward s) :=
  whenCommanded_keepsPower s fun u => by simp only [power_ite, ite_self, endToken_power]
@[simp] theorem tokenLimit_power (s : State) : (tokenLimit s).power = s.power := by
  unfold tokenLimit
  split <;> simp only [note_power, endToken_power]
@[simp] theorem execTokenWaitLimit_keepsPower (s : State) : KeepsPower s (execTokenWaitLimit s) :=
  whenRunning_keepsPower s fun _ => tokenLimit_power ..
@[simp] theorem execGetUnitStatus_keepsPower (src : Byte) (s : State) : KeepsPower s (execGetUnitStatus src s) :=
  whenInserted_keepsPower s fun _ => unitStatusAnswer_power ..
@[simp] theorem berthStateAnswer_power (s : State) (src : Byte) (b : Nat) : (berthStateAnswer s src b).power = s.power := by
  simp only [berthStateAnswer, power_ite, ite_self, sendVendor_power]
@[simp] theorem getBerthState_power (s : State) (src : Byte) (b : Nat) : (getBerthState s src b).power = s.power := by
  simp only [getBerthState, toPilotServed_power, berthStateAnswer_power, implies_true]
@[simp] theorem execGetBerthState_keepsPower (src : Byte) (berth : Nat) (s : State) : KeepsPower s (execGetBerthState src berth s) :=
  whenInserted_keepsPower s fun _ => getBerthState_power ..
@[simp] theorem notifyExpiry_power (s : State) (kind : BitVec 16) : (notifyExpiry s kind).power = s.power := by
  simp only [notifyExpiry, power_ite, ite_self, sendNotify_power]
@[simp] theorem execAlarmNotifyHoldoffExpiry_keepsPower (kind : BitVec 16) (s : State) :
    KeepsPower s (execAlarmNotifyHoldoffExpiry kind s) :=
  whenRunning_keepsPower s fun _ => notifyExpiry_power ..
@[simp] theorem cringSend_power (s : State) : (cringSend s).power = s.power := by simp only [cringSend, power_ite, ite_self, sendMctp_power]
@[simp] theorem execCringSend_keepsPower (s : State) : KeepsPower s (execCringSend s) :=
  whenInserted_keepsPower s fun _ => cringSend_power ..
@[simp] theorem execCringRxFree_keepsPower (s : State) : KeepsPower s (execCringRxFree s) :=
  whenCommanded_keepsPower s fun _ => rfl

/-! ### Resets, pins and the boundary chain -/

@[simp] theorem release_power (s : State) (bootsel : BitVec 2) (vpp : Bool) : (release s bootsel vpp).power = s.power := by
  simp only [release, power_ite, ite_self, record_power]
@[simp] theorem execResetRelease_keepsPower (bootsel : BitVec 2) (vppPresent : Bool) (s : State) :
    KeepsPower s (execResetRelease bootsel vppPresent s) :=
  next_keepsPower (release_power s bootsel vppPresent)
@[simp] theorem execHaltSeenElsewhere_keepsPower (s : State) : KeepsPower s (execHaltSeenElsewhere s) :=
  whenRunning_keepsPower s fun u => by simp only [power_ite, ite_self]
@[simp] theorem execReferenceClockLoss_keepsPower (s : State) : KeepsPower s (execReferenceClockLoss s) :=
  whenRunning_keepsPower s fun u => by simp only [power_ite, ite_self, halt_power]
theorem whenChained_keepsPower (s : State) {f : State → State} (hf : ∀ t, (f t).power = t.power) : KeepsPower s (whenChained s f) :=
  next_ite_keepsPower _ (hf s)
@[simp] theorem execBypass_keepsPower (s : State) : KeepsPower s (execBypass s) := whenChained_keepsPower s fun _ => rfl
@[simp] theorem execIdcode_keepsPower (s : State) : KeepsPower s (execIdcode s) := whenChained_keepsPower s fun _ => rfl
@[simp] theorem execSamplePreload_keepsPower (pins preload : BitVec 21) (s : State) : KeepsPower s (execSamplePreload pins preload s) :=
  whenChained_keepsPower s fun _ => rfl
@[simp] theorem execExtest_keepsPower (s : State) (pins shifted : BitVec 21) : KeepsPower s (execExtest s pins shifted) :=
  whenChained_keepsPower s fun _ => rfl
@[simp] theorem jtagPrivate_power (s : State) (i : JtagPrivate) : (jtagPrivate s i).power = s.power := by
  unfold jtagPrivate
  split <;> simp only [power_ite, ite_self, note_power]
@[simp] theorem execJtagPrivateInstruction_keepsPower (i : JtagPrivate) (s : State) : KeepsPower s (execJtagPrivateInstruction i s) :=
  whenChained_keepsPower s fun _ => jtagPrivate_power ..
@[simp] theorem execTrstNAssert_keepsPower (s : State) : KeepsPower s (execTrstNAssert s) :=
  whenRunning_keepsPower s fun _ => rfl

/-! ### The vault -/

@[simp] theorem clearData_power (s : State) : (clearData s).power = s.power := by simp only [clearData]
@[simp] theorem putData_power (s : State) (b : Bytes) : (putData s b).power = s.power := by simp only [putData]
@[simp] theorem vaultEnd_power (s : State) (err : Byte) :
    (vaultEnd s err).power = s.power := (congrArg State.power (vaultEnd_frame s err) :)
@[simp] theorem sendAll_power (s : State) (dests : List Nat) (m : LaneMsg) : (sendAll s dests m).power = s.power := by simp only [sendAll]
@[simp] theorem endRotation_power (s : State) (b : Nat) : (endRotation s b).power = s.power := by
  simp only [endRotation, changeRecord_power]
@[simp] theorem finishAfter_power (s : State) (after : VaultAfter) : (finishAfter s after).power = s.power := by
  cases after with
  | rotate b =>
    simp only [finishAfter]
    split <;> simp only [endRotation_power, vaultEnd_power]
  | command | sweepEnd | destroyAll | quiet => simp only [finishAfter, vaultEnd_power]
@[simp] theorem startChange_power (s : State) (entry : Nat) (after : VaultAfter) :
    (startChange s entry after).power = s.power := by
  unfold startChange
  split <;> simp only [finishAfter_power, sendAll_power]
@[simp] theorem runChanges_power (n : Nat) (s : State) : (runChanges n s).power = s.power := by
  induction n generalizing s with
  | zero => rw [runChanges]
  | succ n ih =>
    rw [runChanges]
    split <;> simp only [ih, startChange_power]
@[simp] theorem nextChange_power (s : State) : (nextChange s).power = s.power := runChanges_power _ s
@[simp] theorem invalidate_power (s : State) (entry : Nat) (after : VaultAfter) : (invalidate s entry after).power = s.power := by
  unfold invalidate
  split <;> simp only [nextChange_power, startChange_power]
@[simp] theorem vaultChanged_power (s : State) (entry : Nat) : (vaultChanged s entry).power = s.power := by
  simp only [vaultChanged, invalidate_power]
@[simp] theorem changeQuiet_power (s : State) (b : Nat) (r : BerthRecord) : (changeQuiet s b r).power = s.power := by
  simp only [changeQuiet, invalidate_power, changeRecord_power]
@[simp] theorem ackTaken_power (s : State) (ix : Nat) : (ackTaken s ix).power = s.power := by
  unfold ackTaken
  split
  · rfl
  · split <;> simp only [nextChange_power, finishAfter_power]
@[simp] theorem execInvalidationAck_keepsPower (isl : Island) (s : State) : KeepsPower s (execInvalidationAck isl s) :=
  whenRunning_keepsPower s fun u => by simp only [power_ite, ite_self, ackTaken_power]
@[simp] theorem spoilEntry_power (s : State) (entry : Nat) : (spoilEntry s entry).power = s.power := by
  simp only [spoilEntry, power_ite, ite_self]
@[simp] theorem spoilUsed_power (s : State) (spoiled : Option Nat) : (spoilUsed s spoiled).power = s.power := by
  unfold spoilUsed
  split <;> simp only [power_ite, ite_self, spoilEntry_power]
@[simp] theorem vaultCommand_power (s : State) (c : VaultCmd) (takesAttr : Bool) (f : State → State) (hf : ∀ t, (f t).power = t.power) :
    (vaultCommand s c takesAttr f).power = s.power := by
  simp only [vaultCommand, power_ite, ite_self, spoilUsed_power, vaultEnd_power, hf]
@[simp] theorem notEmpty_power (s : State) : (notEmpty s).power = s.power := by simp only [notEmpty]
@[simp] theorem drawSeed_power (s : State) (b : Nat) (g : Bool) (fuel : Nat) : (drawSeed s b g fuel).2.power = s.power := by
  induction fuel generalizing s with
  | zero => rw [drawSeed]
  | succ fuel ih =>
    simp only [drawSeed]
    split
    · rw [ih, drew_power]
    · exact drew_power ..
/-- The drawing as a function of which only this is known: its fuel of 8 would let a check by evaluation run into the key expansion. -/
theorem drawSeed_opaque : ∃ draw, draw = drawSeed ∧ ∀ s b g n, (draw s b g n).2.power = s.power := ⟨_, rfl, drawSeed_power⟩
@[simp] theorem generateOp_power (s : State) : (generateOp s).power = s.power := by
  obtain ⟨draw, hd, drawn⟩ := drawSeed_opaque
  rw [generateOp, ← hd]
  simp only [power_ite, vaultEnd_power, vaultChanged_power, changeRecord_power, putSlot_power, notEmpty_power, drew_power, ite_self]
  repeat' split
  all_goals simp only [vaultEnd_power, vaultChanged_power, changeRecord_power, putSlot_power, notEmpty_power, drew_power]
  all_goals rw [power_snd ‹_›, drawn]
@[simp] theorem execGenerate_keepsPower (c : VaultCmd) (s : State) : KeepsPower s (execGenerate c s) :=
  whenVault_keepsPower s fun u => by simp only [implies_true, vaultCommand_power, generateOp_power]
@[simp] theorem writeOp_power (s : State) : (writeOp s).power = s.power := by
  simp only [writeOp]
  repeat' split
  all_goals simp only [vaultEnd_power, clearData_power, putSlot_power, notEmpty_power]
@[simp] theorem execWrite_keepsPower (c : VaultCmd) (s : State) : KeepsPower s (execWrite c s) :=
  whenVault_keepsPower s fun u => by simp only [implies_true, vaultCommand_power, writeOp_power]
@[simp] theorem inputSlot_power (s : State) (k cls : Nat) : (inputSlot s k cls).1.power = s.power := by
  simp only [inputSlot]
  split
  · rfl
  split
  · rfl
  split
  · rfl
  · split <;> exact (power_fst ‹_›).trans (useSlot_power ..)
@[simp] theorem readOp_power (s : State) : (readOp s).power = s.power := by
  simp only [readOp, power_ite, vaultEnd_power]
  split
  · rfl
  · split
    · rfl
    · split <;> simp only [vaultEnd_power, putData_power, power_fst ‹_›, inputSlot_power]
@[simp] theorem execRead_keepsPower (c : VaultCmd) (s : State) : KeepsPower s (execRead c s) :=
  whenVault_keepsPower s fun u => by simp only [implies_true, vaultCommand_power, readOp_power]
@[simp] theorem deriveOp_power (s : State) : (deriveOp s).power = s.power := by
  simp only [deriveOp, power_ite, vaultEnd_power, clearData_power]
  repeat' split
  all_goals simp only [vaultEnd_power, clearData_power, putSlot_power, notEmpty_power, drew_power]
  all_goals exact (power_fst ‹_›).trans (inputSlot_power ..)
@[simp] theorem execDerive_keepsPower (c : VaultCmd) (s : State) : KeepsPower s (execDerive c s) :=
  whenVault_keepsPower s fun u => by simp only [implies_true, vaultCommand_power, deriveOp_power]
@[simp] theorem emptySlot_power (s : State) (k : Nat) : (emptySlot s k).power = s.power := by simp only [emptySlot]
@[simp] theorem emptyRecord_power (s : State) (b : Nat) : (emptyRecord s b).power = s.power := by
  simp only [emptyRecord, rotationSeen_power]
@[simp] theorem destroyOp_power (s : State) : (destroyOp s).power = s.power := by
  simp only [destroyOp, power_ite, ite_self, vaultEnd_power, vaultChanged_power, emptyRecord_power, changeRecord_power, emptySlot_power]
@[simp] theorem execDestroy_keepsPower (c : VaultCmd) (s : State) : KeepsPower s (execDestroy c s) :=
  whenVault_keepsPower s fun u => by simp only [implies_true, vaultCommand_power, destroyOp_power]
@[simp] theorem attrOp_power (s : State) : (attrOp s).power = s.power := by
  simp only [attrOp, power_ite, ite_self, vaultEnd_power, putSlot_power, vaultChanged_power]
@[simp] theorem execAttr_keepsPower (c : VaultCmd) (s : State) : KeepsPower s (execAttr c s) :=
  whenVault_keepsPower s fun u => by simp only [implies_true, vaultCommand_power, attrOp_power]
@[simp] theorem berthOpenOp_power (s : State) : (berthOpenOp s).power = s.power := by
  obtain ⟨draw, hd, drawn⟩ := drawSeed_opaque
  rw [berthOpenOp, ← hd]
  simp only [power_ite, vaultEnd_power]
  repeat' split
  all_goals simp only [vaultEnd_power, vaultChanged_power, putRecord_power, notEmpty_power, drew_power]
  all_goals rw [power_snd ‹_›, drawn]
@[simp] theorem execBerthOpen_keepsPower (c : VaultCmd) (s : State) : KeepsPower s (execBerthOpen c s) :=
  whenVault_keepsPower s fun u => by simp only [implies_true, vaultCommand_power, berthOpenOp_power]
@[simp] theorem rotateOp_power (s : State) : (rotateOp s).power = s.power := by
  obtain ⟨draw, hd, drawn⟩ := drawSeed_opaque
  rcases hu : useRecord s s.vault.cmd.index.toNat with ⟨s1, sound⟩
  have used : s1.power = s.power := by rw [power_fst hu, useRecord_power]
  rw [rotateOp, ← hd]
  simp only [hu]
  cases sound
  · simp only [power_ite, vaultEnd_power, used, ite_self]
  · simp only [power_ite, vaultEnd_power]
    repeat' split
    all_goals simp only [vaultEnd_power, invalidate_power, changeRecord_power]
    all_goals rw [power_snd ‹_›, drawn, used]
@[simp] theorem execRotate_keepsPower (c : VaultCmd) (s : State) : KeepsPower s (execRotate c s) :=
  whenVault_keepsPower s fun u => by simp only [implies_true, vaultCommand_power, rotateOp_power]
@[simp] theorem releaseOp_power (s : State) : (releaseOp s).power = s.power := by
  simp only [releaseOp]
  split
  · rw [vaultEnd_power, clearData_power]
  split
  · rw [vaultEnd_power, clearData_power]
  split
  next s1 hi =>
    have input : s1.power = s.power := by rw [power_fst hi, inputSlot_power]
    split
    · rw [vaultEnd_power, clearData_power, input]
    split
    · rw [vaultEnd_power, clearData_power, input]
    split
    next s2 hu => rw [vaultEnd_power, clearData_power, power_fst hu, useRecord_power, input]
    next s2 hu =>
      have used : s2.power = s.power := by rw [power_fst hu, useRecord_power, input]
      split <;> simp only [vaultEnd_power, clearData_power, vaultChanged_power, changeRecord_power, used]
  · rw [vaultEnd_power, clearData_power, power_fst ‹_›, inputSlot_power]
@[simp] theorem execRelease_keepsPower (c : VaultCmd) (s : State) : KeepsPower s (execRelease c s) :=
  whenVault_keepsPower s fun u => by simp only [implies_true, vaultCommand_power, releaseOp_power]
@[simp] theorem wrapKey_power (s : State) : (wrapKey s).1.power = s.power := by
  unfold wrapKey
  split
  · rfl
  · split
    · rfl
    · split <;> exact (power_fst ‹_›).trans (useSlot_power ..)
@[simp] theorem wrapOp_power (s : State) : (wrapOp s).power = s.power := by
  rcases hu : useSlot s s.vault.cmd.index.toNat with ⟨s1, sound⟩
  have used : s1.power = s.power := by rw [power_fst hu, useSlot_power]
  rcases hw : wrapKey s1 with ⟨s2, e⟩
  have wrapped : s2.power = s.power := by rw [power_fst hw, wrapKey_power, used]
  cases sound
  · simp only [wrapOp, hu, power_ite, vaultEnd_power, used, ite_self]
  · simp only [wrapOp, hu, hw, power_ite, vaultEnd_power]
    repeat' split
    all_goals simp only [vaultEnd_power, putData_power, drew_power]
    all_goals rename_i h
    all_goals rw [← (Prod.mk.inj h).1, wrapped]
@[simp] theorem execWrap_keepsPower (c : VaultCmd) (s : State) : KeepsPower s (execWrap c s) :=
  whenVault_keepsPower s fun u => by simp only [implies_true, vaultCommand_power, wrapOp_power]
@[simp] theorem unwrapOp_power (s : State) : (unwrapOp s).power = s.power := by
  simp only [unwrapOp, power_ite, vaultEnd_power, clearData_power, ite_eq_left_iff]
  intro _ _ _ _ _ _
  split
  next t hw =>
    have wrapped : t.power = s.power := by rw [power_fst hw, wrapKey_power]
    repeat' split
    all_goals simp only [vaultEnd_power, clearData_power, putSlot_power, notEmpty_power, wrapped]
  · simp only [vaultEnd_power, clearData_power, power_fst ‹_›, wrapKey_power]
@[simp] theorem execUnwrap_keepsPower (c : VaultCmd) (s : State) : KeepsPower s (execUnwrap c s) :=
  whenVault_keepsPower s fun u => by simp only [implies_true, vaultCommand_power, unwrapOp_power]
@[simp] theorem keypairOp_power (s : State) : (keypairOp s).power = s.power := by
  simp only [keypairOp]
  repeat' split
  all_goals simp only [vaultEnd_power, putData_power]
  all_goals exact (power_fst ‹_›).trans (useSlot_power ..)
@[simp] theorem execKeypair_keepsPower (c : VaultCmd) (s : State) : KeepsPower s (execKeypair c s) :=
  whenVault_keepsPower s fun u => by simp only [implies_true, vaultCommand_power, keypairOp_power]
@[simp] theorem destroySlot_power (s : State) (k : Nat) : (destroySlot s k).power = s.power := by
  simp only [destroySlot, power_ite, ite_self, emptySlot_power]
@[simp] theorem destroyAllNow_power (s : State) : (destroyAllNow s).power = s.power := by
  simp only [destroyAllNow, foldl_power, implies_true, destroySlot_power, emptyRecord_power, invalidate_power]
@[simp] theorem execDestroyAll_keepsPower (c : VaultCmd) (s : State) : KeepsPower s (execDestroyAll c s) :=
  whenVault_keepsPower s fun u => by simp only [implies_true, vaultCommand_power, destroyAllNow_power]
@[simp] theorem execVaultReservedOp_keepsPower (c : VaultCmd) (op : BitVec 5) (s : State) : KeepsPower s (execVaultReservedOp c op s) :=
  whenVault_keepsPower s fun u => by simp only [power_ite, ite_self, implies_true, vaultCommand_power, vaultEnd_power]
@[simp] theorem vaultMiss_power (s : State) (i : Island) (entry : Nat) : (vaultMiss s i entry).power = s.power := by simp only [vaultMiss]
@[simp] theorem serveFill_power (s : State) (port : Nat) : (serveFill s port).power = s.power := by
  simp only [serveFill]
  split
  · rfl
  · split
    · split
      · exact sendAll_power ..
      · split <;> simp only [sendAll_power, power_fst ‹_›, useRecord_power]
    · split
      · exact sendAll_power ..
      · split <;> simp only [sendAll_power, power_fst ‹_›, useSlot_power]
@[simp] theorem spoilNext_power (s : State) (port : Nat) : (spoilNext s port).power = s.power := by
  unfold spoilNext
  split <;> simp only [spoilEntry_power]
@[simp] theorem vaultFill_power (s : State) (readable : Bool) : (vaultFill s readable).power = s.power := by
  simp only [vaultFill]
  repeat' split
  all_goals simp only [serveFill_power, spoilNext_power]
@[simp] theorem execVaultFill_keepsPower (readable : Bool) (s : State) : KeepsPower s (execVaultFill readable s) :=
  whenRunning_keepsPower s fun u => by simp only [power_ite, ite_self, vaultFill_power]
@[simp] theorem sweepReport_power (s : State) (pier b : Nat) : (sweepReport s pier b).power = s.power := by
  simp only [sweepReport]
  repeat' split
  all_goals simp only [invalidate_power, endRotation_power]

/-! ### The crypto engine -/

@[simp] theorem cryptoRefuse_power (s : State) (err : Byte) : (cryptoRefuse s err).power = s.power := by simp only [cryptoRefuse]
@[simp] theorem cryptoRun_power (s : State) (err : Byte) (pass : Bool) (out : Bytes) : (cryptoRun s err pass out).power = s.power := by
  simp only [cryptoRun]
@[simp] theorem cryptoCommand_power (s : State) (ks : BitVec 6) (f : State → State) (hf : ∀ t, (f t).power = t.power) :
    (cryptoCommand s ks f).power = s.power := by
  simp only [cryptoCommand, power_ite, ite_self, cryptoRefuse_power, hf]
@[simp] theorem cryptoKey_power (s : State) (cls : Nat) (f : State → Bytes → State) (hf : ∀ t a, (f t a).power = t.power) :
    (cryptoKey s cls f).power = s.power := by
  simp only [cryptoKey]
  repeat' split
  all_goals simp only [cryptoRefuse_power, hf]
  all_goals exact (power_fst ‹_›).trans (useSlot_power ..)
@[simp] theorem execSha384Op_keepsPower (keysel : BitVec 6) (s : State) : KeepsPower s (execSha384Op keysel s) :=
  whenCommanded_keepsPower s fun u => by simp only [implies_true, cryptoCommand_power, cryptoRun_power]
@[simp] theorem execSha3Op_keepsPower (keysel : BitVec 6) (s : State) : KeepsPower s (execSha3Op keysel s) :=
  whenCommanded_keepsPower s fun u => by simp only [implies_true, cryptoCommand_power, cryptoRun_power]
@[simp] theorem execHmacOp_keepsPower (keysel : BitVec 6) (s : State) : KeepsPower s (execHmacOp keysel s) :=
  whenCommanded_keepsPower s fun u => by simp only [implies_true, cryptoCommand_power, cryptoKey_power, cryptoRun_power]
@[simp] theorem execAesGcmEncrypt_keepsPower (keysel : BitVec 6) (s : State) : KeepsPower s (execAesGcmEncrypt keysel s) :=
  whenCommanded_keepsPower s fun u => by
    simp only [power_ite, ite_self, implies_true, cryptoCommand_power, cryptoKey_power, cryptoRefuse_power, cryptoRun_power]
@[simp] theorem execAesGcmDecrypt_keepsPower (keysel : BitVec 6) (s : State) : KeepsPower s (execAesGcmDecrypt keysel s) :=
  whenCommanded_keepsPower s fun _ => cryptoCommand_power _ _ _ fun _ => cryptoKey_power _ _ _ fun u key => by
    simp only [power_ite, cryptoRefuse_power]
    split
    · rfl
    · split <;> rw [cryptoRun_power]
@[simp] theorem execHybridSign_keepsPower (keysel : BitVec 6) (s : State) : KeepsPower s (execHybridSign keysel s) :=
  whenCommanded_keepsPower s fun u => by
    simp only [power_ite, ite_self, implies_true, cryptoCommand_power, cryptoKey_power, cryptoRefuse_power, cryptoRun_power, drew_power]
@[simp] theorem execHybridVerify_keepsPower (keysel : BitVec 6) (s : State) : KeepsPower s (execHybridVerify keysel s) :=
  whenCommanded_keepsPower s fun u => by
    simp only [power_ite, ite_self, implies_true, cryptoCommand_power, cryptoRefuse_power, cryptoRun_power]
@[simp] theorem execDrbgRead_keepsPower (keysel : BitVec 6) (s : State) : KeepsPower s (execDrbgRead keysel s) :=
  whenCommanded_keepsPower s fun u => by
    simp only [power_ite, ite_self, implies_true, cryptoCommand_power, cryptoRefuse_power, cryptoRun_power, drew_power]
@[simp] theorem execCryptoReservedOp_keepsPower (keysel : BitVec 6) (op : BitVec 4) (s : State) :
    KeepsPower s (execCryptoReservedOp keysel op s) :=
  whenCommanded_keepsPower s fun u => by simp only [power_ite, ite_self, cryptoRefuse_power]
@[simp] theorem execCryptoOpDone_keepsPower (s : State) : KeepsPower s (execCryptoOpDone s) :=
  whenRunning_keepsPower s fun u => by split <;> rfl
@[simp] theorem drawNonce_power (s : State) : (drawNonce s).power = s.power := by simp only [drawNonce, power_ite, ite_self, drew_power]
@[simp] theorem entropyFail_power (s : State) : (entropyFail s).power = s.power := by
  unfold entropyFail
  split <;> simp only [power_ite, ite_self, alarm_power, halt_power]
@[simp] theorem execEntropyTestFail_keepsPower (s : State) : KeepsPower s (execEntropyTestFail s) :=
  whenRunning_keepsPower s fun _ => entropyFail_power ..
@[simp] theorem drbgReseed_power (s : State) (pass : Bool) : (drbgReseed s pass).power = s.power := by
  simp only [drbgReseed, power_ite, ite_self, drawNonce_power]
@[simp] theorem execDrbgReseed_keepsPower (pass : Bool) (s : State) : KeepsPower s (execDrbgReseed pass s) :=
  whenRunning_keepsPower s fun u => by simp only [power_ite, ite_self, drbgReseed_power]

/-! ### Mailbox replies -/

@[simp] theorem replyMs_power (s : State) (f : Func) (code mstatus : Byte) (body : Bytes) :
    (replyMs s f code mstatus body).power = s.power := (congrArg State.power (replyMs_frame s f code mstatus body) :)
@[simp] theorem reply_power (s : State) (f : Func) (code : Byte) (body : Bytes) :
    (reply s f code body).power = s.power := (congrArg State.power (reply_frame s f code body) :)

/-! ### The journal -/

@[simp] theorem flashProgram_power (s : State) (a : Nat) (b : Bytes) : (flashProgram s a b).power = s.power := by simp only [flashProgram]
@[simp] theorem flashErase_power (s : State) (a n : Nat) : (flashErase s a n).power = s.power := by simp only [flashErase, bump_power]
@[simp] theorem countersRecord_power (s : State) : (countersRecord s).power = s.power := by simp only [countersRecord, takeEntry_power]
@[simp] theorem execVppOkSet_keepsPower (s : State) : KeepsPower s (execVppOkSet s) :=
  whenRunning_keepsPower s fun u => by simp only [power_ite, ite_self, anchorBurn_power, vppSet_power]
@[simp] theorem execCountersRecordTimer_keepsPower (s : State) : KeepsPower s (execCountersRecordTimer s) :=
  whenPilot_keepsPower s fun u => by simp only [power_ite, ite_self, countersRecord_power]
@[simp] theorem execPowerOnHourTick_keepsPower (s : State) : KeepsPower s (execPowerOnHourTick s) := whenPilot_keepsPower s fun _ => rfl
@[simp] theorem journalScan_power (s : State) : (journalScan s).power = s.power := by
  simp only [journalScan, power_ite, ite_self, foldl_power, implies_true, recordEntry_power, record_power, countersRecord_power]
@[simp] theorem journalFail_power (s : State) (inErase : Bool) (status : Word) : (journalFail s inErase status).power = s.power := by
  simp only [journalFail, power_ite, ite_self, record_power, halt_power]
@[simp] theorem openSector_power (s : State) (e : FlashEnd) : (openSector s e).power = s.power := by
  simp only [openSector]
  repeat' split
  all_goals simp only [record_power, flashErase_power, drew_power, countersRecord_power, flashProgram_power,
    journalFail_power]
@[simp] theorem reportDropped_power (s : State) : (reportDropped s).power = s.power := by
  unfold reportDropped
  split <;> simp only [record_power]
@[simp] theorem settleCounters_power (s : State) (rcd : Bytes) : (settleCounters s rcd).power = s.power := by
  simp only [settleCounters, anchorBurn_power]
@[simp] theorem commitRecord_power (s : State) (e : FlashEnd) : (commitRecord s e).power = s.power := by
  simp only [commitRecord]
  repeat' split
  all_goals simp only [openSector_power, flashProgram_power, reportDropped_power, settleCounters_power,
    journalFail_power]
@[simp] theorem execJournalRecordCommit_keepsPower (programOk : FlashEnd) (s : State) :
    KeepsPower s (execJournalRecordCommit programOk s) :=
  whenPilot_keepsPower s fun _ => commitRecord_power ..
@[simp] theorem flushRecords_power (n : Nat) (s : State) : (flushRecords n s).power = s.power := by
  induction n generalizing s with
  | zero => rw [flushRecords]
  | succ n ih => simp only [flushRecords, power_ite, ih, commitRecord_power, ite_self]
@[simp] theorem recordsFirst_power (s : State) : (recordsFirst s).power = s.power := flushRecords_power _ s
@[simp] theorem firmwareHalt_power (s : State) (code : Byte) : (firmwareHalt s code).power = s.power := by
  unfold firmwareHalt
  split <;> simp only [halt_power, recordsFirst_power, record_power]
@[simp] theorem drainOne_power (s : State) : (drainOne s).1.power = s.power := by
  simp only [drainOne]
  repeat' split
  all_goals rfl
@[simp] theorem popAlarm_power (s : State) : (popAlarm s).power = s.power := by
  simp only [popAlarm]
  split <;> simp only [power_ite, bump_power, takeEntry_power, ite_self, power_fst ‹_›, drainOne_power]
@[simp] theorem execRing_keepsPower (s : State) : KeepsPower s (execRing s) :=
  whenCommanded_keepsPower s fun u => by simp only [notify_power]
@[simp] theorem execHostPost_keepsPower (s : State) : KeepsPower s (execHostPost s) :=
  whenCommanded_keepsPower s fun u => by simp only [fltPost_power]
@[simp] theorem execFltCons_keepsPower (value : Word) (s : State) : KeepsPower s (execFltCons value s) :=
  whenBar_keepsPower s _ fun u => by simp only [power_ite, ite_self]
@[simp] theorem execTimeNonce_keepsPower (body : Bytes) (s : State) : KeepsPower s (execTimeNonce body s) :=
  whenPilot_keepsPower s fun u => by simp only [power_ite, ite_self, replyMs_power, reply_power, drew_power]
@[simp] theorem execTimeNonceExpiry_keepsPower (s : State) : KeepsPower s (execTimeNonceExpiry s) :=
  whenRunning_keepsPower s fun _ => rfl
@[simp] theorem execTimeMark_keepsPower (body : Bytes) (s : State) : KeepsPower s (execTimeMark body s) :=
  whenPilot_keepsPower s fun u => by split <;> simp only [record_power, reply_power]
@[simp] theorem tagsBad_power (s : State) (rs : List Bytes) : (tagsBad s rs).power = s.power := by
  simp only [tagsBad, foldl_power, implies_true, record_power]
@[simp] theorem execJournalRead_keepsPower (body : Bytes) (s : State) : KeepsPower s (execJournalRead body s) :=
  whenPilot_keepsPower s fun u => by simp only [power_ite, ite_self, reply_power, tagsBad_power]
@[simp] theorem execCounters_keepsPower (body : Bytes) (s : State) : KeepsPower s (execCounters body s) :=
  whenPilot_keepsPower s fun u => by simp only [power_ite, ite_self, replyMs_power, reply_power]

/-! ### Images in the flash -/

@[simp] theorem programWord_power (s : State) (src : BootSource) (off v : Nat) : (programWord s src off v).power = s.power := by
  simp only [programWord, flashProgram_power]
@[simp] theorem markBad_power (s : State) : (markBad s).power = s.power := by
  unfold markBad
  split <;> simp only [programWord_power]

/-! ### The start-up -/

@[simp] theorem execIslandSelfTestStart_keepsPower (isl : Island) (s : State) : KeepsPower s (execIslandSelfTestStart isl s) :=
  whenRunning_keepsPower s fun u => by simp only [power_ite, ite_self, State.setIsland_power]
@[simp] theorem execIslandSelfTestDone_keepsPower (isl : Island) (pass : Bool) (s : State) :
    KeepsPower s (execIslandSelfTestDone isl pass s) :=
  whenRunning_keepsPower s fun u => by simp only [power_ite, ite_self, State.setIsland_power]
@[simp] theorem execCoreIslandSelfTestDone_keepsPower (isl : Island) (pass : Bool) (s : State) :
    KeepsPower s (execCoreIslandSelfTestDone isl pass s) :=
  whenRunning_keepsPower s fun u => by split <;> simp only [power_ite, ite_self, halt_power]
@[simp] theorem retire_power (s : State) (ix : Nat) : (retire s ix).power = s.power := by simp only [retire, power_ite, ite_self]
@[simp] theorem outOfService_power (s : State) (ix : Nat) : (outOfService s ix).power = s.power := by
  simp only [outOfService, note_power, retire_power, State.setIsland_power]
@[simp] theorem faultBerths_power (s : State) (hit : Berth → Bool) (set_ : Berth → Berth) : (faultBerths s hit set_).power = s.power := by
  simp only [faultBerths, power_ite, ite_self, foldl_power, implies_true, State.setBerth_power, msix_power]
@[simp] theorem raiseLost_power (s : State) (ix : Nat) : (raiseLost s ix).power = s.power := by
  simp only [raiseLost, power_ite, ite_self, faultBerths_power]
@[simp] theorem homeLost_power (s : State) (ix : Nat) : (homeLost s ix).power = s.power := by
  simp only [homeLost, power_ite, ite_self, raiseLost_power]
@[simp] theorem loseLane_power (s : State) (ix : Nat) : (loseLane s ix).power = s.power := by
  simp only [loseLane, homeLost_power, outOfService_power]
@[simp] theorem coverLane_power (s : State) (home : Nat) : (coverLane s home).power = s.power := by
  unfold coverLane
  split <;> simp only [homeLost_power]
@[simp] theorem failTested_power (s : State) (ix : Nat) : (failTested s ix).power = s.power := by
  simp only [failTested]
  repeat' split
  all_goals simp only [State.setIsland_power, outOfService_power, coverLane_power, loseLane_power]
@[simp] theorem unserve_power (s : State) (ix : Nat) : (unserve s ix).power = s.power := by
  simp only [unserve, power_ite, ite_self, homeLost_power, loseLane_power]
@[simp] theorem collectTests_power (s : State) : (collectTests s).power = s.power := by
  simp only [collectTests, power_ite, ite_self, foldl_power, implies_true, failTested_power, milestone_power]
@[simp] theorem execSelfTestCollectionTimeout_keepsPower (s : State) : KeepsPower s (execSelfTestCollectionTimeout s) :=
  whenPilot_keepsPower s fun _ => collectTests_power ..
@[simp] theorem takeMeasure_power (s : State) (i : Nat) (v : Bytes) : (takeMeasure s i v).power = s.power := by simp only [takeMeasure]
@[simp] theorem romAdvance_power (s : State) : (romAdvance s).power = s.power := by
  simp only [romAdvance]
  repeat' split
  all_goals simp only [halt_power, showStat_power]
@[simp] theorem sensingDone_power (s : State) (complete : Bool) (drift : List (Nat × FuseCell)) :
    (sensingDone s complete drift).power = s.power := by
  simp only [sensingDone, power_ite, ite_self, foldl_power, implies_true, halt_power, wordAlarms_power, regionAlarms_power,
    fuseAlarm_power, forwardToken_power, milestone_power]
@[simp] theorem execFuseSensingDone_keepsPower (complete : Bool) (drift : List (Nat × FuseCell)) (s : State) :
    KeepsPower s (execFuseSensingDone complete drift s) :=
  whenRunning_keepsPower s fun _ => sensingDone_power ..
@[simp] theorem romPolicy_power (s : State) : (romPolicy s).power = s.power := by
  simp only [romPolicy, power_ite, ite_self, halt_power, record_power, romAdvance_power, takeMeasure_power]
@[simp] theorem entropyStartup_power (s : State) (pass : Bool) : (entropyStartup s pass).power = s.power := by
  simp only [entropyStartup, power_ite, ite_self, romAdvance_power, drawNonce_power, drew_power]
@[simp] theorem sfdpDone_power (s : State) (answers octal : Bool) (sectors : Nat) : (sfdpDone s answers octal sectors).power = s.power := by
  simp only [sfdpDone, power_ite, ite_self, romAdvance_power, milestone_power]
@[simp] theorem failSource_power (s : State) (err : Byte) : (failSource s err).power = s.power := by
  simp only [failSource]
  repeat' split
  all_goals simp only [halt_power, showStat_power]
@[simp] theorem bootSourceCheck_power (s : State) : (bootSourceCheck s).power = s.power := by
  simp only [bootSourceCheck]
  repeat' split
  all_goals simp only [takeMeasure_power, failSource_power]
@[simp] theorem execBootSourceCheck_keepsPower (s : State) : KeepsPower s (execBootSourceCheck s) :=
  whenRunning_keepsPower s fun _ => bootSourceCheck_power ..
@[simp] theorem blockRead_power (s : State) (transferOk : Bool) : (blockRead s transferOk).power = s.power := by
  simp only [blockRead]
  repeat' split
  all_goals simp only [failSource_power]
@[simp] theorem execFlashBlockRead_keepsPower (transferOk : Bool) (s : State) : KeepsPower s (execFlashBlockRead transferOk s) :=
  whenRunning_keepsPower s fun _ => blockRead_power ..
@[simp] theorem deriveCdi_power (s : State) : (deriveCdi s).power = s.power := by simp only [deriveCdi, power_ite, ite_self, putSlot_power]
@[simp] theorem chainVerified_power (s : State) : (chainVerified s).power = s.power := by
  unfold chainVerified
  split <;> simp only [power_ite, ite_self, programWord_power, deriveCdi_power, milestone_power]
@[simp] theorem execChainVerified_keepsPower (s : State) : KeepsPower s (execChainVerified s) :=
  whenRunning_keepsPower s fun _ => chainVerified_power ..

/-! ### The settings -/

@[simp] theorem chooseSettings_power (s0 : State) : (chooseSettings s0).power = s0.power := by
  simp only [chooseSettings]
  split <;> simp only [power_ite, ite_self, touchSlot_power, record_power]
@[simp] theorem judgeIdentities_power (s0 : State) : (judgeIdentities s0).power = s0.power := by
  simp only [judgeIdentities, power_ite, ite_self, touchSlot_power]
@[simp] theorem settingsStored_power (s : State) : (settingsStored s).power = s.power := by
  simp only [settingsStored, power_ite, ite_self, flashErase_power, drew_power, flashProgram_power, showStat_power, reply_power]
@[simp] theorem pilotHalt_power (s : State) (code : Byte) : (pilotHalt s code).power = s.power := by
  simp only [pilotHalt, power_ite, ite_self, recordsFirst_power, record_power, halt_power, markBad_power]
@[simp] theorem installRefused_power (s : State) : (installRefused s).power = s.power := by
  simp only [installRefused]
  split <;> simp only [power_ite, ite_self, judgeIdentities_power, reply_power]
@[simp] theorem settingsFailed_power (s : State) : (settingsFailed s).power = s.power := by
  simp only [settingsFailed, power_ite, ite_self, pilotHalt_power, installRefused_power]
@[simp] theorem execSettingsWrite_keepsPower (programOk : Bool) (s : State) : KeepsPower s (execSettingsWrite programOk s) :=
  whenPilot_keepsPower s fun u => by simp only [power_ite, ite_self, settingsStored_power, settingsFailed_power]
@[simp] theorem enrolCsr_power (s0 : State) (body : Bytes) : (enrolCsr s0 body).power = s0.power := by
  simp only [enrolCsr, power_ite, ite_self, reply_power, touchSlot_power, drew_power]
@[simp] theorem execEnrolCsr_keepsPower (body : Bytes) (s : State) : KeepsPower s (execEnrolCsr body s) :=
  whenPilot_keepsPower s fun _ => enrolCsr_power ..
@[simp] theorem enrolInstall_power (s : State) (body : Bytes) : (enrolInstall s body).power = s.power := by
  unfold enrolInstall
  split <;> simp only [power_ite, ite_self, reply_power, judgeIdentities_power]
@[simp] theorem execEnrolInstall_keepsPower (body : Bytes) (s : State) : KeepsPower s (execEnrolInstall body s) :=
  whenPilot_keepsPower s fun _ => enrolInstall_power ..

/-! ### Certificates -/

@[simp] theorem issueAlias_power (s0 : State) (kind : Nat) : (issueAlias s0 kind).power = s0.power := by
  simp only [issueAlias, power_ite, ite_self, touchSlot_power, drew_power]

/-! ### Updates -/

@[simp] theorem setUpdate_power (s : State) (st : UpdateState) (status : Byte) : (setUpdate s st status).power = s.power := by
  simp only [setUpdate, power_ite, ite_self, record_power]
@[simp] theorem updateReply_power (s : State) (code st : Byte) : (updateReply s code st).power = s.power := by
  simp only [updateReply, reply_power]
@[simp] theorem eraseArea_power (s : State) (base : Nat) (m : Bytes) : (eraseArea s base m).power = s.power := by
  simp only [eraseArea, foldl_power, implies_true, flashErase_power]
@[simp] theorem execUpdateStatus_keepsPower (body : Bytes) (s : State) : KeepsPower s (execUpdateStatus body s) :=
  whenPilot_keepsPower s fun u => by simp only [power_ite, ite_self, replyMs_power, reply_power]
@[simp] theorem execUpdateBegin_keepsPower (body : Bytes) (s : State) : KeepsPower s (execUpdateBegin body s) :=
  whenPilot_keepsPower s fun u => by
    dsimp only
    repeat' split
    all_goals simp only [updateReply_power, setUpdate_power]
@[simp] theorem execUpdateEraseDone_keepsPower (ok : Bool) (s : State) : KeepsPower s (execUpdateEraseDone ok s) :=
  whenPilot_keepsPower s fun u => by
    simp only [power_ite, ite_self, eraseArea_power, flashErase_power, recordsFirst_power, setUpdate_power,
      flashProgram_power]
@[simp] theorem execUpdateWrite_keepsPower (body : Bytes) (s : State) : KeepsPower s (execUpdateWrite body s) :=
  whenPilot_keepsPower s fun u => by
    simp only [power_ite, ite_self, updateReply_power, flashProgram_power, recordsFirst_power]
@[simp] theorem execUpdateEnd_keepsPower (body : Bytes) (s : State) : KeepsPower s (execUpdateEnd body s) :=
  whenPilot_keepsPower s fun u => by simp only [power_ite, ite_self, replyMs_power, updateReply_power, setUpdate_power]
@[simp] theorem execUpdateValidateDone_keepsPower (programOk : Bool) (s : State) : KeepsPower s (execUpdateValidateDone programOk s) :=
  whenPilot_keepsPower s fun u => by
    simp only [power_ite, ite_self, setUpdate_power, programWord_power, flashErase_power, recordsFirst_power]
@[simp] theorem execUpdateAbort_keepsPower (body : Bytes) (s : State) : KeepsPower s (execUpdateAbort body s) :=
  whenPilot_keepsPower s fun u => by
    rw [power_ite, replyMs_power]
    split
    · rfl
    · split <;> simp only [updateReply_power, setUpdate_power, programWord_power, recordsFirst_power]
@[simp] theorem confirmTrial_power (s : State) : (confirmTrial s).power = s.power := by
  simp only [confirmTrial, power_ite, ite_self, setUpdate_power, programWord_power, recordsFirst_power]
@[simp] theorem execTrialConfirm_keepsPower (s : State) : KeepsPower s (execTrialConfirm s) :=
  whenPilot_keepsPower s fun _ => confirmTrial_power ..
@[simp] theorem burnCounters_power (s : State) : (burnCounters s).power = s.power := by
  simp only [burnCounters]
  repeat' split
  all_goals simp only [fuseBegin_power, bump_power, setUpdate_power, programWord_power, recordsFirst_power]
@[simp] theorem execCounterBurn_keepsPower (s : State) : KeepsPower s (execCounterBurn s) :=
  whenPilot_keepsPower s fun _ => burnCounters_power ..
@[simp] theorem execUpdateConfirm_keepsPower (body : Bytes) (s : State) : KeepsPower s (execUpdateConfirm body s) :=
  whenPilot_keepsPower s fun u => by
    dsimp only
    repeat' split
    all_goals simp only [replyMs_power, updateReply_power, confirmTrial_power, burnCounters_power]
@[simp] theorem copyArea_power (s : State) : (copyArea s).power = s.power := by
  simp only [copyArea, foldl_power, implies_true, eraseArea_power, flashErase_power, flashProgram_power]
@[simp] theorem copySlipway_power (s0 : State) (ok : Bool) : (copySlipway s0 ok).power = s0.power := by
  simp only [copySlipway]
  repeat' split
  all_goals simp only [recordsFirst_power, setUpdate_power, programWord_power, copyArea_power, flashProgram_power,
    flashErase_power]
@[simp] theorem execSlipwayCopy_keepsPower (programOk : Bool) (s : State) : KeepsPower s (execSlipwayCopy programOk s) :=
  whenPilot_keepsPower s fun _ => copySlipway_power ..

/-! ### The firmware -/

@[simp] theorem deriveInto_power (s : State) (k : Nat) : (deriveInto s k).power = s.power := by simp only [deriveInto, deriveOp_power]
@[simp] theorem firmwareEntry_power (s : State) : (firmwareEntry s).power = s.power := by
  unfold firmwareEntry
  split <;> simp only [power_ite, ite_self, foldl_power, implies_true, deriveInto_power, journalScan_power, record_power,
    judgeIdentities_power, chooseSettings_power, takeMeasure_power, issueAlias_power]
@[simp] theorem ucBroadcast_power (s : State) (k : UcKind) : (ucBroadcast s k).power = s.power := by
  simp only [ucBroadcast, power_ite, ite_self, foldl_power, implies_true, State.setIsland_power]
@[simp] theorem microcodeInstall_power (s : State) (k : UcKind) : (microcodeInstall s k).power = s.power := by
  unfold microcodeInstall
  split <;> simp only [power_ite, ite_self, ucBroadcast_power, takeMeasure_power, pilotHalt_power]
@[simp] theorem execMicrocodeInstall_keepsPower (k : UcKind) (s : State) : KeepsPower s (execMicrocodeInstall k s) :=
  whenPilot_keepsPower s fun u => by simp only [power_ite, ite_self, microcodeInstall_power]
@[simp] theorem microcodeCrc_power (s : State) (i : Island) (crc : Word) : (microcodeCrc s i crc).power = s.power := by
  simp only [microcodeCrc]
  repeat' split
  all_goals simp only [State.setIsland_power, failTested_power, showWait_power, milestone_power]
@[simp] theorem execMicrocodeCrcReturn_keepsPower (isl : Island) (crc : Word) (s : State) :
    KeepsPower s (execMicrocodeCrcReturn isl crc s) :=
  whenPilot_keepsPower s fun _ => microcodeCrc_power ..
@[simp] theorem execLoadEn_keepsPower (v : Bool) (s : State) : KeepsPower s (execLoadEn v s) :=
  whenCommanded_keepsPower s fun u => by simp only [power_ite, ite_self]
@[simp] theorem mgmtLoad_power (s : State) : (mgmtLoad s).power = s.power := by
  simp only [mgmtLoad, power_ite, ite_self, emit_power, takeMeasure_power, pilotHalt_power]
@[simp] theorem execMgmtFirmwareLoad_keepsPower (s : State) : KeepsPower s (execMgmtFirmwareLoad s) :=
  whenPilot_keepsPower s fun _ => mgmtLoad_power ..
@[simp] theorem mgmtRelease_power (s : State) (v : Bool) : (mgmtRelease s v).power = s.power := by simp only [mgmtRelease]
@[simp] theorem mgmtRun_power (s : State) (v : Bool) : (mgmtRun s v).power = s.power := by
  simp only [mgmtRun, power_ite, ite_self, milestone_power, mgmtRelease_power]
@[simp] theorem execMgmtRun_keepsPower (v : Bool) (s : State) : KeepsPower s (execMgmtRun v s) :=
  whenPilot_keepsPower s fun _ => mgmtRun_power ..
@[simp] theorem outGo_power (s : State) : (outGo s).power = s.power := by simp only [outGo, emit_power]
@[simp] theorem execOutGo_keepsPower (s : State) : KeepsPower s (execOutGo s) := whenCommanded_keepsPower s fun _ => outGo_power ..
@[simp] theorem execMgmtOutTaken_keepsPower (s : State) : KeepsPower s (execMgmtOutTaken s) :=
  whenRunning_keepsPower s fun u => by simp only [power_ite, ite_self]
@[simp] theorem execInFullClear_keepsPower (s : State) : KeepsPower s (execInFullClear s) :=
  whenCommanded_keepsPower s fun _ => rfl
@[simp] theorem mgmtLand_power (s : State) (msg : Bytes) : (mgmtLand s msg).power = s.power := by simp only [mgmtLand, power_ite, ite_self]
@[simp] theorem memTrained_power (s : State) (stackMap : BitVec 8) (ports : BitVec 16) : (memTrained s stackMap ports).power = s.power := by
  simp only [memTrained, foldl_power, implies_true, milestone_power, unserve_power]

/-! ### SPDM -/

@[simp] theorem State.setConn_power (s : State) (t : Transport) (c : SpdmConn) : (State.setConn s t c).power = s.power := by
  unfold State.setConn; split <;> rfl
@[simp] theorem spdmSay_power (s : State) (t : Transport) (e : Emission) (fields : List Bytes) :
    (spdmSay s t e fields).power = s.power := by
  unfold spdmSay
  split <;> simp only [sendSpdm_power, reply_power, emit_power]
@[simp] theorem spdmSend_power (s : State) (t : Transport) (r : SpdmReply) : (spdmSend s t r).power = s.power := by
  simp only [spdmSend, spdmSay_power]
@[simp] theorem spdmRefuse_power (s : State) (t : Transport) (r : SpdmFail) : (spdmRefuse s t r).power = s.power := by
  simp only [spdmRefuse, spdmSay_power]
@[simp] theorem spdmAsk_power (s : State) (t : Transport) (req : List Bytes) (f : State → State) (hf : ∀ u, (f u).power = u.power) :
    (spdmAsk s t req f).power = s.power := by
  unfold spdmAsk
  split <;> simp only [power_ite, toPilotServed_power, hf, implies_true, ite_self]
@[simp] theorem spdmReady_power (s : State) (t : Transport) (f : State → State) (hf : ∀ t, (f t).power = t.power) :
    (spdmReady s t f).power = s.power := by
  simp only [spdmReady, power_ite, ite_self, spdmRefuse_power, hf]
@[simp] theorem aliasUse_power (s : State) (t : Transport) (f : State → State) (hf : ∀ t, (f t).power = t.power) :
    (aliasUse s t f).power = s.power := by
  simp only [aliasUse, power_ite, ite_self, touchSlot_power, spdmRefuse_power, hf]
@[simp] theorem execGetVersion_keepsPower (t : Transport) (s : State) : KeepsPower s (execGetVersion t s) :=
  whenRunning_keepsPower s fun u => by simp only [implies_true, spdmAsk_power, spdmSend_power, State.setConn_power]
@[simp] theorem execGetCapabilities_keepsPower (t : Transport) (version : SpdmVersion) (s : State) :
    KeepsPower s (execGetCapabilities t version s) :=
  whenRunning_keepsPower s fun u => by simp only [implies_true, spdmAsk_power, spdmSend_power, State.setConn_power]
@[simp] theorem execNegotiateAlgorithms_keepsPower (t : Transport) (offersSha384 offersP384 : Bool) (s : State) :
    KeepsPower s (execNegotiateAlgorithms t offersSha384 offersP384 s) :=
  whenRunning_keepsPower s fun u => by
    simp only [power_ite, ite_self, implies_true, spdmAsk_power, spdmRefuse_power, spdmSend_power, State.setConn_power]
@[simp] theorem execGetDigests_keepsPower (t : Transport) (s : State) : KeepsPower s (execGetDigests t s) :=
  whenRunning_keepsPower s fun u => by simp only [implies_true, spdmAsk_power, spdmReady_power, spdmSend_power]
@[simp] theorem execGetCertificate_keepsPower (t : Transport) (slot offset length : Nat) (s : State) :
    KeepsPower s (execGetCertificate t slot offset length s) :=
  whenRunning_keepsPower s fun _ => spdmAsk_power _ _ _ _ fun _ => spdmReady_power _ _ _ fun u => by
    split <;> simp only [power_ite, spdmRefuse_power, spdmSend_power, ite_self]
@[simp] theorem execChallenge_keepsPower (t : Transport) (slot : Nat) (nonce : Bytes) (s : State) :
    KeepsPower s (execChallenge t slot nonce s) :=
  whenRunning_keepsPower s fun _ => spdmAsk_power _ _ _ _ fun _ => spdmReady_power _ _ _ fun u => by
    rw [power_ite, spdmRefuse_power]
    split
    · rfl
    · split
      · rw [spdmRefuse_power]
      · exact aliasUse_power _ _ _ fun w => by rw [spdmSend_power, drew_power]
@[simp] theorem execGetMeasurements_keepsPower (t : Transport) (index : Byte) (sign : Bool) (nonce : Bytes) (s : State) :
    KeepsPower s (execGetMeasurements t index sign nonce s) :=
  whenRunning_keepsPower s fun _ => spdmAsk_power _ _ _ _ fun _ => spdmReady_power _ _ _ fun u => by
    simp only [power_ite, spdmRefuse_power, spdmSend_power, aliasUse_power, drew_power, implies_true, ite_self]
@[simp] theorem execSpdmUnsupportedRequest_keepsPower (t : Transport) (code : Byte) (s : State) :
    KeepsPower s (execSpdmUnsupportedRequest t code s) :=
  whenRunning_keepsPower s fun u => by simp only [power_ite, ite_self, implies_true, spdmAsk_power, spdmRefuse_power]

/-! ### The tables of the Piers -/

@[simp] theorem modPier_power (s : State) (n : Nat) (f : PierSt → PierSt) : (modPier s n f).power = s.power := by
  simp only [modPier, State.setPier_power]

/-! ### The sites -/

@[simp] theorem setBoardWindow_power (s : State) (k : Nat) (e : Option WinEntry) : (setBoardWindow s k e).power = s.power := by
  simp only [setBoardWindow, foldl_power, implies_true, modPier_power]
@[simp] theorem sendSide_power (s : State) (k : Nat) (e : Emission) (b : Bytes) : (sendSide s k e b).power = s.power := by
  simp only [sendSide, foldl_emit_power, emit_power]
@[simp] theorem sendSite_power (s : State) (k : Nat) (m : SiteMsg) : (sendSite s k m).power = s.power := by
  simp only [sendSite, sendSide_power]
@[simp] theorem sendAsks_power (s : State) (k : Nat) (step : SiteStep) : (sendAsks s k step).power = s.power := by
  simp only [sendAsks, foldl_power, implies_true, sendSite_power]
@[simp] theorem reboardEnd_power (s : State) (k : Nat) (status step : Byte) : (reboardEnd s k status step).power = s.power := by
  simp only [reboardEnd, power_ite, ite_self, State.setSite_power, reply_power]
@[simp] theorem areaAcked_power (s : State) (k : Nat) : (areaAcked s k).power = s.power := by simp only [areaAcked]
@[simp] theorem siteCleared_power (s : State) (k : Nat) : (siteCleared s k).power = s.power := by simp only [siteCleared]
@[simp] theorem failSite_power (s : State) (k code : Nat) : (failSite s k code).power = s.power := by
  simp only [failSite, reboardEnd_power, note_power, setBoardWindow_power, areaAcked_power, State.setSite_power, siteCleared_power]

/-! ### Lines at a Pier -/

@[simp] theorem respond_power (s : State) (n : Nat) (l : FabricLine) (r : LineResp) (data : Bytes) :
    (respond s n l r data).power = s.power := by
  simp only [respond, emit_power]
@[simp] theorem stagingAlarm_power (s : State) (n : Nat) (l : FabricLine) : (stagingAlarm s n l).power = s.power := by
  simp only [stagingAlarm, power_ite, ite_self, alarm_power, failSite_power]
@[simp] theorem refuse_power (s : State) (n : Nat) (l : FabricLine) (berth : Nat) (cause : Byte) :
    (refuse s n l berth cause).power = s.power := by
  simp only [refuse, power_ite, ite_self, State.setPier_power, alarm_power, stagingAlarm_power, respond_power]
@[simp] theorem capPush_power (s : State) (n : Nat) (c : CapLine) : (capPush s n c).power = s.power := by
  simp only [capPush]
  repeat' split
  all_goals simp only [foldl_emit_power, State.setPier_power]
@[simp] theorem captureEntry_power (s : State) (n : Nat) (hits : List (CapRange × Nat × Nat)) (plain : Bytes) :
    (captureEntry s n hits plain).power = s.power := by
  simp only [captureEntry, power_ite, ite_self, capPush_power, State.setPier_power]
@[simp] theorem captureTap_power (s : State) (n home : Nat) (l : FabricLine) (b : Nat) (plain : Bytes) :
    (captureTap s n home l b plain).power = s.power := by
  simp only [captureTap, foldl_power, implies_true, captureEntry_power]
@[simp] theorem captureLost_power (s : State) (n home : Nat) (l : FabricLine) (b : Nat) : (captureLost s n home l b).power = s.power := by
  simp only [captureLost, power_ite, ite_self, State.setPier_power]
@[simp] theorem pairTap_power (s : State) (n home line b : Nat) (key : Option KeyFill) (plain : Bytes) :
    (pairTap s n home line b key plain).power = s.power := by
  unfold pairTap
  split <;> simp only [modPier_power]
@[simp] theorem pairSpoil_power (s : State) (n home line b : Nat) (status : Byte) : (pairSpoil s n home line b status).power = s.power := by
  simp only [pairSpoil]
@[simp] theorem metaInsert_power (s : State) (n ml : Nat) (m : Bytes) (dirty : Bool) : (metaInsert s n ml m dirty).power = s.power := by
  simp only [metaInsert]
  split <;> simp only [power_ite, ite_self, State.setPier_power, emit_power]
@[simp] theorem metaFlush_power (s : State) (n : Nat) : (metaFlush s n).power = s.power := by
  simp only [metaFlush, foldl_emit_power, State.setPier_power]
@[simp] theorem tier2Store_power (s : State) (n home line b : Nat) (key : KeyFill) (m plain : Bytes) :
    (tier2Store s n home line b key m plain).power = s.power := by
  simp only [tier2Store]
  split <;> simp only [metaInsert_power, emit_power]
@[simp] theorem setIntegrity_power (s : State) (b : Nat) : (setIntegrity s b).power = s.power := by
  simp only [setIntegrity, power_ite, ite_self, State.setBerth_power, msix_power]
@[simp] theorem macNote_power (s : State) (n b : Nat) : (macNote s n b).power = s.power := by
  simp only [macNote, alarm_power, setIntegrity_power, State.setPier_power]
@[simp] theorem macFail_power (s : State) (n home line b : Nat) (key : KeyFill) (m ct : Bytes) :
    (macFail s n home line b key m ct).power = s.power := by
  unfold macFail
  split <;> simp only [metaInsert_power, macNote_power]
@[simp] theorem pushOut_power (s : State) (n : Nat) (o : OutRead) : (pushOut s n o).power = s.power := by
  simp only [pushOut, power_ite, ite_self, modPier_power, emit_power]
@[simp] theorem tier1Line_power (s : State) (n home : Nat) (o : OutRead) : (tier1Line s n home o).power = s.power := by
  simp only [tier1Line]
  repeat' split
  all_goals simp only [pushOut_power, modPier_power, pairSpoil_power, captureTap_power, respond_power, emit_power]
@[simp] theorem tier2Line_power (s : State) (n home : Nat) (o : OutRead) (b : Nat) (key : KeyFill) :
    (tier2Line s n home o b key).power = s.power := by
  simp only [tier2Line]
  repeat' split
  all_goals simp only [respond_power, pairTap_power, captureTap_power, State.setPier_power, pushOut_power,
    modPier_power, pairSpoil_power, tier2Store_power]
@[simp] theorem lineGo_power (s : State) (n home : Nat) (o : OutRead) : (lineGo s n home o).power = s.power := by
  simp only [lineGo]
  repeat' split
  all_goals simp only [modPier_power, tier1Line_power, tier2Line_power]
@[simp] theorem capTaken_power (s : State) (n : Nat) (l : FabricLine) : (capTaken s n l).power = s.power := by
  simp only [capTaken, power_ite, ite_self]
@[simp] theorem unboundLine_power (s : State) (n home : Nat) (l : FabricLine) : (unboundLine s n home l).power = s.power := by
  simp only [unboundLine, power_ite, ite_self, refuse_power, lineGo_power]
@[simp] theorem checkWindow_power (s : State) (n home : Nat) (l : FabricLine) (b : Nat) (k : KeyFill) :
    (checkWindow s n home l b k).power = s.power := by
  unfold checkWindow
  split <;> simp only [power_ite, ite_self, refuse_power, lineGo_power]
@[simp] theorem missLine_power (s : State) (n : Nat) (l : FabricLine) (b : Nat) (asked : Option Nat) :
    (missLine s n l b asked).power = s.power := by
  simp only [missLine, power_ite, ite_self, State.setPier_power, vaultMiss_power]
@[simp] theorem checkLine_power (s : State) (n : Nat) (l : FabricLine) (asked : Option Nat) : (checkLine s n l asked).power = s.power := by
  simp only [checkLine]
  repeat' split
  all_goals simp only [refuse_power, lineGo_power, capTaken_power, unboundLine_power, checkWindow_power,
    State.setPier_power, missLine_power]
@[simp] theorem checkTurn_power (s : State) (n : Nat) (q : MissLine) : (checkTurn s n q).power = s.power := by
  simp only [checkTurn, power_ite, ite_self, modPier_power, checkLine_power]
@[simp] theorem pierLine_power (s : State) (n : Nat) (l : FabricLine) : (pierLine s n l).power = s.power := by
  simp only [pierLine, power_ite, ite_self, refuse_power, checkTurn_power]
@[simp] theorem execPierLine_keepsPower (pier : Nat) (l : FabricLine) (s : State) : KeepsPower s (execPierLine pier l s) :=
  whenRunning_keepsPower s fun _ => pierLine_power ..
@[simp] theorem retryMisses_power (s : State) (n : Nat) : (retryMisses s n).power = s.power := by
  simp only [retryMisses, foldl_power, implies_true, checkTurn_power, modPier_power]
@[simp] theorem retryHeld_power (s : State) (n : Nat) : (retryHeld s n).power = s.power := by
  unfold retryHeld
  split <;> simp only [foldl_power, implies_true, lineGo_power, modPier_power]
@[simp] theorem parkDrained_power (s : State) (n : Nat) : (parkDrained s n).power = s.power := by
  simp only [parkDrained, power_ite, ite_self, metaFlush_power, State.setIsland_power]
@[simp] theorem deliver_power (s : State) (n home : Nat) (o : OutRead) (plain m : Bytes) :
    (deliver s n home o plain m).power = s.power := by
  simp only [deliver]
  repeat' split
  all_goals simp only [pairTap_power, captureTap_power, respond_power, pairSpoil_power, emit_power, tier2Store_power]
@[simp] theorem poisoned_power (s : State) (n home : Nat) (o : OutRead) : (poisoned s n home o).power = s.power := by
  unfold poisoned
  split <;> simp only [pairSpoil_power, captureLost_power, respond_power]
@[simp] theorem rsCorrected_power (s : State) (n line : Nat) (p : Bytes) (scrub : Bool) :
    (rsCorrected s n line p scrub).power = s.power := by
  simp only [rsCorrected, State.setPier_power]
@[simp] theorem rsLost_power (s : State) (n berth : Nat) : (rsLost s n berth).power = s.power := by
  simp only [rsLost, alarm_power, State.setPier_power]
@[simp] theorem tier1Return_power (s : State) (n home : Nat) (o : OutRead) (stored side : Bytes) :
    (tier1Return s n home o stored side).power = s.power := by
  unfold tier1Return
  split <;> simp only [deliver_power, rsCorrected_power, poisoned_power, rsLost_power]
@[simp] theorem macReturn_power (s : State) (n home b : Nat) (o : OutRead) (key : KeyFill) (m : Option Bytes) (ct : Bytes) :
    (macReturn s n home b o key m ct).power = s.power := by
  unfold macReturn
  split <;> simp only [macNote_power, metaInsert_power, pushOut_power]
@[simp] theorem tier2Return_power (s : State) (n home : Nat) (o : OutRead) (stored side : Bytes) :
    (tier2Return s n home o stored side).power = s.power := by
  simp only [tier2Return]
  repeat' split
  all_goals simp only [pushOut_power, metaInsert_power, deliver_power, poisoned_power, macReturn_power,
    pairSpoil_power, captureTap_power, respond_power, tier2Store_power]
@[simp] theorem readReturn_power (s : State) (n : Nat) (stored side : Bytes) : (readReturn s n stored side).power = s.power := by
  unfold readReturn
  split <;> simp only [power_ite, ite_self, modPier_power, tier1Return_power, tier2Return_power, parkDrained_power, retryHeld_power]
@[simp] theorem execPierReadReturn_keepsPower (pier : Nat) (stored side : Bytes) (s : State) :
    KeepsPower s (execPierReadReturn pier stored side s) :=
  whenMemory_keepsPower s fun _ => readReturn_power ..

/-! ### A Pier's own work -/

@[simp] theorem pierFill_power (s : State) (n entry : Nat) (f : Option KeyFill) : (pierFill s n entry f).power = s.power := by
  simp only [pierFill, parkDrained_power, retryMisses_power, State.setPier_power]
@[simp] theorem pierInvalidate_power (s : State) (n : Nat) (which : Nat → Bool) : (pierInvalidate s n which).power = s.power := by
  simp only [pierInvalidate, foldl_power, implies_true, vaultMiss_power, State.setPier_power]
@[simp] theorem pierAck_power (s : State) (n : Nat) (seq : BitVec 16) : (pierAck s n seq).power = s.power := by
  simp only [pierAck, power_ite, ite_self, State.setPgroup_power]
@[simp] theorem pierCommit_power (s : State) (n : Nat) (seq : BitVec 16) : (pierCommit s n seq).power = s.power := by
  simp only [pierCommit, power_ite, ite_self, pierAck_power, State.setPier_power]
@[simp] theorem execPierCommitDrainDone_keepsPower (pier : Nat) (s : State) : KeepsPower s (execPierCommitDrainDone pier s) :=
  whenRunning_keepsPower s fun u => by
    dsimp only
    split <;> simp only [power_ite, ite_self, State.setPier_power, pierAck_power]
@[simp] theorem sendCmd_power (s : State) (l : List Nat) (c : LaneCmd) : (sendCmd s l c).power = s.power := by simp only [sendCmd]
@[simp] theorem pierCommitGo_power (s : State) (t : PierTarget) (seq : BitVec 16) : (pierCommitGo s t seq).power = s.power := by
  unfold pierCommitGo
  split <;> simp only [sendCmd_power, State.setPgroup_power]
@[simp] theorem execPierCommitGo_keepsPower (t : PierTarget) (seq : BitVec 16) (s : State) : KeepsPower s (execPierCommitGo t seq s) :=
  whenCommanded_keepsPower s fun _ => pierCommitGo_power ..
@[simp] theorem execPierScrubWrite_keepsPower (pier : Nat) (s : State) : KeepsPower s (execPierScrubWrite pier s) :=
  whenMemory_keepsPower s fun u => by split <;> simp only [power_ite, ite_self, emit_power, modPier_power]
@[simp] theorem pierZeroStart_power (s : State) (n : Nat) : (pierZeroStart s n).power = s.power := by
  simp only [pierZeroStart, power_ite, ite_self, modPier_power]
@[simp] theorem execPierZeroGo_keepsPower (t : PierTarget) (s : State) : KeepsPower s (execPierZeroGo t s) :=
  whenCommanded_keepsPower s fun u => by simp only [foldl_power, implies_true, pierZeroStart_power]
@[simp] theorem zeroWrite_power (s : State) (n : Nat) : (zeroWrite s n).power = s.power := by
  simp only [zeroWrite]
  split <;> simp only [power_ite, ite_self, State.setPier_power, emit_power]
@[simp] theorem execPierZeroWrite_keepsPower (pier : Nat) (s : State) : KeepsPower s (execPierZeroWrite pier s) :=
  whenMemory_keepsPower s fun _ => zeroWrite_power ..
@[simp] theorem pierUninit_power (s : State) (n base size : Nat) : (pierUninit s n base size).power = s.power := by
  simp only [pierUninit, power_ite, ite_self, modPier_power, parkDrained_power, retryHeld_power]
@[simp] theorem execPierZeroUninit_keepsPower (t : PierTarget) (s : State) : KeepsPower s (execPierZeroUninit t s) :=
  whenCommanded_keepsPower s fun u => by simp only [foldl_power, implies_true, pierUninit_power]
@[simp] theorem fillRefused_power (s : State) (n mib : Nat) : (fillRefused s n mib).power = s.power := by
  simp only [fillRefused, foldl_power, implies_true, refuse_power, State.setPier_power]
@[simp] theorem fillWrite_power (s : State) (n : Nat) : (fillWrite s n).power = s.power := by
  simp only [fillWrite]
  repeat' split
  all_goals simp only [parkDrained_power, retryHeld_power, State.setPier_power, vaultMiss_power, fillRefused_power,
    tier2Store_power, modPier_power]
@[simp] theorem execUninitFillWrite_keepsPower (pier : Nat) (s : State) : KeepsPower s (execUninitFillWrite pier s) :=
  whenMemory_keepsPower s fun _ => fillWrite_power ..
@[simp] theorem sweepOne_power (s : State) (n home line b : Nat) (k : KeyFill) (stored metaLine : Bytes) :
    (sweepOne s n home line b k stored metaLine).power = s.power := by
  simp only [sweepOne]
  repeat' split
  all_goals simp only [tier2Store_power, metaInsert_power, macFail_power]
@[simp] theorem sweepStep_power (s : State) (n : Nat) (stored metaLine : Bytes) : (sweepStep s n stored metaLine).power = s.power := by
  simp only [sweepStep]
  repeat' split
  all_goals simp only [State.setPier_power, modPier_power, metaFlush_power, sweepOne_power, vaultMiss_power]
@[simp] theorem execPierSweepLine_keepsPower (pier : Nat) (stored metaLine : Bytes) (s : State) :
    KeepsPower s (execPierSweepLine pier stored metaLine s) :=
  whenMemory_keepsPower s fun u => by simp only [power_ite, ite_self, sweepStep_power]
@[simp] theorem execSweepDoneReport_keepsPower (pier : Nat) (s : State) : KeepsPower s (execSweepDoneReport pier s) :=
  whenRunning_keepsPower s fun u => by split <;> simp only [power_ite, ite_self, sweepReport_power, modPier_power]
@[simp] theorem completionLine_power (s : State) (n home line b : Nat) (key : KeyFill) (stored side : Bytes) :
    (completionLine s n home line b key stored side).1.power = s.power := by
  simp only [completionLine]
  repeat' split
  all_goals simp only [rsCorrected_power, rsLost_power, macFail_power]
@[simp] theorem completionRead_power (s : State) (n i : Nat) (stored side : Bytes) :
    (completionRead s n i stored side).power = s.power := by
  simp only [completionRead]
  repeat' split
  all_goals simp only [modPier_power, vaultMiss_power]
  all_goals exact (power_fst ‹_›).trans (completionLine_power ..)
@[simp] theorem execPairCompletionRead_keepsPower (pier cursor : Nat) (stored side : Bytes) (s : State) :
    KeepsPower s (execPairCompletionRead pier cursor stored side s) :=
  whenMemory_keepsPower s fun _ => completionRead_power ..
@[simp] theorem unpark_power (s : State) (ix : Nat) : (unpark s ix).power = s.power := by
  simp only [unpark, power_ite, ite_self, State.setIsland_power]
@[simp] theorem parkIsland_power (s : State) (ix : Nat) : (parkIsland s ix).power = s.power := by
  simp only [parkIsland, State.setIsland_power]
@[simp] theorem pierPark_power (s : State) (n : Nat) (park : Bool) : (pierPark s n park).power = s.power := by
  simp only [pierPark, power_ite, ite_self, modPier_power, parkDrained_power, unpark_power]
@[simp] theorem execPierPark_keepsPower (pier : Nat) (park : Bool) (s : State) : KeepsPower s (execPierPark pier park s) :=
  whenCommanded_keepsPower s fun _ => pierPark_power ..

/-! ### Boarding -/

@[simp] theorem askSite_power (s : State) (k : Nat) (step : SiteStep) : (askSite s k step).power = s.power := by
  simp only [askSite, sendAsks_power, State.setSite_power]
@[simp] theorem siteStart_power (s : State) (k : Nat) : (siteStart s k).power = s.power := by
  simp only [siteStart, askSite_power, State.setSite_power]
@[simp] theorem siteReports_power (s : State) (present trained : BitVec 12) : (siteReports s present trained).power = s.power := by
  simp only [siteReports, foldl_setSite_power]
@[simp] theorem waveGo_power (s : State) : (waveGo s).power = s.power := by
  simp only [waveGo, foldl_power, implies_true, milestone_power, siteStart_power]
@[simp] theorem siteMeasure_power (s : State) (k : Nat) : (siteMeasure s k).power = s.power := by
  simp only [siteMeasure, takeMeasure_power]
@[simp] theorem siteDone_power (s : State) (k : Nat) : (siteDone s k).power = s.power := by
  simp only [siteDone, power_ite, ite_self, setBoardWindow_power, sendSite_power, State.setSite_power, reboardEnd_power, siteMeasure_power]
@[simp] theorem siteKind_power (s : State) (k : Nat) (kind : DWord) (vendor : Bytes) : (siteKind s k kind vendor).power = s.power := by
  simp only [siteKind]
  repeat' split
  all_goals simp only [failSite_power, askSite_power, State.setSite_power, setBoardWindow_power, sendSite_power]
@[simp] theorem siteReply_power (s : State) (k : Nat) (r : BoardReply) : (siteReply s k r).power = s.power := by
  simp only [siteReply]
  split <;> simp only [power_ite, ite_self, askSite_power, State.setSite_power, failSite_power, siteKind_power, siteDone_power]
@[simp] theorem execBoardingReply_keepsPower (site : Nat) (r : BoardReply) (s : State) : KeepsPower s (execBoardingReply site r s) :=
  whenPilot_keepsPower s fun u => by simp only [power_ite, ite_self, siteReply_power]
@[simp] theorem loadAck_power (s : State) (k : Nat) (late : Bool) : (loadAck s k late).power = s.power := by
  simp only [loadAck, power_ite, ite_self, failSite_power, askSite_power, areaAcked_power, State.setSite_power]
@[simp] theorem execLoadAck_keepsPower (site : Nat) (s : State) (late : Bool) : KeepsPower s (execLoadAck site s late) :=
  whenPilot_keepsPower s fun _ => loadAck_power ..
@[simp] theorem slotEnd_power (s : State) : (slotEnd s).power = s.power := by
  unfold slotEnd
  split <;> simp only [power_ite, ite_self, foldl_power, implies_true, failSite_power, areaAcked_power, endToken_power, milestone_power]
@[simp] theorem execBoardingSlotEnd_keepsPower (s : State) : KeepsPower s (execBoardingSlotEnd s) :=
  whenPilot_keepsPower s fun _ => slotEnd_power ..
@[simp] theorem reboardGo_power (s : State) (k : Nat) : (reboardGo s k).power = s.power := by
  simp only [reboardGo, power_ite, ite_self, siteStart_power, failSite_power, State.setSite_power]
@[simp] theorem siteSend_power (s : State) (k : Nat) : (siteSend s k).power = s.power := by
  simp only [siteSend, power_ite, ite_self, State.setSite_power, sendSite_power]
@[simp] theorem execSend_keepsPower (site : Nat) (s : State) : KeepsPower s (execSend site s) :=
  whenCommanded_keepsPower s fun _ => siteSend_power ..
@[simp] theorem siteAbort_power (s : State) (k : Nat) : (siteAbort s k).power = s.power := by
  simp only [siteAbort, power_ite, ite_self, State.setSite_power]
@[simp] theorem execAbort_keepsPower (site : Nat) (s : State) : KeepsPower s (execAbort site s) :=
  whenCommanded_keepsPower s fun _ => siteAbort_power ..
@[simp] theorem execRxReadyClear_keepsPower (site : Nat) (s : State) : KeepsPower s (execRxReadyClear site s) :=
  whenCommanded_keepsPower s fun u => by simp only [power_ite, ite_self, State.setSite_power]
@[simp] theorem siteGaveUp_power (s : State) (k : Nat) (err : Byte) : (siteGaveUp s k err).power = s.power := by
  simp only [siteGaveUp, power_ite, ite_self, State.setSite_power, failSite_power]
@[simp] theorem siteAssembled_power (s : State) (k : Nat) (msg : Bytes) : (siteAssembled s k msg).power = s.power := by
  simp only [siteAssembled, power_ite, ite_self, siteGaveUp_power, State.setSite_power]
@[simp] theorem execSiteReplyAssembled_keepsPower (site : Nat) (msg : Bytes) (s : State) :
    KeepsPower s (execSiteReplyAssembled site msg s) :=
  whenRunning_keepsPower s fun _ => siteAssembled_power ..
@[simp] theorem siteTimeout_power (s : State) (k : Nat) : (siteTimeout s k).power = s.power := by
  simp only [siteTimeout, power_ite, ite_self, siteGaveUp_power]
@[simp] theorem execSiteReplyTimeout_keepsPower (site : Nat) (s : State) : KeepsPower s (execSiteReplyTimeout site s) :=
  whenRunning_keepsPower s fun _ => siteTimeout_power ..
@[simp] theorem sidebandDown_power (s : State) (k : Nat) : (sidebandDown s k).power = s.power := by
  simp only [sidebandDown, power_ite, ite_self, siteGaveUp_power, State.setSite_power]
@[simp] theorem execSidebandDown_keepsPower (site : Nat) (s : State) : KeepsPower s (execSidebandDown site s) :=
  whenRunning_keepsPower s fun _ => sidebandDown_power ..

/-! ### The vault's link commands -/

@[simp] theorem putLink_power (s : State) (k : Nat) (m : Bytes) (ctx : LinkCtx) : (putLink s k m ctx).power = s.power := by
  simp only [putLink, putSlot_power, notEmpty_power, vaultChanged_power]
@[simp] theorem linkRefuse_power (s : State) (e : Byte) : (linkRefuse s e).power = s.power := by
  simp only [linkRefuse, vaultEnd_power, clearData_power]
@[simp] theorem maintEncapStep_power (s : State) (k : Nat) (higher : Bool) : (maintEncapStep s k higher).power = s.power := by
  simp only [maintEncapStep, power_ite, ite_self, linkRefuse_power, putLink_power, putData_power, drew_power]
@[simp] theorem maintDecapStep_power (s : State) (k : Nat) (higher : Bool) : (maintDecapStep s k higher).power = s.power := by
  simp only [maintDecapStep, power_ite, ite_self, linkRefuse_power, putLink_power, clearData_power]
@[simp] theorem linkDrawStep_power (s : State) (k : Nat) : (linkDrawStep s k).power = s.power := by
  simp only [linkDrawStep, power_ite, ite_self, linkRefuse_power, putLink_power, putData_power, drew_power]
@[simp] theorem jobEncapStep_power (s : State) (k : Nat) (higher : Bool) : (jobEncapStep s k higher).power = s.power := by
  simp only [jobEncapStep, power_ite, ite_self, linkRefuse_power, putLink_power, putData_power, drew_power]
@[simp] theorem jobDecapStep_power (s : State) (k : Nat) (higher : Bool) : (jobDecapStep s k higher).power = s.power := by
  simp only [jobDecapStep, power_ite, ite_self, linkRefuse_power, putLink_power, clearData_power]
@[simp] theorem promoteStep_power (s : State) (k : Nat) (higher : Bool) : (promoteStep s k higher).power = s.power := by
  simp only [promoteStep, putLink_power]
@[simp] theorem jobDropStep_power (s : State) (k : Nat) : (jobDropStep s k).power = s.power := by simp only [jobDropStep, putLink_power]
@[simp] theorem linkAgree_power (s : State) (f : State → Nat → Bool → State) (hf : ∀ t a b, (f t a b).power = t.power) :
    (linkAgree s f).power = s.power := by
  simp only [linkAgree]
  repeat' split
  all_goals simp only [linkRefuse_power, hf]
  all_goals exact (power_fst ‹_›).trans (useSlot_power ..)
theorem linkCommand_keepsPower (c : VaultCmd) (step : BitVec 12) {f : State → Nat → Bool → State}
    (hf : ∀ t a b, (f t a b).power = t.power) (s : State) : KeepsPower s (linkCommand c step f s) :=
  whenVault_keepsPower s fun t => by simp only [vaultCommand_power, linkAgree_power, hf, implies_true, power_ite, ite_self]
@[simp] theorem execMaintEncap_keepsPower (c : VaultCmd) (s : State) : KeepsPower s (execMaintEncap c s) :=
  linkCommand_keepsPower c _ (fun _ _ _ => maintEncapStep_power ..) s
@[simp] theorem execMaintDecap_keepsPower (c : VaultCmd) (s : State) : KeepsPower s (execMaintDecap c s) :=
  linkCommand_keepsPower c _ (fun _ _ _ => maintDecapStep_power ..) s
@[simp] theorem execJobDraw_keepsPower (c : VaultCmd) (s : State) : KeepsPower s (execJobDraw c s) :=
  linkCommand_keepsPower c _ (fun _ _ _ => linkDrawStep_power ..) s
@[simp] theorem execJobEncap_keepsPower (c : VaultCmd) (s : State) : KeepsPower s (execJobEncap c s) :=
  linkCommand_keepsPower c _ (fun _ _ _ => jobEncapStep_power ..) s
@[simp] theorem execJobDecap_keepsPower (c : VaultCmd) (s : State) : KeepsPower s (execJobDecap c s) :=
  linkCommand_keepsPower c _ (fun _ _ _ => jobDecapStep_power ..) s
@[simp] theorem execPromote_keepsPower (c : VaultCmd) (s : State) : KeepsPower s (execPromote c s) :=
  linkCommand_keepsPower c _ (fun _ _ _ => promoteStep_power ..) s
@[simp] theorem execJobDrop_keepsPower (c : VaultCmd) (s : State) : KeepsPower s (execJobDrop c s) :=
  linkCommand_keepsPower c _ (fun _ _ _ => jobDropStep_power ..) s
@[simp] theorem execMaintDraw_keepsPower (c : VaultCmd) (s : State) : KeepsPower s (execMaintDraw c s) :=
  linkCommand_keepsPower c _ (fun _ _ _ => linkDrawStep_power ..) s
@[simp] theorem pilotLink_power (s : State) (n : Nat) (higher : Bool) (data : Bytes) (f : State → Nat → Bool → State)
    (hf : ∀ t a b, (f t a b).power = t.power) : (pilotLink s n higher data f).power = s.power := by
  unfold pilotLink
  split
  · split <;> simp only [hf, putData_power, linkRefuse_power, power_fst ‹_›, useSlot_power]
  · rfl

/-! ### The Gangway lanes -/

@[simp] theorem modLink_power (s : State) (n : Nat) (f : GwLink → GwLink) : (modLink s n f).power = s.power := by
  simp only [modLink, State.setLink_power]
@[simp] theorem sendFrame_power (s : State) (n : Nat) (o : OutFrame) : (sendFrame s n o).power = s.power := by
  simp only [sendFrame]
  repeat' split
  all_goals simp only [State.setLink_power, emit_power]
@[simp] theorem sendMessage_power (s : State) (n : Nat) (kind : Byte) (body : Bytes) : (sendMessage s n kind body).power = s.power := by
  unfold sendMessage
  split <;> simp only [foldl_power, implies_true, sendFrame_power]
@[simp] theorem flushTx_power (s : State) (n : Nat) : (flushTx s n).power = s.power := by
  simp only [flushTx, foldl_power, implies_true, sendFrame_power, State.setLink_power]
@[simp] theorem routeOn_power (s : State) (m : HeldRoute) : (routeOn s m).power = s.power := by
  simp only [routeOn]
  repeat' split
  all_goals simp only [foldl_power, implies_true, sendMessage_power]
@[simp] theorem routeFrom_power (s : State) (dst : Bytes) (kind : Byte) (body : Bytes) : (routeFrom s dst kind body).power = s.power := by
  simp only [routeFrom, routeOn_power]
@[simp] theorem showMember_power (s : State) (coord : Bool) : (showMember s coord).power = s.power := by
  simp only [showMember, power_ite, ite_self, showStat_power]
@[simp] theorem takeFormed_power (s : State) (epoch : Nat) (coord : Bytes) (members : List Bytes) :
    (takeFormed s epoch coord members).power = s.power := by
  simp only [takeFormed, power_ite, ite_self, foldl_power, implies_true, sendMessage_power, showMember_power, routeOn_power]
@[simp] theorem echoDone_power (s : State) : (echoDone s).power = s.power := by
  simp only [echoDone]
  repeat' split
  all_goals simp only [takeFormed_power, sendMessage_power]
@[simp] theorem adopt_power (s : State) (epoch : Nat) (cand : Bytes) (parent : Option Nat) :
    (adopt s epoch cand parent).power = s.power := by
  simp only [adopt, foldl_power, implies_true, echoDone_power, sendMessage_power]
@[simp] theorem startFormation_power (s : State) : (startFormation s).power = s.power := by simp only [startFormation, adopt_power]

/-! ### Requests to the host -/

@[simp] theorem askPage_power (s : State) (fn a : Nat) (write : Bool) : (askPage s fn a write).power = s.power := by
  simp only [askPage, power_ite, ite_self, emit_power, hgCount_power, modHost_power]
@[simp] theorem issueRead_power (s : State) (fn ch : Nat) (use : HostUse) (addr len at_ : Nat) (translated : Bool) (used : Option
    (Nat × Nat)) (tries : Nat) (ro : Bool) :
    (issueRead s fn ch use addr len at_ translated used tries ro).power = s.power := by
  simp only [issueRead, emit_power, atcTouch_power, modHost_power]

/-! ### The Ferry -/

@[simp] theorem modFerry_power (s : State) (f : Ferry → Ferry) : (modFerry s f).power = s.power := by simp only [modFerry]
@[simp] theorem modCh_power (s : State) (c : Nat) (f : FerryCh → FerryCh) : (modCh s c f).power = s.power := by
  simp only [modCh, State.setCh_power]
@[simp] theorem modPch_power (s : State) (p : Nat) (f : FerryPch → FerryPch) : (modPch s p f).power = s.power := by
  simp only [modPch, modFerry_power]
@[simp] theorem setEng_power (s : State) (e : Nat) (r : EngRun) : (setEng s e r).power = s.power := by simp only [setEng, modFerry_power]
@[simp] theorem freeEng_power (s : State) (e : Nat) : (freeEng s e).power = s.power := by simp only [freeEng, modFerry_power]
@[simp] theorem chIrq_power (s : State) (c : Nat) : (chIrq s c).power = s.power := by
  simp only [chIrq, power_ite, ite_self, State.setCh_power, msix_power]
@[simp] theorem exportOver_power (s : State) (c : Nat) : (exportOver s c).power = s.power := by simp only [exportOver]
@[simp] theorem haltCh_power (s : State) (c : Nat) (cause : Byte) : (haltCh s c cause).power = s.power := by
  simp only [haltCh, chIrq_power, modCh_power, exportOver_power]
@[simp] theorem areaLanded_power (s : State) (a : Nat) (digest : Bytes) : (areaLanded s a digest).power = s.power := by
  simp only [areaLanded]
  repeat' split
  all_goals simp only [reboardGo_power]
@[simp] theorem pchEnd_power (s : State) (p : Nat) (cause : Byte) : (pchEnd s p cause).power = s.power := by
  simp only [pchEnd, areaLanded_power, modPch_power]
@[simp] theorem assertRequest_power (s : State) (p : Peripheral) : (assertRequest s p).power = s.power := by
  simp only [assertRequest, modFerry_power]
@[simp] theorem reassert_power (s : State) (c : Nat) : (reassert s c).power = s.power := by
  unfold reassert
  split <;> simp only [assertRequest_power]
@[simp] theorem bundleUsed_power (s : State) (order k : Nat) : (bundleUsed s order k).power = s.power := by
  unfold bundleUsed
  split <;> simp only [modLink_power]
@[simp] theorem haltEng_power (s : State) (e c : Nat) (cause : Byte) : (haltEng s e c cause).power = s.power := by
  simp only [haltEng, power_ite, ite_self, pchEnd_power, freeEng_power, reassert_power, haltCh_power]
@[simp] theorem fetchStuck_power (s : State) (c : Nat) : (fetchStuck s c).power = s.power := by simp only [fetchStuck, modCh_power]
@[simp] theorem fetch_power (s : State) (c : Nat) (why : FetchWhy) (raw : Option (Nat × Nat)) : (fetch s c why raw).power = s.power := by
  simp only [fetch]
  repeat' split
  all_goals simp only [State.setCh_power, haltCh_power, issueRead_power, fetchStuck_power, transMiss_power]
@[simp] theorem fetchAt_power (s : State) (c : Nat) (a : DWord) : (fetchAt s c a).power = s.power := by
  simp only [fetchAt, fetch_power, modCh_power]
@[simp] theorem toIdle_power (s : State) (c : Nat) : (toIdle s c).power = s.power := by
  simp only [toIdle, power_ite, ite_self, State.setCh_power, fetch_power]
@[simp] theorem toWaiting_power (s : State) (c : Nat) : (toWaiting s c).power = s.power := by
  simp only [toWaiting, modFerry_power, modCh_power]
@[simp] theorem waitAgain_power (s : State) (c : Nat) : (waitAgain s c).power = s.power := by
  simp only [waitAgain, modFerry_power, modCh_power]
@[simp] theorem checkDesc_power (s : State) (c : Nat) : (checkDesc s c).power = s.power := by
  unfold checkDesc
  split <;> simp only [power_ite, ite_self, haltCh_power, vaultMiss_power, modCh_power, toWaiting_power]
@[simp] theorem takeDesc_power (s : State) (c : Nat) (d0 : Bytes) : (takeDesc s c d0).power = s.power := by
  unfold takeDesc
  split <;> simp only [power_ite, ite_self, checkDesc_power, modCh_power, toIdle_power, fetchAt_power]
@[simp] theorem ferryInvalidate_power (s : State) (which : Nat → Bool) : (ferryInvalidate s which).power = s.power := by
  simp only [ferryInvalidate, modFerry_power]
@[simp] theorem chCommand_power (s : State) (vf k : Nat) (f : State → Nat → State) (hf : ∀ t a, (f t a).power = t.power) :
    (chCommand s vf k f).power = s.power := by
  unfold chCommand
  split <;> simp only [power_ite, ite_self, hf]
@[simp] theorem doorbell_power (s : State) (c : Nat) : (doorbell s c).power = s.power := by
  simp only [doorbell, power_ite, ite_self, State.setCh_power, fetchAt_power, modCh_power, fetch_power]
@[simp] theorem execFerryChDoorbell_keepsPower (vf k : Nat) (s : State) : KeepsPower s (execFerryChDoorbell vf k s) :=
  whenBar_keepsPower s _ fun u => by simp only [implies_true, chCommand_power, doorbell_power]
@[simp] theorem execStop_keepsPower (vf k : Nat) (s : State) : KeepsPower s (execStop vf k s) :=
  whenBar_keepsPower s _ fun u => by simp only [implies_true, chCommand_power, modCh_power]
@[simp] theorem skip_power (s : State) (c : Nat) : (skip s c).power = s.power := by
  simp only [skip, power_ite, ite_self, toIdle_power, fetchAt_power]
@[simp] theorem execSkip_keepsPower (vf k : Nat) (s : State) : KeepsPower s (execSkip vf k s) :=
  whenBar_keepsPower s _ fun u => by simp only [implies_true, chCommand_power, skip_power]
@[simp] theorem execResume_keepsPower (vf k : Nat) (s : State) : KeepsPower s (execResume vf k s) :=
  whenBar_keepsPower s _ fun u => by simp only [power_ite, ite_self, implies_true, chCommand_power, fetch_power, modCh_power]
@[simp] theorem setDone_power (s : State) (c : Nat) (d : Bytes) (w : Nat) : (setDone s c d w).power = s.power := by
  simp only [setDone, power_ite, ite_self, modPch_power, modCh_power]
@[simp] theorem engWrote_power (s : State) (e : Nat) (r : EngRun) (data : Bytes) : (engWrote s e r data).1.power = s.power := by
  simp only [engWrote, power_ite, ite_self, modPch_power, bundleUsed_power, modCh_power, setEng_power, setDone_power]
theorem engHost_stop_power {s t : State} {e a : Nat} {r : EngRun} {write pageable : Bool} {raw : Option (Nat × Nat)}
    (h : engHost s e r a write pageable raw = .stop t) : t.power = s.power := by
  simp only [engHost] at h
  repeat' split at h
  all_goals cases h
  all_goals simp only [haltEng_power, transMiss_power, setEng_power, askPage_power]
@[simp] theorem engRead_power (s : State) (e : Nat) (r : EngRun) (use : HostUse) (a len : Nat) (pageable ro : Bool)
    (raw : Option (Nat × Nat)) : (engRead s e r use a len pageable ro raw).power = s.power := by
  unfold engRead
  split
  · exact engHost_stop_power ‹_›
  · simp only [power_ite, setEng_power, issueRead_power, ite_self]
@[simp] theorem engPost_power (s : State) (e : Nat) (r : EngRun) (a : Nat) (data : Bytes) (pageable : Bool) (raw : Option (Nat × Nat)) :
    (engPost s e r a data pageable raw).1.power = s.power := by
  unfold engPost
  split
  · exact engHost_stop_power ‹_›
  · simp only [emit_power, atcTouch_power]
@[simp] theorem keyWait_power (s : State) (e : Nat) (r : EngRun) : (keyWait s e r).power = s.power := by
  simp only [keyWait, vaultMiss_power, setEng_power]
@[simp] theorem openBlock_power (s : State) (e : Nat) (r : EngRun) (rcd : Bytes) : (openBlock s e r rcd).1.power = s.power := by
  simp only [openBlock]
  repeat' split
  all_goals simp only [haltEng_power, keyWait_power, modCh_power, setEng_power]
@[simp] theorem sealBlock_power (s : State) (e : Nat) (r : EngRun) : (sealBlock s e r).1.power = s.power := by
  simp only [sealBlock]
  repeat' split
  all_goals simp only [haltEng_power, keyWait_power, setEng_power, modCh_power]
@[simp] theorem startBurst_power (s : State) (p : Peripheral) : (startBurst s p).power = s.power := by
  simp only [startBurst, power_ite, ite_self, modFerry_power]
@[simp] theorem engNeed_power (s : State) (e : Nat) (r : EngRun) (raw : Option (Nat × Nat)) : (engNeed s e r raw).power = s.power := by
  simp only [engNeed]
  repeat' split
  all_goals simp only [engRead_power, startBurst_power, setEng_power, waitAgain_power, freeEng_power, emit_power]
@[simp] theorem sealedNeed_power (s : State) (e : Nat) (r : EngRun) (raw : Option (Nat × Nat)) :
    (sealedNeed s e r raw).power = s.power := by
  unfold sealedNeed
  split <;> simp only [engRead_power]
@[simp] theorem fabricPut_power (s : State) (e : Nat) (r : EngRun) (a n : Nat) : (fabricPut s e r a n).power = s.power := by
  simp only [fabricPut, emit_power, setEng_power]
@[simp] theorem refusePayload_power (s : State) (n : Nat) : (refusePayload s n).power = s.power := by
  simp only [refusePayload, power_ite, ite_self, modLink_power]
@[simp] theorem engMove_power (s : State) (e : Nat) (raw : Option (Nat × Nat)) : (engMove s e raw).1.power = s.power := by
  simp only [engMove]
  repeat' split
  all_goals simp only [setEng_power, engNeed_power, sealBlock_power, haltEng_power, refusePayload_power, engWrote_power, sendFrame_power,
    fabricPut_power, sealedNeed_power, openBlock_power]
  all_goals exact (power_fst ‹_›).trans (engPost_power ..)
@[simp] theorem engPump_power (fuel : Nat) (s : State) (e : Nat) (raw : Option (Nat × Nat)) :
    (engPump fuel s e raw).power = s.power := by
  induction fuel generalizing s with
  | zero => rw [engPump]
  | succ fuel ih =>
    rw [engPump]
    split <;> simp only [ih, power_fst ‹_›, engMove_power]
@[simp] theorem engGo_power (s : State) (e : Nat) : (engGo s e).power = s.power := engPump_power _ s e none
@[simp] theorem ferryFillArrive_power (s : State) (b : Nat) (f : Option KeyFill) : (ferryFillArrive s b f).power = s.power := by
  simp only [ferryFillArrive, power_ite, ite_self, foldl_power, implies_true, modFerry_power, checkDesc_power, engGo_power]
@[simp] theorem creditLook_power (s : State) : (creditLook s).power = s.power := by
  simp only [creditLook, power_ite, ite_self, modFerry_power]
@[simp] theorem creditTake_power (s : State) (c : Nat) : (creditTake s c).power = s.power := by
  simp only [creditTake, modFerry_power, modCh_power]
@[simp] theorem startPch_power (s : State) (e p : Nat) : (startPch s e p).power = s.power := by
  simp only [startPch, engGo_power, setEng_power, modPch_power]
@[simp] theorem startCh_power (s : State) (e c : Nat) : (startCh s e c).power = s.power := by
  simp only [startCh, power_ite, ite_self, modCh_power, haltCh_power, engGo_power, setEng_power]
@[simp] theorem engineStart_power (s : State) (e : Nat) : (engineStart s e).power = s.power := by
  simp only [engineStart]
  repeat' split
  all_goals simp only [startPch_power, startCh_power, creditLook_power]
@[simp] theorem execEngineStart_keepsPower (eng : Nat) (s : State) : KeepsPower s (execEngineStart eng s) :=
  whenRunning_keepsPower s fun _ => engineStart_power ..
@[simp] theorem chainNext_power (s : State) (c : Nat) : (chainNext s c).power = s.power := by
  simp only [chainNext, power_ite, ite_self, haltCh_power, fetchAt_power, State.setCh_power, fetch_power]
@[simp] theorem descriptorDone_power (s : State) (e : Nat) : (descriptorDone s e).power = s.power := by
  unfold descriptorDone
  split <;> simp only [power_ite, ite_self, pchEnd_power, freeEng_power, exportOver_power, modCh_power, creditTake_power, chainNext_power,
    chIrq_power]
@[simp] theorem execDescriptorDone_keepsPower (eng : Nat) (s : State) : KeepsPower s (execDescriptorDone eng s) :=
  whenRunning_keepsPower s fun _ => descriptorDone_power ..
@[simp] theorem cutEng_power (s : State) (c : Nat) : (cutEng s c).power = s.power := by
  simp only [cutEng]
  repeat' split
  all_goals simp only [reassert_power, setEng_power, freeEng_power]
@[simp] theorem abandonReads_power (s : State) (c : Nat) : (abandonReads s c).power = s.power := by
  simp only [abandonReads, foldl_power, implies_true, reqQuarantine_power, modHost_power]
@[simp] theorem cutCh_power (s : State) (c : Nat) (cause : Byte) : (cutCh s c cause).power = s.power := by
  simp only [cutCh, haltCh_power, abandonReads_power, cutEng_power]
@[simp] theorem silenceBerth_power (s : State) (b : Nat) : (silenceBerth s b).power = s.power := by
  simp only [silenceBerth, foldl_power, implies_true, modCh_power, exportOver_power, abandonReads_power, cutEng_power]
@[simp] theorem resetBerthChs_power (s : State) (b : Nat) : (resetBerthChs s b).power = s.power := by
  simp only [resetBerthChs, foldl_power, implies_true, modFerry_power]
@[simp] theorem masterCleared_power (s : State) (b : Nat) : (masterCleared s b).power = s.power := by
  refine foldl_power _ (fun t c => ?_) _ s
  split <;> simp only [cutCh_power]
@[simp] theorem linkFails_power (s : State) (n : Nat) : (linkFails s n).power = s.power := by
  simp only [linkFails, power_ite, ite_self, foldl_power, implies_true, cutCh_power]
@[simp] theorem deliverRead_power (s : State) (r : HostReq) (data : Bytes) : (deliverRead s r data).power = s.power := by
  simp only [deliverRead]
  repeat' split
  all_goals simp only [takeDesc_power, engGo_power, setEng_power]
@[simp] theorem failUse_power (s : State) (r : HostReq) (cause : Byte) : (failUse s r cause).power = s.power := by
  unfold failUse
  split <;> simp only [power_ite, ite_self, haltCh_power, haltEng_power]
@[simp] theorem failRange_power (s : State) (fn range : Nat) (cause : Byte) : (failRange s fn range cause).power = s.power := by
  simp only [failRange, power_ite, ite_self, foldl_power, implies_true, haltEng_power, haltCh_power, modFn_power]
@[simp] theorem wakeFn_power (s : State) (fn : Nat) (raw : Option (Nat × Nat)) : (wakeFn s fn raw).power = s.power := by
  simp only [wakeFn]
  rw [foldl_power _ (fun t v => ?_), foldl_power _ (fun t c => ?_), foldl_power _ (fun t e => ?_)]
  · split <;> simp only [power_ite, engPump_power, ite_self]
  · split <;> simp only [power_ite, fetch_power, ite_self]
  · simp only [power_ite, msixSend_power, modFn_power, ite_self]
@[simp] theorem withTags_power (fn : Nat) (f : State → State) (s : State) (hf : ∀ t, (f t).power = t.power) :
    (withTags fn f s).power = s.power := by
  simp only [withTags, power_ite, ite_self, wakeFn_power, hf]
@[simp] theorem hostError_power (s : State) (r : HostReq) : (hostError s r).power = s.power := by
  simp only [hostError]
  repeat' split
  all_goals simp only [modHost_power, modFerry_power, failRange_power, failUse_power]
@[simp] theorem requestRetry_power (s : State) (fn tag : Nat) : (requestRetry s fn tag).power = s.power := by
  simp only [requestRetry]
  repeat' split
  all_goals simp only [modHost_power, failRange_power, failUse_power, askTrans_power, issueRead_power,
    fetchStuck_power, transMiss_power, haltCh_power, engRead_power]
@[simp] theorem execHostRequestRetry_keepsPower (fn : Func) (tag : Nat) (s : State) : KeepsPower s (execHostRequestRetry fn tag s) :=
  whenRunning_keepsPower s fun u => by simp only [requestRetry_power]
@[simp] theorem unexpected_power (s : State) (fn : Nat) (abandoned : Bool) : (unexpected s fn abandoned).power = s.power := by
  simp only [unexpected, power_ite, ite_self, hgCount_power, aer_power]
@[simp] theorem lateCompletion_power (s : State) (r : HostReq) (c : HostCpl) : (lateCompletion s r c).power = s.power := by
  simp only [lateCompletion, power_ite, ite_self, unexpected_power, modHost_power]
@[simp] theorem hostCompletion_power (s : State) (fn tag : Nat) (c : HostCpl) : (hostCompletion s fn tag c).power = s.power := by
  simp only [hostCompletion]
  repeat' split
  all_goals simp only [lateCompletion_power, unexpected_power, failUse_power, reqDone_power, hostError_power,
    deliverRead_power, modHost_power]
@[simp] theorem execHostCompletion_keepsPower (fn : Func) (tag : Nat) (c : HostCpl) (s : State) :
    KeepsPower s (execHostCompletion fn tag c s) :=
  whenHost_keepsPower s fun u => by simp only [implies_true, withTags_power, hostCompletion_power]
@[simp] theorem execDescriptorFetchDone_keepsPower (ch : Nat) (desc : Bytes) (s : State) :
    KeepsPower s (execDescriptorFetchDone ch desc s) :=
  whenHost_keepsPower s fun u => by split <;> simp only [deliverRead_power, reqDone_power]
@[simp] theorem completionTimeout_power (s : State) (fn tag : Nat) : (completionTimeout s fn tag).power = s.power := by
  unfold completionTimeout
  split <;> simp only [power_ite, ite_self, reqQuarantine_power, hostError_power, aer_power, hgCount_power, modHost_power]
@[simp] theorem execCompletionTimeout_keepsPower (fn : Func) (tag : Nat) (s : State) : KeepsPower s (execCompletionTimeout fn tag s) :=
  whenRunning_keepsPower s fun u => by simp only [completionTimeout_power]
@[simp] theorem execTagQuarantineExpiry_keepsPower (fn : Func) (tag : Nat) (s : State) : KeepsPower s (execTagQuarantineExpiry fn tag s) :=
  whenRunning_keepsPower s fun u => withTags_power _ _ _ fun w => by
    split <;> simp only [modHost_power]
@[simp] theorem fabricResponse_power (s : State) (e : Nat) (resp : LineResp) (data : Bytes) :
    (fabricResponse s e resp data).power = s.power := by
  unfold fabricResponse
  split
  · rfl
  next r _ =>
    cases hw : r.wait with
    | fabricRead o n =>
      dsimp only
      split
      · rw [freeEng_power]
      · split <;> simp only [power_ite, haltEng_power, pchEnd_power, freeEng_power, engGo_power, setEng_power, ite_self]
    | fabricWrite n =>
      dsimp only
      split
      · rw [freeEng_power]
      · split <;> simp only [power_ite, haltEng_power, pchEnd_power, freeEng_power, engGo_power, engWrote_power, ite_self]
    | _ => rfl
@[simp] theorem execFabricResponse_keepsPower (eng : Nat) (r : LineResp) (data : Bytes) (s : State) :
    KeepsPower s (execFabricResponse eng r data s) :=
  whenRunning_keepsPower s fun _ => fabricResponse_power ..
@[simp] theorem pchGo_power (s : State) (p : Nat) : (pchGo s p).power = s.power := by
  simp only [pchGo, power_ite, ite_self, modPch_power, pchEnd_power]
@[simp] theorem execFerryPchGo_keepsPower (p : Nat) (s : State) : KeepsPower s (execFerryPchGo p s) :=
  whenPilot_keepsPower s fun u => by simp only [power_ite, ite_self, pchGo_power]
@[simp] theorem pchAbort_power (s : State) (p : Nat) : (pchAbort s p).power = s.power := by
  simp only [pchAbort]
  repeat' split
  all_goals simp only [pchEnd_power, modPch_power, freeEng_power]
@[simp] theorem execFerryPchAbort_keepsPower (p : Nat) (s : State) : KeepsPower s (execFerryPchAbort p s) :=
  whenPilot_keepsPower s fun _ => pchAbort_power ..
@[simp] theorem ferryCommit_power (s : State) (seq : BitVec 16) : (ferryCommit s seq).power = s.power := by
  simp only [ferryCommit, power_ite, ite_self, modFerry_power]
@[simp] theorem execFerryCommit_keepsPower (seq : BitVec 16) (s : State) : KeepsPower s (execFerryCommit seq s) :=
  whenPilot_keepsPower s fun _ => ferryCommit_power ..

/-! ### Staging -/

@[simp] theorem stageSite_power (s : State) (k : Nat) : (stageSite s k).power = s.power := by
  simp only [stageSite]
  repeat' split
  all_goals simp only [pchGo_power, modPch_power]
@[simp] theorem stageWave_power (s : State) (w : Nat) : (stageWave s w).power = s.power := by
  simp only [stageWave, foldl_power, implies_true, stageSite_power]
@[simp] theorem mgmtAct_power (s : State) : (mgmtAct s).power = s.power := by
  simp only [mgmtAct]
  repeat' split
  all_goals simp only [stageWave_power, memTrained_power, outGo_power]
@[simp] theorem mgmtIn_power (s : State) (msg : Bytes) : (mgmtIn s msg).power = s.power := by
  simp only [mgmtIn, mgmtAct_power, mgmtLand_power]
@[simp] theorem execMemTrained_keepsPower (stackMap : BitVec 8) (ports : BitVec 16) (s : State) :
    KeepsPower s (execMemTrained stackMap ports s) :=
  whenRunning_keepsPower s fun u => by simp only [mgmtIn_power]
@[simp] theorem execLinkTrained_keepsPower (links : BitVec 48) (s : State) : KeepsPower s (execLinkTrained links s) :=
  whenRunning_keepsPower s fun u => by simp only [mgmtIn_power]
@[simp] theorem execAck_keepsPower (msg : Bytes) (s : State) : KeepsPower s (execAck msg s) :=
  whenRunning_keepsPower s fun u => by simp only [mgmtIn_power]
@[simp] theorem execUnknown_keepsPower (msg : Bytes) (s : State) : KeepsPower s (execUnknown msg s) :=
  whenRunning_keepsPower s fun _ => mgmtIn_power ..
@[simp] theorem waveStart_power (s : State) : (waveStart s).power = s.power := by
  simp only [waveStart, power_ite, ite_self, waveGo_power, stageWave_power]
@[simp] theorem execBoardingWaveStart_keepsPower (present trained : BitVec 12) (s : State) :
    KeepsPower s (execBoardingWaveStart present trained s) :=
  whenRunning_keepsPower s fun u => by simp only [power_ite, ite_self, siteReports_power, waveStart_power]
@[simp] theorem siteReboard_power (s : State) (body : Bytes) : (siteReboard s body).power = s.power := by
  simp only [siteReboard]
  repeat' split
  all_goals simp only [reply_power, replyMs_power, State.setSite_power, stageSite_power, reboardGo_power]
@[simp] theorem execSiteReboard_keepsPower (body : Bytes) (s : State) : KeepsPower s (execSiteReboard body s) :=
  whenPilot_keepsPower s fun _ => siteReboard_power ..

/-! ### Holds -/

@[simp] theorem modPress_power (s : State) (f : Press → Press) : (modPress s f).power = s.power := by simp only [modPress]
@[simp] theorem modBp_power (s : State) (b : Nat) (f : BerthPress → BerthPress) : (modBp s b f).power = s.power := by
  simp only [modBp, State.setBp_power]
@[simp] theorem recordLate_power (s : State) (b : Nat) (ns : List Nat) : (recordLate s b ns).power = s.power := by
  simp only [recordLate, foldl_power, implies_true, record_power]
@[simp] theorem holdCheck_power (s : State) (c : Nat) : (holdCheck s c).power = s.power := by
  simp only [holdCheck]
  repeat' split
  all_goals simp only [modBp_power, modCh_power, haltCh_power]
@[simp] theorem execHoldCheck_keepsPower (ch : Nat) (s : State) : KeepsPower s (execHoldCheck ch s) :=
  whenRunning_keepsPower s fun _ => holdCheck_power ..
@[simp] theorem holdAgain_power (s : State) (b : Nat) : (holdAgain s b).power = s.power := by
  simp only [holdAgain, power_ite, ite_self, foldl_power, implies_true, holdCheck_power]
@[simp] theorem holdSet_power (s : State) (b : Nat) (f : BerthPress → BerthPress) : (holdSet s b f).power = s.power := by
  simp only [holdSet, holdAgain_power, recordLate_power, State.setBp_power]

/-! ### The Presses -/

@[simp] theorem modArray_power (s : State) (n : Nat) (f : PressArray → PressArray) : (modArray s n f).power = s.power := by
  simp only [modArray, modPress_power]
@[simp] theorem modTile_power (s : State) (b : Nat) (id : DWord) (ti tj : Nat) (f : Tile → Tile) :
    (modTile s b id ti tj f).power = s.power := by
  simp only [modTile, modBp_power]
@[simp] theorem setDeclErr_power (s : State) (b i : Nat) : (setDeclErr s b i).power = s.power := by
  simp only [setDeclErr, power_ite, ite_self, State.setBp_power, msix_power]
@[simp] theorem setJobFlag_power (s : State) (b i : Nat) : (setJobFlag s b i).power = s.power := by
  simp only [setJobFlag, power_ite, ite_self, State.setBp_power, msix_power]
@[simp] theorem cutRun_power (s : State) (n : Nat) : (cutRun s n).power = s.power := by
  unfold cutRun
  split <;> simp only [modArray_power]
@[simp] theorem markSaturated_power (s : State) : (markSaturated s).power = s.power := by
  simp only [markSaturated, power_ite, ite_self, foldl_power, implies_true, setJobFlag_power]
@[simp] theorem checkCommit_power (s : State) : (checkCommit s).power = s.power := by
  simp only [checkCommit, power_ite, ite_self, foldl_power, implies_true, setJobFlag_power]
@[simp] theorem assertSampler_power (s : State) (b : Nat) : (assertSampler s b).power = s.power := by
  simp only [assertSampler, assertRequest_power]
@[simp] theorem sendRecord_power (s : State) (b : Nat) (r : Bytes) : (sendRecord s b r).power = s.power := by
  simp only [sendRecord, assertSampler_power, modBp_power]
@[simp] theorem freeRanges_power (s : State) (b : Nat) (mine : CapRange → Bool) : (freeRanges s b mine).power = s.power := by
  simp only [freeRanges]
@[simp] theorem freeCapture_power (s : State) (b : Nat) (id : DWord) : (freeCapture s b id).power = s.power := by
  simp only [freeCapture, freeRanges_power]
@[simp] theorem releaseArray_power (s : State) (n : Nat) : (releaseArray s n).power = s.power := by
  simp only [releaseArray, power_ite, ite_self, modArray_power, modFerry_power, markSaturated_power, parkIsland_power]
@[simp] theorem tileVerdict_power (s : State) (b : Nat) (id : DWord) (ti tj : Nat) (rcd : Bytes) :
    (tileVerdict s b id ti tj rcd).power = s.power := by
  simp only [tileVerdict]
  repeat' split
  all_goals simp only [releaseArray_power, modPress_power, sendRecord_power, modTile_power, bump_power, alarm_power,
    freeCapture_power, modBp_power]
@[simp] theorem plainVerdict_power (s : State) (b : Nat) (a : Armed) (t : Tile) (code : Nat) :
    (plainVerdict s b a t code).power = s.power := by
  unfold plainVerdict
  split <;> simp only [cutRun_power, tileVerdict_power]
@[simp] theorem showRecords_power (s : State) (b : Nat) : (showRecords s b).power = s.power := by
  simp only [showRecords, power_ite, ite_self, State.setBp_power, msix_power]
@[simp] theorem recordLanded_power (s : State) (b : Nat) : (recordLanded s b).power = s.power := by
  simp only [recordLanded]
  split <;> simp only [emit_power, showRecords_power, State.setBp_power]
@[simp] theorem verdictApply_power (s : State) (b : Nat) : (verdictApply s b).power = s.power := by
  simp only [verdictApply]
  split <;> simp only [holdSet_power]
@[simp] theorem closeSegments_power (s : State) (b : Nat) : (closeSegments s b).power = s.power := by
  refine foldl_power _ (fun t g => ?_) _ s
  dsimp only
  split <;> simp only [power_ite, setJobFlag_power, foldl_power, plainVerdict_power, modBp_power, modPress_power, implies_true, ite_self]
@[simp] theorem absorb_power (s : State) : (absorb s).power = s.power := by
  simp only [absorb, foldl_power, implies_true, plainVerdict_power, closeSegments_power, modBp_power]
theorem whenPress_keepsPower (s : State) {f : State → State} (hf : ∀ t, (f t).power = t.power) : KeepsPower s (whenPress s f) :=
  whenRunning_keepsPower s fun t => (hf _).trans (absorb_power t)
theorem whenPressBar_keepsPower (s : State) (vf : Nat) {f : State → State} (hf : ∀ t, (f t).power = t.power) :
    KeepsPower s (whenPressBar s vf f) :=
  whenBar_keepsPower s _ fun t => (hf _).trans (absorb_power t)
theorem whenPressCommanded_keepsPower (s : State) {f : State → State} (hf : ∀ t, (f t).power = t.power) :
    KeepsPower s (whenPressCommanded s f) :=
  whenCommanded_keepsPower s fun t => (hf _).trans (absorb_power t)
@[simp] theorem declare_power (s : State) (b : Nat) (d : Bytes) : (declare s b d).power = s.power := by
  simp only [declare]
  split <;> simp only [power_ite, ite_self, setDeclErr_power, State.setBp_power]
@[simp] theorem execPressDeclPort_keepsPower (vf offset : Nat) (data : Bytes) (s : State) :
    KeepsPower s (execPressDeclPort vf offset data s) :=
  whenPressBar_keepsPower s _ fun u => by simp only [power_ite, ite_self, declare_power, setDeclErr_power]
@[simp] theorem declStatus_power (s : State) (site b : Nat) : (declStatus s site b).power = s.power := by
  simp only [declStatus, sendSide_power]
@[simp] theorem execDeclare_keepsPower (site : Nat) (data : Bytes) (s : State) : KeepsPower s (execDeclare site data s) :=
  whenPress_keepsPower s fun u => by
    dsimp only
    repeat' split
    all_goals simp only [declare_power, alarm_power, declStatus_power]
@[simp] theorem closePoint_power (s : State) (b : Nat) (d : Bytes) : (closePoint s b d).power = s.power := by
  simp only [closePoint, foldl_power, implies_true, modBp_power, modPier_power]
@[simp] theorem headCheck_power (s : State) (b : Nat) : (headCheck s b).power = s.power := by
  simp only [headCheck]
  split <;> simp only [power_ite, ite_self, modBp_power, holdSet_power, closePoint_power, modPress_power, holdAgain_power,
    setDeclErr_power, sendRecord_power]
@[simp] theorem execDeclHeadCheck_keepsPower (vf : Nat) (s : State) : KeepsPower s (execDeclHeadCheck vf s) :=
  whenPress_keepsPower s fun _ => headCheck_power ..
@[simp] theorem armed_power (s : State) (b : Nat) (j : Job) (slots : Tbl (Nat × Nat)) (d : Bytes) (tiles : List Nat) (rs : List
    (CapPart × CapRange)) (w : List (CapPart × Nat × Nat)) :
    (armed s b j slots d tiles rs w).power = s.power := by
  simp only [armed]
  repeat' split
  all_goals simp only [modPress_power, State.setBp_power, holdAgain_power, closeSegments_power, setJobFlag_power]
/-- The Piers loaded so far, if none refused, leave the power controller `p`. -/
def ArmResult.Keeps (p : Power) : ArmResult → Prop
  | .done t _ => t.power = p
  | .noPin => True
  | .noRoom => True
theorem loadLane_keeps (b : Nat) (rs : List (CapPart × CapRange)) {p : Power} {acc : ArmResult} (h : acc.Keeps p) (home : Nat) :
    (loadLane b rs acc home).Keeps p := by
  cases acc with
  | done s w =>
    simp only [loadLane]
    split
    · exact h
    split
    · trivial
    split
    · trivial
    split
    · trivial
    · exact h
  | noPin => trivial
  | noRoom => trivial
theorem loadPiers_keeps (s : State) (b : Nat) (rs : List (CapPart × CapRange)) : (loadPiers s b rs).Keeps s.power :=
  List.foldlRecOn _ _ rfl (fun _ h home _ => loadLane_keeps b rs h home)
@[simp] theorem declArm_power (s : State) (b : Nat) : (declArm s b).power = s.power := by
  simp only [declArm]
  repeat' split
  all_goals simp only [vaultMiss_power, armed_power]
  next h => exact (h ▸ loadPiers_keeps s b _ : ArmResult.Keeps s.power (.done _ _))
@[simp] theorem execDeclArm_keepsPower (vf : Nat) (s : State) : KeepsPower s (execDeclArm vf s) :=
  whenPress_keepsPower s fun _ => declArm_power ..
@[simp] theorem execCapturePinRetry_keepsPower (vf : Nat) (s : State) : KeepsPower s (execCapturePinRetry vf s) :=
  whenPress_keepsPower s fun _ => declArm_power ..
@[simp] theorem samplerFill_power (s : State) (b : Nat) (f : Option KeyFill) : (samplerFill s b f).power = s.power := by
  simp only [samplerFill, modPress_power]
@[simp] theorem samplerInvalidate_power (s : State) (which : Nat → Bool) : (samplerInvalidate s which).power = s.power := by
  simp only [samplerInvalidate, modPress_power]
@[simp] theorem readyTiles_power (s : State) (b : Nat) (id : DWord) : (readyTiles s b id).power = s.power := by
  unfold readyTiles
  split <;> simp only [foldl_power, implies_true, markSaturated_power, modPress_power, modTile_power]
@[simp] theorem rangeDone_power (s : State) (n i : Nat) : (rangeDone s n i).power = s.power := by
  unfold rangeDone
  split <;> simp only [power_ite, ite_self, modPier_power, modBp_power, closeSegments_power, readyTiles_power]
@[simp] theorem execRangeDone_keepsPower (pier range : Nat) (s : State) : KeepsPower s (execRangeDone pier range s) :=
  whenPress_keepsPower s fun _ => rangeDone_power ..
@[simp] theorem execOperandWaitTimeout_keepsPower (vf : Nat) (declId : DWord) (tile : Nat) (s : State) :
    KeepsPower s (execOperandWaitTimeout vf declId tile s) :=
  whenPress_keepsPower s fun u => by
    split
    · split <;> simp only [power_ite, plainVerdict_power, ite_self]
    · rfl
@[simp] theorem tileDispatch_power (s : State) (n : Nat) : (tileDispatch s n).power = s.power := by
  simp only [tileDispatch]
  repeat' split
  all_goals simp only [modPress_power, modArray_power, modTile_power, assertRequest_power]
@[simp] theorem execTileDispatch_keepsPower (array : Nat) (s : State) : KeepsPower s (execTileDispatch array s) :=
  whenPress_keepsPower s fun _ => tileDispatch_power ..
@[simp] theorem tileComplete_power (s : State) (n : Nat) (t : TileData) : (tileComplete s n t).power = s.power := by
  unfold tileComplete
  split <;> simp only [power_ite, ite_self, tileVerdict_power, modArray_power]
@[simp] theorem execTileComplete_keepsPower (array : Nat) (d : TileData) (s : State) : KeepsPower s (execTileComplete array d s) :=
  whenPress_keepsPower s fun _ => tileComplete_power ..
@[simp] theorem requeue_power (s : State) (n : Nat) : (requeue s n).power = s.power := by
  unfold requeue
  split <;> simp only [modTile_power, cutRun_power, modPress_power, modArray_power]
@[simp] theorem arrayLost_power (s : State) (n : Nat) : (arrayLost s n).power = s.power := by
  simp only [arrayLost, modPress_power, requeue_power, modFerry_power, markSaturated_power, checkCommit_power,
    outOfService_power]
@[simp] theorem arrayFault_power (s : State) (array : Nat) (cause : ArrayCause) : (arrayFault s array cause).power = s.power := by
  simp only [arrayFault]
  repeat' split
  all_goals simp only [modArray_power, arrayLost_power, State.setIsland_power]
@[simp] theorem execArrayFault_keepsPower (array : Nat) (cause : ArrayCause) (s : State) : KeepsPower s (execArrayFault array cause s) :=
  whenPress_keepsPower s fun _ => arrayFault_power ..
@[simp] theorem execPressPark_keepsPower (array : Nat) (park : Bool) (s : State) : KeepsPower s (execPressPark array park s) :=
  whenCommanded_keepsPower s fun u => by
    simp only [power_ite, ite_self, modArray_power, unpark_power, markSaturated_power, parkIsland_power]
@[simp] theorem execVerdictApply_keepsPower (vf : Nat) (s : State) : KeepsPower s (execVerdictApply vf s) :=
  whenPress_keepsPower s fun _ => verdictApply_power ..
@[simp] theorem execPressVerdictCons_keepsPower (vf : Nat) (value : Word) (s : State) : KeepsPower s (execPressVerdictCons vf value s) :=
  whenPressBar_keepsPower s _ fun u => by
    simp only [power_ite, ite_self, showRecords_power, State.setBp_power, assertSampler_power, setDeclErr_power]
@[simp] theorem execPressRegionCommit_keepsPower (vf : Nat) (s : State) : KeepsPower s (execPressRegionCommit vf s) :=
  whenPressBar_keepsPower s _ fun u => by simp only [power_ite, ite_self, modBp_power]
@[simp] theorem dropTiles_power (s : State) (b : Nat) : (dropTiles s b).power = s.power := by
  rw [dropTiles, modBp_power, modPress_power]
  refine foldl_power _ (fun t n => ?_) _ s
  split <;> simp only [power_ite, releaseArray_power, cutRun_power, ite_self]
@[simp] theorem freeAllCapture_power (s : State) (b : Nat) : (freeAllCapture s b).power = s.power := by
  simp only [freeAllCapture, freeRanges_power]
@[simp] theorem wipeBasket_power (s : State) (b : Nat) : (wipeBasket s b).power = s.power := by
  simp only [wipeBasket, foldl_emit_power, freeAllCapture_power]
@[simp] theorem freeCursors_power (s : State) (b : Nat) : (freeCursors s b).power = s.power := by simp only [freeCursors]
@[simp] theorem quitJob_power (s : State) (b : Nat) : (quitJob s b).power = s.power := by
  simp only [quitJob, modBp_power, freeCursors_power, dropTiles_power]
@[simp] theorem endJob_power (s : State) (b : Nat) : (endJob s b).power = s.power := by
  simp only [endJob, modBp_power, freeAllCapture_power, quitJob_power]
@[simp] theorem offerBurst_power (s : State) (p : Peripheral) : (offerBurst s p).power = s.power := by
  simp only [offerBurst, power_ite, ite_self, startBurst_power]
@[simp] theorem execPeripheralRequest_keepsPower (p : Peripheral) (asserted : Bool) (s : State) :
    KeepsPower s (execPeripheralRequest p asserted s) :=
  whenPress_keepsPower s fun u => by simp only [power_ite, ite_self, offerBurst_power, assertRequest_power, modFerry_power]
@[simp] theorem flashBurst_power (s : State) : (flashBurst s).power = s.power := by
  unfold flashBurst
  split <;> simp only [engGo_power, setEng_power]
@[simp] theorem pressBurst_power (s : State) (n : Nat) : (pressBurst s n).power = s.power := by
  simp only [pressBurst]
  repeat' split
  all_goals simp only [modArray_power, emit_power, assertRequest_power]
@[simp] theorem bundleBurst_power (s : State) (l : Nat) : (bundleBurst s l).power = s.power := by
  simp only [bundleBurst]
  repeat' split
  all_goals simp only [engGo_power, setEng_power]
@[simp] theorem burstDone_power (s : State) (p : Peripheral) : (burstDone s p).power = s.power := by
  unfold burstDone
  split <;> simp only [power_ite, ite_self, offerBurst_power, modFerry_power, flashBurst_power, pressBurst_power, recordLanded_power,
    assertSampler_power, assertRequest_power, bundleBurst_power]
@[simp] theorem execPeripheralBurstDone_keepsPower (p : Peripheral) (s : State) : KeepsPower s (execPeripheralBurstDone p s) :=
  whenPress_keepsPower s fun _ => burstDone_power ..
@[simp] theorem engineFault_power (s : State) (e : Nat) : (engineFault s e).power = s.power := by
  simp only [engineFault]
  repeat' split
  all_goals simp only [foldl_power, implies_true, freeEng_power, reassert_power, abandonReads_power, modPch_power,
    modCh_power, outOfService_power, arrayLost_power, modArray_power]
@[simp] theorem execFerryEngineFault_keepsPower (eng : Nat) (s : State) : KeepsPower s (execFerryEngineFault eng s) :=
  whenPress_keepsPower s fun _ => engineFault_power ..

/-! ### The jobs of a link -/

@[simp] theorem linkStep_power (s : State) (n : Nat) (data : Bytes) (f : State → Nat → Bool → State)
    (hf : ∀ t a b, (f t a b).power = t.power) : (linkStep s n data f).1.power = s.power := by
  simp only [linkStep]
  split <;> simp only [modLink_power, pilotLink_power, hf, implies_true]
@[simp] theorem dropLinkJob_power (s : State) (n : Nat) : (dropLinkJob s n).power = s.power := by
  simp only [dropLinkJob, modLink_power, power_ite, linkStep_power, jobDropStep_power, implies_true, ite_self]
@[simp] theorem dropBerthLinks_power (s : State) (b : Nat) : (dropBerthLinks s b).power = s.power := by
  simp only [dropBerthLinks, foldl_power, implies_true, modLink_power, dropLinkJob_power]
@[simp] theorem leaveJob_power (s : State) (b : Nat) (reason : Byte) : (leaveJob s b reason).power = s.power := by
  unfold leaveJob
  split <;> simp only [power_ite, ite_self, foldl_power, implies_true, dropBerthLinks_power, routeFrom_power]
@[simp] theorem assignLinks_power (s : State) (b : Nat) : (assignLinks s b).power = s.power := by
  unfold assignLinks
  split <;> simp only [power_ite, ite_self, foldl_power, implies_true, modLink_power, sendCmd_power]
@[simp] theorem startAgreement_power (s : State) (n : Nat) : (startAgreement s n).power = s.power := by
  rcases hl : linkStep s n [] (fun s k _ => linkDrawStep s k) with ⟨t, ok⟩
  have stepped : t.power = s.power := by rw [power_fst hl, linkStep_power _ _ _ _ (fun t k _ => linkDrawStep_power t k)]
  unfold startAgreement
  split
  · rfl
  · split
    · rfl
    · cases ok <;> simp only [hl, sendMessage_power, modLink_power, stepped]
@[simp] theorem beginAgreement_power (s : State) (n : Nat) : (beginAgreement s n).power = s.power := by
  simp only [beginAgreement, power_ite, ite_self, startAgreement_power]
@[simp] theorem onJobOffer_power (s : State) (n : Nat) (m : Bytes) : (onJobOffer s n m).power = s.power := by
  simp only [onJobOffer]
  split
  · rfl
  · split
    · split <;> simp only [sendMessage_power, modLink_power, power_fst ‹_›, linkStep_power, jobEncapStep_power, implies_true]
    · exact sendMessage_power ..
@[simp] theorem linkUnavailable_power (s : State) (n b : Nat) : (linkUnavailable s n b).power = s.power := by
  simp only [linkUnavailable, modBp_power, dropLinkJob_power]
@[simp] theorem onJobAccept_power (s : State) (n : Nat) (m : Bytes) : (onJobAccept s n m).power = s.power := by
  simp only [onJobAccept]
  repeat' split
  all_goals simp only [modLink_power, linkStep_power, jobDecapStep_power, implies_true, State.setLink_power, linkUnavailable_power,
    dropLinkJob_power]
@[simp] theorem promoteIfBoth_power (s : State) (n : Nat) : (promoteIfBoth s n).power = s.power := by
  simp only [promoteIfBoth, power_ite, modLink_power, linkStep_power, promoteStep_power, implies_true, ite_self]
@[simp] theorem sendJobRekey_power (s : State) (n g : Nat) : (sendJobRekey s n g).power = s.power := by
  simp only [sendJobRekey, sendMessage_power, promoteIfBoth_power, modLink_power]
@[simp] theorem onJobRekey_power (s : State) (n g : Nat) : (onJobRekey s n g).power = s.power := by
  simp only [onJobRekey, power_ite, ite_self, State.setLink_power, sendJobRekey_power, promoteIfBoth_power]
@[simp] theorem startLinkRekey_power (s : State) (n : Nat) : (startLinkRekey s n).power = s.power := by
  simp only [startLinkRekey]
  split
  · rfl
  · split <;> simp only [sendMessage_power, modLink_power, power_fst ‹_›, linkStep_power, linkDrawStep_power, implies_true]
@[simp] theorem answerLinkRekey_power (s : State) (n : Nat) (m : Bytes) : (answerLinkRekey s n m).power = s.power := by
  simp only [answerLinkRekey, power_ite, modLink_power, sendMessage_power, pilotLink_power, maintEncapStep_power, implies_true, ite_self]
@[simp] theorem endLinkRekey_power (s : State) (n : Nat) (m : Bytes) : (endLinkRekey s n m).power = s.power := by
  simp only [endLinkRekey]
  split <;> simp only [modLink_power, power_fst ‹_›, linkStep_power, maintDecapStep_power, implies_true]
@[simp] theorem onRekey_power (s : State) (n : Nat) (m : Bytes) : (onRekey s n m).power = s.power := by
  unfold onRekey
  split <;> simp only [power_ite, ite_self, onJobRekey_power, answerLinkRekey_power, startLinkRekey_power, endLinkRekey_power]
@[simp] theorem rekeyThreshold_power (s : State) (n : Nat) (job : Bool) : (rekeyThreshold s n job).power = s.power := by
  simp only [rekeyThreshold, power_ite, ite_self, State.setLink_power, sendJobRekey_power, sendMessage_power, startLinkRekey_power]

/-! ### The rinse -/

@[simp] theorem putBerth_power (s : State) (b : Nat) (y : Berth) : (putBerth s b y).power = s.power := by
  simp only [putBerth, power_ite, ite_self, State.setBerth_power, msix_power]
@[simp] theorem cleanAdd_power (s : State) (r : Nat × Nat × Nat) : (cleanAdd s r).power = s.power := by simp only [cleanAdd]
@[simp] theorem stageAll_power (s : State) (b : Nat) (t1 t2 : List Window) (codes : List Nat) :
    (stageAll s b t1 t2 codes).power = s.power := by
  simp only [stageAll, foldl_power, implies_true, modPier_power]
@[simp] theorem stageFor_power (s : State) (k : BroadcastKind) : (stageFor s k).power = s.power := by
  unfold stageFor
  split <;> simp only [stageAll_power]
@[simp] theorem zeroStart_power (s : State) (r : Nat × Nat × Nat) : (zeroStart s r).power = s.power := by
  simp only [zeroStart, foldl_power, implies_true, modPier_power]
@[simp] theorem zeroOffer_power (s : State) (b stack : Nat) : (zeroOffer s b stack).power = s.power := by
  simp only [zeroOffer]
  split <;> simp only [power_ite, State.setBerth_power, zeroStart_power, ite_self]
@[simp] theorem zeroStep_power (s : State) (b : Nat) : (zeroStep s b).power = s.power := by
  simp only [zeroStep, foldl_power, implies_true, cleanAdd_power, State.setBerth_power, zeroOffer_power]
@[simp] theorem uninitAll_power (s : State) (rs : List (Nat × Nat × Nat)) : (uninitAll s rs).power = s.power := by
  simp only [uninitAll, foldl_power, implies_true, pierUninit_power]
@[simp] theorem sendWipe_power (s : State) (k : Nat) : (sendWipe s k).power = s.power := by
  simp only [sendWipe, power_ite, ite_self, sendSite_power, State.setSite_power]
@[simp] theorem wipeUnwiped_power (s : State) : (wipeUnwiped s).power = s.power := by
  simp only [wipeUnwiped, foldl_power, implies_true, sendWipe_power]
@[simp] theorem dropRecord_power (s : State) (b : Nat) : (dropRecord s b).power = s.power := by
  simp only [dropRecord, power_ite, ite_self, invalidate_power, emptyRecord_power]
@[simp] theorem dropSessions_power (s : State) (b : Nat) : (dropSessions s b).power = s.power := by
  simp only [dropSessions, foldl_power, implies_true, emptySlot_power]
@[simp] theorem dropMaps_power (s : State) (b : Nat) : (dropMaps s b).power = s.power := by simp only [dropMaps, modFerry_power]
@[simp] theorem commitAll_power (s : State) : (commitAll s).power = s.power := by simp only [commitAll, power_ite, ite_self, sendCmd_power]
@[simp] theorem rinseEnd_power (s : State) (b : Nat) : (rinseEnd s b).power = s.power := by
  simp only [rinseEnd, power_ite, ite_self, foldl_setSite_power, dropMaps_power, dropSessions_power, dropRecord_power,
    putBerth_power, commitAll_power, stageAll_power, note_power, wipeUnwiped_power]
@[simp] theorem rinseStart_power (s : State) (b k : Nat) : (rinseStart s b k).power = s.power := by
  simp only [rinseStart]
  split <;> simp only [power_ite, zeroStep_power, uninitAll_power, changeQuiet_power, freeCursors_power, wipeBasket_power, dropTiles_power,
    State.setBp_power, resetBerthChs_power, foldl_power, sendWipe_power, State.setBerth_power, implies_true, ite_self]
@[simp] theorem gateDone_power (s : State) (b : Nat) : (gateDone s b).power = s.power := by
  simp only [gateDone, power_ite, ite_self, rinseStart_power]
@[simp] theorem broadcastThen_power (s : State) (k : BroadcastKind) (done : State → State) (hdone : ∀ t, (done t).power = t.power) :
    (broadcastThen s k done).power = s.power := by
  simp only [broadcastThen, power_ite, ite_self, stageFor_power, sendCmd_power, hdone]
@[simp] theorem gateNow_power (s : State) (b : Nat) : (gateNow s b).power = s.power := by
  simp only [gateNow, broadcastThen_power, gateDone_power, dropTiles_power, silenceBerth_power, putBerth_power, power_ite, reply_power,
    implies_true, ite_self]
@[simp] theorem gate_power (s : State) (b : Nat) : (gate s b).power = s.power := by
  simp only [gate, power_ite, ite_self, silenceBerth_power, State.setBerth_power, gateNow_power]
@[simp] theorem gateJob_power (s : State) (b : Nat) (reason : Byte) : (gateJob s b reason).power = s.power := by
  simp only [gateJob, power_ite, ite_self, quitJob_power, leaveJob_power, dropBerthLinks_power]
@[simp] theorem tablesDone_power (s : State) (b : Nat) : (tablesDone s b).power = s.power := by
  simp only [tablesDone, power_ite, ite_self, State.setBerth_power, reply_power, gateNow_power, gateJob_power]
@[simp] theorem broadcastDone_power (s : State) (k : Option BroadcastKind) : (broadcastDone s k).power = s.power := by
  unfold broadcastDone
  split <;> simp only [tablesDone_power, gateDone_power]
@[simp] theorem broadcast_power (s : State) (k : BroadcastKind) : (broadcast s k).power = s.power := by
  simp only [broadcast, broadcastThen_power, broadcastDone_power, implies_true]
@[simp] theorem startRinse_power (s : State) (b : Nat) (reason : Byte) : (startRinse s b reason).power = s.power := by
  simp only [startRinse, power_ite, ite_self, gate_power, gateJob_power]
@[simp] theorem rinseStep_power (s : State) (b : Nat) : (rinseStep s b).power = s.power := by
  simp only [rinseStep]
  split
  · rfl
  · split <;> simp only [power_ite, rinseStart_power, zeroStep_power, State.setBerth_power, rinseEnd_power, ite_self]
@[simp] theorem execRinseStepDone_keepsPower (berth : Nat) (s : State) : KeepsPower s (execRinseStepDone berth s) :=
  next_ite_keepsPower _ (rinseStep_power s berth)
@[simp] theorem execRinseSequencerTakeover_keepsPower (berth : Nat) (s : State) : KeepsPower s (execRinseSequencerTakeover berth s) :=
  whenRunning_keepsPower s fun u => by simp only [power_ite, ite_self, rinseStart_power, State.setBerth_power]

/-! ### Berths -/

@[simp] theorem pf1Status_power (s : State) (code st : Byte) : (pf1Status s code st).power = s.power := by
  simp only [pf1Status, reply_power]
@[simp] theorem berthCmd_power (s : State) (code : Byte) (body : Bytes) (len : Nat) (bad : Bool) (ok : Berth → Bool)
    (f : State → Nat → State × Option Byte) (hf : ∀ t b, (f t b).1.power = t.power) :
    (berthCmd s code body len bad ok f).power = s.power := by
  rcases hr : f s (leAt body 0 2) with ⟨t, st⟩
  have served : t.power = s.power := by rw [power_fst hr, hf]
  cases st <;> simp only [berthCmd, hr, power_ite, replyMs_power, pf1Status_power, served, ite_self]
@[simp] theorem execBerthQuery_keepsPower (body : Bytes) (s : State) : KeepsPower s (execBerthQuery body s) :=
  whenPilot_keepsPower s fun u => by simp only [power_ite, ite_self, replyMs_power, reply_power]
theorem openRecord_power {s t : State} {b : Nat} (h : openRecord s b = some t) : t.power = s.power := by
  obtain ⟨draw, hd, drawn⟩ := drawSeed_opaque
  obtain ⟨f, hf⟩ : ∃ f, f = openRecord := ⟨_, rfl⟩
  rw [← hf] at h
  delta openRecord at hf
  rw [← hd] at hf
  subst hf
  dsimp only at h
  split at h
  · cases h
  next hs =>
    cases h
    rw [invalidate_power, putRecord_power, notEmpty_power, drew_power, power_snd hs, drawn]
@[simp] theorem giveMaps_power (s : State) (b base count : Nat) : (giveMaps s b base count).power = s.power := by
  simp only [giveMaps, foldl_power, implies_true, modFerry_power]
@[simp] theorem berthAssign_power (s : State) (b base count : Nat) : (berthAssign s b base count).1.power = s.power := by
  cases ho : openRecord s b with
  | none => simp only [berthAssign, ho, apply_ite Prod.fst, ite_self]
  | some t =>
    simp only [berthAssign, ho, apply_ite Prod.fst, power_ite, putBerth_power, giveMaps_power, openRecord_power ho, ite_self]
@[simp] theorem execBerthAssign_keepsPower (body : Bytes) (s : State) : KeepsPower s (execBerthAssign body s) :=
  whenPilot_keepsPower s fun u => by simp only [implies_true, berthCmd_power, berthAssign_power]
@[simp] theorem berthWindow_power (s : State) (b tier slot : Nat) (w : Window) : (berthWindow s b tier slot w).1.power = s.power := by
  simp only [berthWindow]
  repeat' split
  all_goals simp only [State.setBerth_power]
@[simp] theorem execBerthWindow_keepsPower (body : Bytes) (s : State) : KeepsPower s (execBerthWindow body s) := by
  unfold execBerthWindow
  exact whenPilot_keepsPower s fun u => by simp only [berthCmd_power, berthWindow_power, implies_true]
@[simp] theorem execBerthSites_keepsPower (body : Bytes) (s : State) : KeepsPower s (execBerthSites body s) :=
  whenPilot_keepsPower s fun _ => berthCmd_power _ _ _ _ _ _ _ fun _ _ => by
    split <;> simp only [State.setBerth_power]
@[simp] theorem commitZeroing_power (s : State) (b : Nat) : (commitZeroing s b).power = s.power := by
  simp only [commitZeroing, zeroStep_power, State.setBerth_power, uninitAll_power]
@[simp] theorem commitBroadcast_power (s : State) (b : Nat) : (commitBroadcast s b).power = s.power := by
  simp only [commitBroadcast, broadcast_power, State.setBerth_power]
@[simp] theorem commitGo_power (s : State) (b : Nat) : (commitGo s b).power = s.power := by
  unfold commitGo
  split <;> simp only [power_ite, ite_self, commitZeroing_power, zeroStep_power, commitBroadcast_power]
@[simp] theorem berthCommit_power (s : State) (b : Nat) : (berthCommit s b).1.power = s.power := by
  unfold berthCommit
  split <;> simp only [foldl_power, implies_true, sendWipe_power, State.setBerth_power, commitGo_power]
@[simp] theorem execBerthCommit_keepsPower (body : Bytes) (s : State) : KeepsPower s (execBerthCommit body s) :=
  whenPilot_keepsPower s fun u => by simp only [implies_true, berthCmd_power, berthCommit_power]
@[simp] theorem execBerthCommitContinue_keepsPower (berth : Nat) (s : State) : KeepsPower s (execBerthCommitContinue berth s) :=
  whenPilot_keepsPower s fun _ => commitGo_power ..
@[simp] theorem wipeAck_power (s : State) (k : Nat) (measurement : Bytes) (signed : Bool) :
    (wipeAck s k measurement signed).power = s.power := by
  simp only [wipeAck]
  repeat' split
  all_goals simp only [siteCleared_power, State.setSite_power, State.setBerth_power, siteDone_power, failSite_power,
    siteMeasure_power]
@[simp] theorem execWipeAck_keepsPower (site : Nat) (measurement : Bytes) (s : State) (signed : Bool) :
    KeepsPower s (execWipeAck site measurement s signed) :=
  whenPilot_keepsPower s fun _ => wipeAck_power ..
@[simp] theorem wipeTimeout_power (s : State) (k : Nat) : (wipeTimeout s k).power = s.power := by
  simp only [wipeTimeout, power_ite, ite_self, failSite_power, State.setSite_power]
@[simp] theorem execWipeTimeout_keepsPower (site : Nat) (s : State) : KeepsPower s (execWipeTimeout site s) :=
  whenPilot_keepsPower s fun _ => wipeTimeout_power ..
@[simp] theorem berthRinse_power (s : State) (b : Nat) : (berthRinse s b).1.power = s.power := by
  simp only [berthRinse]
  repeat' split
  all_goals simp only [gate_power, State.setBerth_power, startRinse_power]
@[simp] theorem execBerthRinse_keepsPower (body : Bytes) (s : State) : KeepsPower s (execBerthRinse body s) :=
  whenPilot_keepsPower s fun u => by simp only [implies_true, berthCmd_power, berthRinse_power]
@[simp] theorem berthRotate_power (s : State) (b : Nat) (share : BitVec 8) : (berthRotate s b share).1.power = s.power := by
  simp only [berthRotate]
  repeat' split
  all_goals simp only [rotateOp_power]
@[simp] theorem execBerthRotate_keepsPower (body : Bytes) (s : State) : KeepsPower s (execBerthRotate body s) :=
  whenPilot_keepsPower s fun u => by simp only [implies_true, berthCmd_power, berthRotate_power]
@[simp] theorem execFerryShare_keepsPower (body : Bytes) (s : State) : KeepsPower s (execFerryShare body s) :=
  whenPilot_keepsPower s fun u => by simp only [implies_true, berthCmd_power, modCh_power]
@[simp] theorem unbindFailed_power (s : State) (b : Nat) : (unbindFailed s b).power = s.power := by
  simp only [unbindFailed, power_ite, ite_self, foldl_setSite_power, State.setBerth_power, commitAll_power,
    stageAll_power]
@[simp] theorem closeJob_power (s : State) (b : Nat) : (closeJob s b).power = s.power := by
  simp only [closeJob, endJob_power, leaveJob_power, recordLate_power, State.setBp_power, unbindFailed_power, holdAgain_power,
    putBerth_power]
@[simp] theorem berthResume_power (s : State) (b : Nat) : (berthResume s b).1.power = s.power := by
  simp only [berthResume, closeJob_power, modBp_power]
@[simp] theorem execBerthResume_keepsPower (body : Bytes) (s : State) : KeepsPower s (execBerthResume body s) :=
  whenPilot_keepsPower s fun u => by simp only [implies_true, berthCmd_power, berthResume_power]

/-! ### Pairs -/

@[simp] theorem vfCmd_power (s : State) (vf : Nat) (code : Byte) (f : State → State) (hf : ∀ t, (f t).power = t.power) :
    (vfCmd s vf code f).power = s.power := by
  simp only [vfCmd]
  repeat' split
  all_goals simp only [replyMs_power, hf]
@[simp] theorem suspend_power (s : State) (b : Nat) : (suspend s b).power = s.power := by
  simp only [suspend, power_ite, ite_self, foldl_power, implies_true, putBerth_power, modLink_power]
@[simp] theorem dropToward_power (s : State) (b : Nat) (ids : List Bytes) : (dropToward s b ids).power = s.power := by
  simp only [dropToward, foldl_power, implies_true, dropLinkJob_power]
@[simp] theorem applyVerdict_power (s : State) (b : Nat) (point : Word) (outcome : Byte) (roles : List (Bytes × Byte)) :
    (applyVerdict s b point outcome roles).power = s.power := by
  simp only [applyVerdict]
  repeat' split
  all_goals simp only [holdSet_power, dropToward_power, startRinse_power, suspend_power]
@[simp] theorem castVote_power (s : State) (b : Nat) (j : Job) (point : Word) : (castVote s b j point).power = s.power := by
  simp only [castVote, power_ite, ite_self, foldl_power, implies_true, record_power, modBp_power, routeFrom_power, applyVerdict_power]
@[simp] theorem tryVote_power (s : State) (b : Nat) (point : Word) : (tryVote s b point).power = s.power := by
  unfold tryVote
  split <;> simp only [power_ite, ite_self, castVote_power]
@[simp] theorem takeDigest_power (s : State) (b : Nat) (point : Word) (v : PairVote) : (takeDigest s b point v).power = s.power := by
  unfold takeDigest
  split <;> simp only [power_ite, ite_self, tryVote_power, modBp_power]
@[simp] theorem sendDigest_power (s : State) (b : Nat) (j : Job) (point : Word) (v : PairVote) :
    (sendDigest s b j point v).power = s.power := by
  simp only [sendDigest, power_ite, ite_self, takeDigest_power, routeFrom_power]
@[simp] theorem onDigest_power (s : State) (m : Bytes) : (onDigest s m).power = s.power := by
  unfold onDigest
  split <;> simp only [power_ite, ite_self, takeDigest_power]
@[simp] theorem execPairDigest_keepsPower (body : Bytes) (s : State) : KeepsPower s (execPairDigest body s) :=
  whenPilot_keepsPower s fun u => by simp only [onDigest_power, absorb_power]
@[simp] theorem onVerdict_power (s : State) (m : Bytes) : (onVerdict s m).power = s.power := by
  unfold onVerdict
  split <;> simp only [power_ite, ite_self, applyVerdict_power]
@[simp] theorem execPairVerdict_keepsPower (body : Bytes) (s : State) : KeepsPower s (execPairVerdict body s) :=
  whenPilot_keepsPower s fun u => by simp only [onVerdict_power, absorb_power]
@[simp] theorem freePointCursors_power (s : State) (b : Nat) (point : Word) : (freePointCursors s b point).power = s.power := by
  simp only [freePointCursors]
@[simp] theorem finishPoint_power (s : State) (b : Nat) (j : Job) (p : PairPoint) (st : Byte) :
    (finishPoint s b j p st).power = s.power := by
  simp only [finishPoint, power_ite, ite_self, modBp_power, freePointCursors_power, sendDigest_power]
@[simp] theorem pairCursorDone_power (s : State) (n i : Nat) : (pairCursorDone s n i).power = s.power := by
  unfold pairCursorDone
  split
  · rfl
  · refine foldl_power _ (fun t y => ?_) _ s
    split <;> simp only [foldl_power, power_ite, finishPoint_power, modBp_power, ite_self, implies_true]
@[simp] theorem execPairCursorDone_keepsPower (pier cursor : Nat) (s : State) : KeepsPower s (execPairCursorDone pier cursor s) :=
  whenPress_keepsPower s fun _ => pairCursorDone_power ..
@[simp] theorem finishWaiting_power (s : State) : (finishWaiting s).power = s.power := by
  refine foldl_power _ (fun t y => ?_) _ s
  split <;> simp only [foldl_power, power_ite, finishPoint_power, ite_self, implies_true]
@[simp] theorem closePoints_power (s : State) (b : Nat) : (closePoints s b).power = s.power := by
  unfold closePoints
  split <;> simp only [foldl_power, implies_true, finishPoint_power]
@[simp] theorem execPairDigestTimeout_keepsPower (vf : Nat) (point : Word) (s : State) : KeepsPower s (execPairDigestTimeout vf point s) :=
  whenPilot_keepsPower s fun u => by
    dsimp only
    split <;> simp only [power_ite, ite_self, absorb_power, castVote_power]
@[simp] theorem execPairVerdictTimeout_keepsPower (vf : Nat) (point : Word) (s : State) :
    KeepsPower s (execPairVerdictTimeout vf point s) :=
  whenPilot_keepsPower s fun u => by simp only [power_ite, ite_self, absorb_power, holdSet_power]
@[simp] theorem memberGone_power (s : State) (b : Nat) (id : Bytes) : (memberGone s b id).power = s.power := by
  simp only [memberGone]
  split
  · rfl
  · split
    · rfl
    · rw [foldl_power _ (fun t p => ?_), dropToward_power, modBp_power]
      split <;> simp only [power_ite, sendDigest_power, tryVote_power, ite_self]
@[simp] theorem onJobLeave_power (s : State) (m : Bytes) : (onJobLeave s m).power = s.power := by
  unfold onJobLeave
  split <;> simp only [power_ite, ite_self, memberGone_power]
@[simp] theorem execJobLeave_keepsPower (body : Bytes) (s : State) : KeepsPower s (execJobLeave body s) :=
  whenPilot_keepsPower s fun u => by simp only [onJobLeave_power, absorb_power]
@[simp] theorem departures_power (s : State) : (departures s).power = s.power := by
  refine foldl_power _ (fun t x => ?_) _ s
  split <;> simp only [foldl_power, memberGone_power, implies_true]
theorem armCursor_power {b : Nat} {p : Power} {acc : Option (State × List (Nat × Nat))} (h : ∀ t l, acc = some (t, l) → t.power = p)
    (q : Nat × Cursor) : ∀ t l, armCursor b acc q = some (t, l) → t.power = p := by
  intro t l e
  simp only [armCursor] at e
  repeat' split at e
  all_goals cases e
  all_goals simp only [vaultMiss_power, State.setPier_power]
  all_goals exact h _ _ rfl
theorem armCursors_power {s t : State} {b : Nat} {cs : List (Nat × Cursor)} {l : List (Nat × Nat)}
    (h : cs.foldl (armCursor b) (some (s, [])) = some (t, l)) : t.power = s.power :=
  List.foldlRecOn (motive := fun acc => ∀ t l, acc = some (t, l) → t.power = s.power) cs (armCursor b)
    (fun _ _ e => by cases e; rfl) (fun _ h q _ => armCursor_power h q) t l h
@[simp] theorem pairPoint_power (s : State) (b : Nat) (m : Bytes) : (pairPoint s b m).power = s.power := by
  simp only [pairPoint]
  repeat' split
  all_goals simp only [reply_power, modBp_power]
  exact armCursors_power ‹_›
@[simp] theorem execPairPoint_keepsPower (vf : Nat) (body : Bytes) (s : State) : KeepsPower s (execPairPoint vf body s) :=
  whenPilot_keepsPower s fun u => by simp only [implies_true, vfCmd_power, absorb_power, pairPoint_power]
@[simp] theorem pairStatus_power (s : State) (b : Nat) (m : Bytes) : (pairStatus s b m).power = s.power := by
  simp only [pairStatus]
  repeat' split
  all_goals simp only [reply_power]
@[simp] theorem execPairStatus_keepsPower (vf : Nat) (body : Bytes) (s : State) : KeepsPower s (execPairStatus vf body s) :=
  whenPilot_keepsPower s fun u => by simp only [implies_true, vfCmd_power, absorb_power, pairStatus_power]
@[simp] theorem holdQuery_power (s : State) (b : Nat) (m : Bytes) : (holdQuery s b m).power = s.power := by
  simp only [holdQuery]
  repeat' split
  all_goals simp only [reply_power]
@[simp] theorem execHoldQuery_keepsPower (vf : Nat) (body : Bytes) (s : State) : KeepsPower s (execHoldQuery vf body s) :=
  whenPilot_keepsPower s fun u => by simp only [implies_true, vfCmd_power, absorb_power, holdQuery_power]
@[simp] theorem jobPeers_power (s : State) (b : Nat) (m : Bytes) : (jobPeers s b m).power = s.power := by
  simp only [jobPeers, power_ite, ite_self, reply_power, modBp_power]
@[simp] theorem execJobPeers_keepsPower (vf : Nat) (body : Bytes) (s : State) : KeepsPower s (execJobPeers vf body s) :=
  whenPilot_keepsPower s fun u => by simp only [implies_true, vfCmd_power, jobPeers_power]

/-! ### Jobs -/

@[simp] theorem freshSeed_power (s : State) (b : Nat) : (freshSeed s b).1.power = s.power := by
  simp only [freshSeed]
  repeat' split
  all_goals simp only [changeQuiet_power, samplerInvalidate_power, drew_power]
@[simp] theorem jobOpen_power (s : State) (b : Nat) (m : Bytes) : (jobOpen s b m).power = s.power := by
  simp only [jobOpen]
  repeat' split
  all_goals simp only [reply_power, assignLinks_power, putBerth_power, modBp_power]
  all_goals exact (power_fst ‹_›).trans (freshSeed_power ..)
@[simp] theorem execJobOpen_keepsPower (vf : Nat) (body : Bytes) (s : State) : KeepsPower s (execJobOpen vf body s) :=
  whenPilot_keepsPower s fun u => by simp only [implies_true, vfCmd_power, absorb_power, jobOpen_power]
@[simp] theorem jobClose_power (s : State) (b : Nat) (m : Bytes) : (jobClose s b m).power = s.power := by
  unfold jobClose
  split <;> simp only [power_ite, ite_self, foldl_power, implies_true, reply_power, modPress_power, modBp_power, plainVerdict_power,
    closePoints_power]
@[simp] theorem execJobClose_keepsPower (vf : Nat) (body : Bytes) (s : State) : KeepsPower s (execJobClose vf body s) :=
  whenPilot_keepsPower s fun u => by simp only [implies_true, vfCmd_power, absorb_power, jobClose_power]
@[simp] theorem execJobCloseComplete_keepsPower (vf : Nat) (s : State) : KeepsPower s (execJobCloseComplete vf s) :=
  whenPilot_keepsPower s fun u => by simp only [power_ite, ite_self, absorb_power, closeJob_power, reply_power]
@[simp] theorem idleTests_power (s : State) : (idleTests s).power = s.power := by
  simp only [idleTests, power_ite, ite_self, foldl_power, implies_true, sendSide_power, modPress_power]
@[simp] theorem execIdleTest_keepsPower (s : State) : KeepsPower s (execIdleTest s) := whenPilot_keepsPower s fun _ => idleTests_power ..
@[simp] theorem idleTestFailed_power (s : State) (k : Nat) : (idleTestFailed s k).power = s.power := by
  simp only [idleTestFailed]
  split <;> simp only [power_ite, ite_self, failSite_power, State.setSite_power, holdSet_power, unbindFailed_power]
@[simp] theorem testOver_power (s : State) (k : Nat) (id : Word) : (testOver s k id).power = s.power := by
  simp only [testOver, modPress_power]
@[simp] theorem execIdleTestReport_keepsPower (site : Nat) (testId : Word) (result : Byte) (_detail : DWord) (s : State) :
    KeepsPower s (execIdleTestReport site testId result _detail s) :=
  whenPilot_keepsPower s fun u => by
    simp only [power_ite, ite_self, absorb_power, testOver_power, recordQuiet_power, idleTestFailed_power]
@[simp] theorem execIdleTestTimeout_keepsPower (site : Nat) (s : State) : KeepsPower s (execIdleTestTimeout site s) :=
  whenPilot_keepsPower s fun u => by
    dsimp only
    split <;> simp only [absorb_power, idleTestFailed_power, testOver_power]

/-! ### Links -/

@[simp] theorem signBatch_power (s0 : State) : (signBatch s0).power = s0.power := by
  simp only [signBatch, power_ite, ite_self, foldl_power, implies_true, touchSlot_power, sendMessage_power, modLink_power, drew_power]
@[simp] theorem batchIfReady_power (s : State) : (batchIfReady s).power = s.power := by
  simp only [batchIfReady, power_ite, ite_self, signBatch_power]
@[simp] theorem closePilot_power (s : State) (n : Nat) (was : Bool) : (closePilot s n was).power = s.power := by
  simp only [closePilot, power_ite, ite_self, invalidate_power, emptySlot_power, departures_power, startFormation_power]
@[simp] theorem closeLink_power (s : State) (n : Nat) : (closeLink s n).power = s.power := by
  simp only [closeLink, power_ite, ite_self, linkFails_power, State.setLink_power, alarm_power, closePilot_power, batchIfReady_power]
@[simp] theorem closeWith_power (s : State) (n i : Nat) (cause : Byte) : (closeWith s n i cause).power = s.power := by
  simp only [closeWith, closeLink_power, modLink_power]
@[simp] theorem openLink_power (s : State) (n : Nat) : (openLink s n).power = s.power := by
  simp only [openLink, power_ite, ite_self, generateOp_power, sendMessage_power, State.setLink_power]
@[simp] theorem linkError_power (s : State) (n : Nat) (code : Byte) : (linkError s n code).power = s.power := by
  simp only [linkError, closeLink_power, sendMessage_power]
@[simp] theorem attest_power (s : State) (n : Nat) : (attest s n).power = s.power := by
  simp only [attest, power_ite, ite_self, foldl_power, implies_true, modLink_power, milestone_power, departures_power,
    startFormation_power, assignLinks_power]
@[simp] theorem onHello_power (s : State) (n : Nat) (m : Bytes) : (onHello s n m).power = s.power := by
  simp only [onHello]
  repeat' split
  all_goals simp only [linkError_power, State.setLink_power, closeLink_power, batchIfReady_power, modLink_power, sendMessage_power]
  all_goals rw [power_fst ‹_›, linkStep_power _ _ _ _ maintEncapStep_power, State.setLink_power]
@[simp] theorem onKex_power (s : State) (n : Nat) (m : Bytes) : (onKex s n m).power = s.power := by
  simp only [onKex]
  split
  · rfl
  · split <;> simp only [closeLink_power, batchIfReady_power, modLink_power, power_fst ‹_›, linkStep_power, maintDecapStep_power,
    implies_true]
@[simp] theorem onEvidence_power (s : State) (n : Nat) (m : Bytes) : (onEvidence s n m).power = s.power := by
  simp only [onEvidence]
  repeat' split
  all_goals simp only [linkError_power, modLink_power, attest_power, sendMessage_power]
@[simp] theorem onFin_power (s : State) (n : Nat) (m : Bytes) : (onFin s n m).power = s.power := by
  simp only [onFin, power_ite, ite_self, closeLink_power, attest_power, modLink_power]
@[simp] theorem onDiscover_power (s : State) (n : Nat) (m : Bytes) : (onDiscover s n m).power = s.power := by
  simp only [onDiscover, power_ite, ite_self, departures_power, adopt_power, sendMessage_power]
@[simp] theorem onEcho_power (s : State) (n : Nat) (m : Bytes) : (onEcho s n m).power = s.power := by
  simp only [onEcho, power_ite, ite_self, departures_power, echoDone_power]
@[simp] theorem onFormed_power (s : State) (n : Nat) (m : Bytes) : (onFormed s n m).power = s.power := by
  simp only [onFormed, power_ite, ite_self, departures_power, takeFormed_power]
@[simp] theorem deliverInner_power (s : State) (kind : Byte) (body : Bytes) : (deliverInner s kind body).power = s.power := by
  unfold deliverInner
  split <;> simp only [onDigest_power, absorb_power, onVerdict_power, onJobLeave_power]
@[simp] theorem onRoute_power (s : State) (n : Nat) (m : Bytes) : (onRoute s n m).power = s.power := by
  simp only [onRoute, power_ite, ite_self, deliverInner_power, routeOn_power]
@[simp] theorem onMessage_power (s : State) (n : Nat) (kind : Byte) (m : Bytes) : (onMessage s n kind m).power = s.power := by
  unfold onMessage
  split <;> simp only [onRekey_power, onJobOffer_power, onJobAccept_power, onDiscover_power, onEcho_power, onFormed_power, onRoute_power,
    onHello_power, onKex_power, onEvidence_power, onFin_power, closeLink_power]
@[simp] theorem takeHead_power (s : State) (n : Nat) : (takeHead s n).power = s.power := by
  simp only [takeHead]
  split <;> simp only [power_ite, ite_self, State.setLink_power, onMessage_power]
@[simp] theorem pilotTakes_power (fuel : Nat) (s : State) (n : Nat) : (pilotTakes fuel s n).power = s.power := by
  induction fuel generalizing s with
  | zero => rw [pilotTakes]
  | succ fuel ih => simp only [pilotTakes, power_ite, ih, takeHead_power, ite_self]
@[simp] theorem takeBundle_power (s : State) (n stream : Nat) (body : Bytes) : (takeBundle s n stream body).power = s.power := by
  simp only [takeBundle, power_ite, ite_self, assertRequest_power, modFerry_power, State.setLink_power]
@[simp] theorem goodFrame_power (s : State) (n : Nat) (f : GwFrame) (cls : Nat) (body : Bytes) :
    (goodFrame s n f cls body).power = s.power := by
  simp only [goodFrame, power_ite, closeLink_power, takeBundle_power, pilotTakes_power, modLink_power, ite_self]
@[simp] theorem rxFrame_power (s : State) (n : Nat) (f : GwFrame) : (rxFrame s n f).power = s.power := by
  simp only [rxFrame]
  repeat' split
  all_goals simp only [State.setLink_power, closeWith_power, modLink_power, goodFrame_power]
@[simp] theorem drainRx_power (s : State) (n : Nat) : (drainRx s n).power = s.power := by
  simp only [drainRx, foldl_power, implies_true, rxFrame_power, modLink_power]
theorem frameAt_keepsPower (lane : Nat) (kind : Byte) (f : GwFrame) (s : State) : KeepsPower s (frameAt lane kind f s) :=
  whenRunning_keepsPower s fun t => by split <;> simp only [rxFrame_power]
@[simp] theorem execLinkHello_keepsPower (lane : Nat) (f : GwFrame) (s : State) : KeepsPower s (execLinkHello lane f s) :=
  frameAt_keepsPower ..
@[simp] theorem execLinkKex_keepsPower (lane : Nat) (f : GwFrame) (s : State) : KeepsPower s (execLinkKex lane f s) := frameAt_keepsPower ..
@[simp] theorem execLinkEvidence_keepsPower (lane : Nat) (f : GwFrame) (s : State) : KeepsPower s (execLinkEvidence lane f s) :=
  frameAt_keepsPower ..
@[simp] theorem execLinkFin_keepsPower (lane : Nat) (f : GwFrame) (s : State) : KeepsPower s (execLinkFin lane f s) := frameAt_keepsPower ..
@[simp] theorem execLinkError_keepsPower (lane : Nat) (f : GwFrame) (s : State) : KeepsPower s (execLinkError lane f s) :=
  frameAt_keepsPower ..
@[simp] theorem execKeepalive_keepsPower (lane : Nat) (f : GwFrame) (s : State) : KeepsPower s (execKeepalive lane f s) :=
  frameAt_keepsPower ..
@[simp] theorem execRekey_keepsPower (lane : Nat) (f : GwFrame) (s : State) : KeepsPower s (execRekey lane f s) := frameAt_keepsPower ..
@[simp] theorem execJobOffer_keepsPower (lane : Nat) (f : GwFrame) (s : State) : KeepsPower s (execJobOffer lane f s) :=
  frameAt_keepsPower ..
@[simp] theorem execJobAccept_keepsPower (lane : Nat) (f : GwFrame) (s : State) : KeepsPower s (execJobAccept lane f s) :=
  frameAt_keepsPower ..
@[simp] theorem execDiscover_keepsPower (lane : Nat) (f : GwFrame) (s : State) : KeepsPower s (execDiscover lane f s) :=
  frameAt_keepsPower ..
@[simp] theorem execEcho_keepsPower (lane : Nat) (f : GwFrame) (s : State) : KeepsPower s (execEcho lane f s) := frameAt_keepsPower ..
@[simp] theorem execFormed_keepsPower (lane : Nat) (f : GwFrame) (s : State) : KeepsPower s (execFormed lane f s) := frameAt_keepsPower ..
@[simp] theorem execRoute_keepsPower (lane : Nat) (f : GwFrame) (s : State) : KeepsPower s (execRoute lane f s) := frameAt_keepsPower ..
@[simp] theorem execPayload_keepsPower (lane : Nat) (f : GwFrame) (s : State) : KeepsPower s (execPayload lane f s) := frameAt_keepsPower ..
@[simp] theorem execReservedKindFrame_keepsPower (lane : Nat) (f : GwFrame) (s : State) : KeepsPower s (execReservedKindFrame lane f s) :=
  whenRunning_keepsPower s fun u => by split <;> simp only [power_ite, ite_self, rxFrame_power]
@[simp] theorem atLink_power (lane : Nat) (f : State → Nat → State) (s : State) (hf : ∀ t a, (f t a).power = t.power) :
    (atLink lane f s).power = s.power := by
  unfold atLink
  split <;> simp only [hf]
theorem onLink_keepsPower (lane : Nat) (s : State) {f : State → Nat → State} (hf : ∀ t n, (f t n).power = t.power) :
    KeepsPower s (onLink lane s f) :=
  whenRunning_keepsPower s fun t => atLink_power lane f t hf
@[simp] theorem linkTrainedEvent_power (s : State) (n : Nat) : (linkTrainedEvent s n).power = s.power := by
  simp only [linkTrainedEvent, power_ite, ite_self, modLink_power, openLink_power]
@[simp] theorem execLinkTrainedEvent_keepsPower (lane : Nat) (s : State) : KeepsPower s (execLinkTrainedEvent lane s) :=
  onLink_keepsPower lane s fun _ _ => linkTrainedEvent_power ..
@[simp] theorem linkLayerDown_power (s : State) (n : Nat) : (linkLayerDown s n).power = s.power := by
  simp only [linkLayerDown, power_ite, ite_self, modLink_power, closeLink_power, batchIfReady_power]
@[simp] theorem execLinkLayerDown_keepsPower (lane : Nat) (s : State) : KeepsPower s (execLinkLayerDown lane s) :=
  onLink_keepsPower lane s fun _ _ => linkLayerDown_power ..
@[simp] theorem execLinkHelloTimeout_keepsPower (lane : Nat) (s : State) : KeepsPower s (execLinkHelloTimeout lane s) :=
  onLink_keepsPower lane s fun u a => by simp only [power_ite, ite_self, closeLink_power]
@[simp] theorem execLinkReopenTimer_keepsPower (lane : Nat) (s : State) : KeepsPower s (execLinkReopenTimer lane s) :=
  onLink_keepsPower lane s fun u a => by simp only [power_ite, ite_self, openLink_power]
@[simp] theorem execLinkSilenceTimeout_keepsPower (lane : Nat) (s : State) : KeepsPower s (execLinkSilenceTimeout lane s) :=
  onLink_keepsPower lane s fun u a => by simp only [power_ite, ite_self, closeLink_power, State.setLink_power]
@[simp] theorem execCreditWithholdTimeout_keepsPower (lane : Nat) (s : State) : KeepsPower s (execCreditWithholdTimeout lane s) :=
  onLink_keepsPower lane s fun u a => by simp only [power_ite, ite_self, closeLink_power, State.setLink_power]
@[simp] theorem execKeepaliveTimer_keepsPower (lane : Nat) (s : State) : KeepsPower s (execKeepaliveTimer lane s) :=
  onLink_keepsPower lane s fun u a => by simp only [power_ite, ite_self, sendMessage_power]
@[simp] theorem execEvidenceBatchTimer_keepsPower (s : State) : KeepsPower s (execEvidenceBatchTimer s) :=
  whenPilot_keepsPower s fun _ => signBatch_power ..
@[simp] theorem execJobOfferRetry_keepsPower (lane : Nat) (s : State) : KeepsPower s (execJobOfferRetry lane s) :=
  onLink_keepsPower lane s fun u a => by simp only [power_ite, ite_self, startAgreement_power]
@[simp] theorem execRekeyThreshold_keepsPower (lane : Nat) (job : Bool) (s : State) : KeepsPower s (execRekeyThreshold lane job s) :=
  onLink_keepsPower lane s fun u a => by simp only [rekeyThreshold_power]
@[simp] theorem execClose_keepsPower (lane : Nat) (s : State) : KeepsPower s (execClose lane s) :=
  whenCommanded_keepsPower s fun u => by simp only [implies_true, atLink_power, closeLink_power]
@[simp] theorem gwPark_power (s : State) (lane : Nat) (park : Bool) : (gwPark s lane park).power = s.power := by
  simp only [gwPark, power_ite, ite_self, modLink_power, closeLink_power, parkIsland_power, unpark_power]
@[simp] theorem execGwPark_keepsPower (lane : Nat) (park : Bool) (s : State) : KeepsPower s (execGwPark lane park s) :=
  whenCommanded_keepsPower s fun _ => gwPark_power ..
@[simp] theorem gwCommitGo_power (s : State) (t : GwTarget) (seq : BitVec 16) : (gwCommitGo s t seq).power = s.power := by
  unfold gwCommitGo
  split <;> simp only [sendCmd_power, State.setGgroup_power]
@[simp] theorem execGwCommitGo_keepsPower (t : GwTarget) (seq : BitVec 16) (s : State) : KeepsPower s (execGwCommitGo t seq s) :=
  whenCommanded_keepsPower s fun _ => gwCommitGo_power ..
@[simp] theorem gwCfSend_power (s : State) (lane : Nat) : (gwCfSend s lane).power = s.power := by
  simp only [gwCfSend]
  repeat' split
  all_goals simp only [State.setLink_power, sendFrame_power]
@[simp] theorem execGwCfSend_keepsPower (lane : Nat) (s : State) : KeepsPower s (execGwCfSend lane s) :=
  whenCommanded_keepsPower s fun _ => gwCfSend_power ..
@[simp] theorem gwCfRxFree_power (s : State) (n : Nat) : (gwCfRxFree s n).power = s.power := by
  simp only [gwCfRxFree, power_ite, ite_self, takeHead_power, modLink_power, drainRx_power]
@[simp] theorem execGwCfRxFree_keepsPower (lane : Nat) (s : State) : KeepsPower s (execGwCfRxFree lane s) :=
  whenCommanded_keepsPower s fun u => by simp only [implies_true, atLink_power, gwCfRxFree_power]

/-! ### Lanes and Darns -/

@[simp] theorem gwAck_power (s : State) (lane : Nat) (seq : BitVec 16) : (gwAck s lane seq).power = s.power := by
  simp only [gwAck, power_ite, ite_self, State.setGgroup_power]
@[simp] theorem takeCommit_power (s : State) (ix : Nat) (seq : BitVec 16) : (takeCommit s ix seq).power = s.power := by
  simp only [takeCommit]
  repeat' split
  all_goals simp only [pierCommit_power, gwAck_power, modLink_power]
@[simp] theorem takeCmd_power (s : State) (ix : Nat) : (takeCmd s ix).power = s.power := by
  unfold takeCmd
  split <;> simp only [takeCommit_power]
@[simp] theorem execLaneCommandAccept_keepsPower (isl : Island) (s : State) : KeepsPower s (execLaneCommandAccept isl s) :=
  whenRunning_keepsPower s fun u => by simp only [power_ite, ite_self, takeCmd_power]
@[simp] theorem laneFill_power (s : State) (n : Nat) (c : Option KeyFill) : (laneFill s n c).power = s.power := by
  unfold laneFill
  split <;> simp only [power_ite, ite_self, drainRx_power, flushTx_power, State.setLink_power]
@[simp] theorem takeFill_power (s : State) (ix entry : Nat) (c : Option KeyFill) : (takeFill s ix entry c).power = s.power := by
  simp only [takeFill]
  repeat' split
  all_goals simp only [pierFill_power, laneFill_power, samplerFill_power, ferryFillArrive_power]
@[simp] theorem laneInvalidate_power (s : State) (lane n : Nat) : (laneInvalidate s lane n).power = s.power := by
  simp only [laneInvalidate, power_ite, ite_self, vaultMiss_power, State.setLink_power]
@[simp] theorem takeInvalidation_power (s : State) (ix who : Nat) (which : Nat → Bool) :
    (takeInvalidation s ix who which).power = s.power := by
  simp only [takeInvalidation]
  repeat' split
  all_goals simp only [pierInvalidate_power, laneInvalidate_power, samplerInvalidate_power, ferryInvalidate_power]
@[simp] theorem takeLaneMsg_power (s : State) (ix who : Nat) (m : LaneMsg) : (takeLaneMsg s ix who m).power = s.power := by
  unfold takeLaneMsg
  split <;> simp only [takeFill_power, takeInvalidation_power]
theorem channelHead_power {s t : State} {ix : Nat} {m : LaneMsg} (h : channelHead s ix = some (m, t)) : t.power = s.power := by
  unfold channelHead at h
  split at h <;> cases h
  rfl
@[simp] theorem execKeyFillArrive_keepsPower (isl : Island) (s : State) : KeepsPower s (execKeyFillArrive isl s) :=
  whenRunning_keepsPower s fun u => by
    split
    next h => simp only [power_ite, takeLaneMsg_power, channelHead_power h, ite_self]
    · rfl
@[simp] theorem execInvalidation_keepsPower (isl : Island) (s : State) : KeepsPower s (execInvalidation isl s) :=
  whenRunning_keepsPower s fun u => by
    split
    next h => simp only [power_ite, takeLaneMsg_power, channelHead_power h, ite_self]
    · rfl
@[simp] theorem execBroadcast_keepsPower (k : BroadcastKind) (s : State) : KeepsPower s (execBroadcast k s) :=
  whenPilot_keepsPower s fun u => by simp only [power_ite, ite_self, broadcast_power]
@[simp] theorem ackBroadcasts_power (s : State) (ix : Nat) (seq : BitVec 16) : (ackBroadcasts s ix seq).power = s.power := by
  simp only [ackBroadcasts, foldl_power, implies_true, broadcastDone_power]
@[simp] theorem broadcastAck_power (s : State) (ix : Nat) : (broadcastAck s ix).power = s.power := by
  simp only [broadcastAck]
  repeat' split
  all_goals simp only [ackBroadcasts_power, beginAgreement_power]
@[simp] theorem execBroadcastAck_keepsPower (isl : Island) (s : State) : KeepsPower s (execBroadcastAck isl s) :=
  whenPilot_keepsPower s fun u => by simp only [broadcastAck_power]
@[simp] theorem putGroup_power (s : State) (g : TestGroup) (y : GroupSt) : (putGroup s g y).power = s.power := by
  unfold putGroup
  split <;> simp only [State.setPgroup_power, State.setGgroup_power, modPress_power]
@[simp] theorem modGroup_power (s : State) (g : TestGroup) (f : GroupSt → GroupSt) : (modGroup s g f).power = s.power := by
  simp only [modGroup, putGroup_power]
@[simp] theorem moveMisses_power (s : State) (from_ target : Nat) : (moveMisses s from_ target).power = s.power := by simp only [moveMisses]
@[simp] theorem heldCommit_power (s : State) (home target : Nat) (seq : BitVec 16) : (heldCommit s home target seq).power = s.power := by
  simp only [heldCommit, power_ite, ite_self, takeCommit_power, State.setPier_power]
@[simp] theorem applyHeld_power (s : State) (home from_ target : Nat) : (applyHeld s home from_ target).power = s.power := by
  simp only [applyHeld, foldl_power, implies_true, heldCommit_power]
@[simp] theorem moveMessages_power (s : State) (from_ target : Nat) : (moveMessages s from_ target).power = s.power := by
  simp only [moveMessages, foldl_power, implies_true, takeLaneMsg_power]
@[simp] theorem moveLane_power (s : State) (home from_ target waits : Nat) (cover : Tbl Nat) :
    (moveLane s home from_ target waits cover).power = s.power := by
  simp only [moveLane, power_ite, ite_self, moveMisses_power, State.setPier_power, moveMessages_power, applyHeld_power]
@[simp] theorem resumeLane_power (s : State) (home : Nat) : (resumeLane s home).power = s.power := by
  simp only [resumeLane, power_ite, ite_self, drainRx_power, flushTx_power]
@[simp] theorem reportLost_power (s : State) (ix : Nat) : (reportLost s ix).power = s.power := by
  simp only [reportLost, State.setPier_power]
@[simp] theorem laneLost_power (s : State) (ix home : Nat) : (laneLost s ix home).power = s.power := by
  simp only [laneLost, power_ite, ite_self, reportLost_power, closeLink_power, homeLost_power, outOfService_power]
@[simp] theorem setService_power (s : State) (ix : Nat) (v : Service) : (setService s ix v).power = s.power := by
  simp only [setService, State.setIsland_power]
@[simp] theorem pressTestStart_power (s : State) : (pressTestStart s).power = s.power := by
  unfold pressTestStart
  split <;> simp only [power_ite, ite_self, markSaturated_power, setService_power, modGroup_power]
@[simp] theorem spotTestStart_power (s : State) (g : TestGroup) : (spotTestStart s g).power = s.power := by
  simp only [spotTestStart]
  repeat' split
  all_goals simp only [pressTestStart_power, modGroup_power, setService_power, resumeLane_power, moveLane_power]
@[simp] theorem execSpotTestStart_keepsPower (g : TestGroup) (s : State) : KeepsPower s (execSpotTestStart g s) :=
  whenPress_keepsPower s fun _ => spotTestStart_power ..
@[simp] theorem darnNote_power (s : State) (lane spare : Nat) : (darnNote s lane spare).power = s.power := by
  simp only [darnNote, alarm_power, modGroup_power]
@[simp] theorem testReturn_power (s : State) (g : TestGroup) (ix sp : Nat) : (testReturn s g ix sp).power = s.power := by
  simp only [testReturn, moveLane_power, setService_power, resumeLane_power, modGroup_power]
@[simp] theorem spotTestEnd_power (s : State) (g : TestGroup) (pass : Bool) : (spotTestEnd s g pass).power = s.power := by
  simp only [spotTestEnd]
  repeat' split
  all_goals simp only [alarm_power, modGroup_power, testReturn_power, setService_power, darnNote_power,
    State.setIsland_power, arrayLost_power, modArray_power, outOfService_power]
@[simp] theorem execSpotTestEnd_keepsPower (g : TestGroup) (pass : Bool) (s : State) : KeepsPower s (execSpotTestEnd g pass s) :=
  whenPress_keepsPower s fun _ => spotTestEnd_power ..
@[simp] theorem testAbort_power (s : State) (g : TestGroup) : (testAbort s g).power = s.power := by
  unfold testAbort
  split <;> simp only [testReturn_power, setService_power, modGroup_power]
@[simp] theorem darnSpareFor_power (s : State) (ix : Nat) : (darnSpareFor s ix).1.power = s.power := by
  simp only [darnSpareFor]
  repeat' split
  all_goals simp only [testAbort_power]
@[simp] theorem ackThrough_power (s : State) (from_ target : Nat) : (ackThrough s from_ target).power = s.power := by simp only [ackThrough]
@[simp] theorem darnLane_power (s : State) (ix home : Nat) (readable spareOk : Bool) :
    (darnLane s ix home readable spareOk).power = s.power := by
  simp only [darnLane]
  split <;> simp only [power_ite, laneLost_power, modGroup_power, outOfService_power, resumeLane_power, darnNote_power,
    State.setIsland_power, moveLane_power, ackThrough_power, ite_self, power_fst ‹_›, darnSpareFor_power]
@[simp] theorem darnOfCover_power (s : State) (g : TestGroup) (t sp : Nat) (readable : Bool) :
    (darnOfCover s g t sp readable).power = s.power := by
  simp only [darnOfCover, power_ite, ite_self, outOfService_power, darnNote_power, testReturn_power, laneLost_power, modGroup_power]
@[simp] theorem darnOfSpare_power (s : State) (ix : Nat) (readable spareOk : Bool) :
    (darnOfSpare s ix readable spareOk).power = s.power := by
  simp only [darnOfSpare]
  split <;> simp only [power_ite, ite_self, darnOfCover_power, darnLane_power, spotTestEnd_power, outOfService_power]
@[simp] theorem darnAt_power (s : State) (ix : Nat) (cause : DarnCause) (readable spareOk : Bool) :
    (darnAt s ix cause readable spareOk).power = s.power := by
  simp only [darnAt]
  repeat' split
  all_goals simp only [State.setIsland_power, darnOfSpare_power, spotTestEnd_power, darnLane_power]
@[simp] theorem execDarn_keepsPower (isl : Island) (cause : DarnCause) (stateReadable spareOk : Bool) (s : State) :
    KeepsPower s (execDarn isl cause stateReadable spareOk s) :=
  whenPress_keepsPower s fun u => by simp only [darnAt_power]
@[simp] theorem execBroadcastAckTimeout_keepsPower (isl : Island) (s : State) : KeepsPower s (execBroadcastAckTimeout isl s) :=
  whenPress_keepsPower s fun u => by simp only [power_ite, ite_self, darnAt_power]

/-! ### The power domains -/

@[simp] theorem islandDark_power (s : State) (ix : Nat) : (islandDark s ix).power = s.power := by
  simp only [islandDark, power_ite, ite_self, retire_power, State.setIsland_power, State.setPier_power]
@[simp] theorem groupDark_power (s : State) (pd : Nat) : (groupDark s pd).power = s.power := by
  simp only [groupDark]
  repeat' split
  all_goals simp only [State.setPgroup_power, State.setGgroup_power, modPress_power]
@[simp] theorem closeGroup_power (s : State) (g : Nat) : (closeGroup s g).power = s.power := by
  simp only [closeGroup, foldl_power, implies_true, modLink_power, closeLink_power]
@[simp] theorem requeueGroup_power (s : State) (g : Nat) : (requeueGroup s g).power = s.power := by
  simp only [requeueGroup, foldl_power, implies_true, modFerry_power, requeue_power]
@[simp] theorem domainFresh_power (s : State) (pd : Nat) : (domainFresh s pd).power = s.power := by
  simp only [domainFresh, power_ite, ite_self, foldl_power, implies_true, modLink_power, modArray_power]
@[simp] theorem restage_power (s : State) (pd : Nat) : (restage s pd).power = s.power := by
  simp only [restage, power_ite, ite_self, foldl_power, implies_true, modPier_power, sendCmd_power]
@[simp] theorem releasePark_power (s : State) (ix : Nat) : (releasePark s ix).power = s.power := by
  simp only [releasePark, power_ite, ite_self, State.setIsland_power, unpark_power]
@[simp] theorem zeroBasket_power (s : State) : (zeroBasket s).power = s.power := by simp only [zeroBasket, foldl_emit_power]
@[simp] theorem readyLink_power (s : State) (n : Nat) : (readyLink s n).power = s.power := by
  simp only [readyLink, power_ite, ite_self, openLink_power, modLink_power]
@[simp] theorem packageReady_power (s : State) : (packageReady s).power = s.power := by
  simp only [packageReady, power_ite, ite_self, foldl_power, implies_true, modPier_power, zeroBasket_power, milestone_power,
    readyLink_power, modLink_power, departures_power, startFormation_power]
@[simp] theorem execPackageReady_keepsPower (s : State) : KeepsPower s (execPackageReady s) :=
  whenPilot_keepsPower s fun _ => packageReady_power ..

/-! ### The host guard -/

@[simp] theorem execHostUnsupportedRequest_keepsPower (fn : Func) (posted : Bool) (r : UrReason) (s : State) :
    KeepsPower s (execHostUnsupportedRequest fn posted r s) :=
  whenHost_keepsPower s fun u => by simp only [power_ite, ite_self, aer_power, emit_power]
@[simp] theorem hostEvent_power (s : State) (kind slot : Nat) (f : Func) : (hostEvent s kind slot f).power = s.power := by
  simp only [hostEvent, modHost_power]
@[simp] theorem execHgPPop_keepsPower (s : State) : KeepsPower s (execHgPPop s) := whenCommanded_keepsPower s fun _ => rfl
@[simp] theorem setHslot_power (s : State) (k : Nat) (x : HostSlot) : (setHslot s k x).power = s.power := by
  simp only [setHslot, modHost_power]
@[simp] theorem dropSlot_power (s : State) (f : Func) : (dropSlot s f).power = s.power := by
  unfold dropSlot
  split <;> simp only [setHslot_power]
@[simp] theorem showFragment_power (s : State) (f : Func) (m : Bytes) (off : Nat) : (showFragment s f m off).power = s.power := by
  simp only [showFragment, msix_power, modFn_power]
@[simp] theorem answerWith_power (s : State) (f : Func) (mstatus : Byte) (head body : Bytes) :
    (answerWith s f mstatus head body).power = s.power := by
  unfold answerWith
  split <;> simp only [emit_power, setHslot_power, showFragment_power]
@[simp] theorem guardAnswer_power (s : State) (f : Func) (mstatus : Byte) (head : Bytes) :
    (guardAnswer s f mstatus head).power = s.power := by
  simp only [guardAnswer, answerWith_power]
@[simp] theorem retryAnswer_power (s : State) (f : Func) (head body : Bytes) : (retryAnswer s f head body).power = s.power := by
  unfold retryAnswer
  split <;> simp only [power_ite, ite_self, answerWith_power, guardAnswer_power]
@[simp] theorem requestDone_power (s : State) (f : Func) (k : Nat) : (requestDone s f k).power = s.power := by
  simp only [requestDone]
  split <;> simp only [retryAnswer_power, guardAnswer_power, hostEvent_power, modFn_power]
@[simp] theorem mbxTake_power (s : State) (f : Func) : (mbxTake s f).power = s.power := by
  simp only [mbxTake]
  repeat' split
  all_goals simp only [guardAnswer_power, setHslot_power, State.setFn_power, requestDone_power]
@[simp] theorem mbxGo_power (s0 : State) (f : Func) : (mbxGo s0 f).power = s0.power := by
  simp only [mbxGo, power_ite, ite_self, fragmentLook_power, State.setFn_power, mbxTake_power]
@[simp] theorem execMbxGo_keepsPower (fn : Func) (s : State) : KeepsPower s (execMbxGo fn s) :=
  whenBar_keepsPower s _ fun _ => mbxGo_power ..
@[simp] theorem mbxNext_power (s : State) (f : Func) : (mbxNext s f).power = s.power := by
  simp only [mbxNext]
  repeat' split
  all_goals simp only [State.setFn_power, modFn_power, dropSlot_power, showFragment_power]
@[simp] theorem execNext_keepsPower (fn : Func) (s : State) : KeepsPower s (execNext fn s) :=
  whenBar_keepsPower s _ fun _ => mbxNext_power ..
@[simp] theorem forget_power (s : State) (f : Func) : (forget s f).power = s.power := by
  simp only [forget]
  repeat' split
  all_goals rfl
@[simp] theorem discard_power (s : State) (f : Func) : (discard s f).power = s.power := by
  simp only [discard, hostEvent_power, modFn_power, dropSlot_power, forget_power]
@[simp] theorem execMbxAbort_keepsPower (fn : Func) (s : State) : KeepsPower s (execMbxAbort fn s) :=
  whenBar_keepsPower s _ fun u => by simp only [power_ite, ite_self, discard_power]
@[simp] theorem execMbxExpiry_keepsPower (fn : Func) (s : State) : KeepsPower s (execMbxExpiry fn s) :=
  whenRunning_keepsPower s fun u => by simp only [power_ite, ite_self, msix_power, modFn_power, discard_power]
@[simp] theorem respSend_power (s0 : State) (slot : BitVec 6) : (respSend s0 slot).power = s0.power := by
  simp only [respSend]
  split <;> simp only [power_ite, ite_self, modHost_power, setHslot_power, showFragment_power]
@[simp] theorem execHgPRespSend_keepsPower (slot : BitVec 6) (s : State) : KeepsPower s (execHgPRespSend slot s) :=
  whenCommanded_keepsPower s fun _ => respSend_power ..
@[simp] theorem execMailboxUnknownCode_keepsPower (fn : Func) (code : Byte) (s : State) : KeepsPower s (execMailboxUnknownCode fn code s) :=
  whenPilot_keepsPower s fun u => by
    split
    · rfl
    · split <;> rw [replyMs_power]
@[simp] theorem execUnitStatus_keepsPower (body : Bytes) (s : State) : KeepsPower s (execUnitStatus body s) :=
  whenPilot_keepsPower s fun u => by simp only [power_ite, ite_self, replyMs_power, reply_power]
@[simp] theorem execMsixMaskChange_keepsPower (fn : Func) (vector : Nat) (masked enable : Bool) (s : State) :
    KeepsPower s (execMsixMaskChange fn vector masked enable s) :=
  whenHost_keepsPower s fun u => by simp only [power_ite, ite_self, msixRelease_power, modFn_power]
@[simp] theorem execPriEnableChange_keepsPower (fn : Func) (enable : Bool) (s : State) : KeepsPower s (execPriEnableChange fn enable s) :=
  whenHost_keepsPower s fun u => by split <;> simp only [power_ite, ite_self, modFn_power]
@[simp] theorem execBusMasterSet_keepsPower (fn : Func) (s : State) : KeepsPower s (execBusMasterSet fn s) :=
  whenHost_keepsPower s fun u => by
    simp only [power_ite, ite_self, hostEvent_power, msixRelease_power, modHost_power, modFn_power]
@[simp] theorem abandonTrans_power (s : State) (fn : Nat) : (abandonTrans s fn).power = s.power := by
  simp only [abandonTrans, foldl_power, implies_true, reqQuarantine_power, modHost_power]
@[simp] theorem busMasterClear_power (s : State) (f : Func) : (busMasterClear s f).power = s.power := by
  unfold busMasterClear
  split <;> simp only [modFn_power, hostEvent_power, abandonTrans_power, masterCleared_power]
@[simp] theorem execBusMasterClear_keepsPower (fn : Func) (s : State) : KeepsPower s (execBusMasterClear fn s) :=
  whenHost_keepsPower s fun u => by simp only [power_ite, ite_self, busMasterClear_power]
@[simp] theorem dropTrans_power (s : State) (fn : Nat) : (dropTrans s fn).power = s.power := by
  simp only [dropTrans, foldl_emit_power, abandonTrans_power, modHost_power]
@[simp] theorem resetFn_power (s : State) (f : Func) : (resetFn s f).power = s.power := by
  simp only [resetFn, State.setFn_power, dropSlot_power, forget_power]
@[simp] theorem flrVf_power (s : State) (n : Nat) : (flrVf s n).power = s.power := by
  simp only [flrVf, hostEvent_power, abandonTrans_power, startRinse_power, resetFn_power, dropTrans_power]
@[simp] theorem resetMbx_power (s : State) (f : Func) : (resetMbx s f).power = s.power := by
  simp only [resetMbx, modFn_power, dropSlot_power, forget_power]
@[simp] theorem dropStaged_power (s : State) : (dropStaged s).power = s.power := by simp only [dropStaged]
@[simp] theorem vfChange_power (s : State) (enable : Bool) (num : Nat) : (vfChange s enable num).power = s.power := by
  simp only [vfChange, power_ite, msix_power, modHost_power, foldl_power, flrVf_power, implies_true, ite_self]
@[simp] theorem flr_power (s : State) (f : Func) : (flr s f).power = s.power := by
  unfold flr
  split <;> simp only [power_ite, ite_self, hostEvent_power, resetMbx_power, dropStaged_power, vfChange_power, flrVf_power]
@[simp] theorem execFlr_keepsPower (fn : Func) (s : State) : KeepsPower s (execFlr fn s) := whenHost_keepsPower s fun _ => flr_power ..
@[simp] theorem execVfEnableChange_keepsPower (enable : Bool) (numVfs : Nat) (s : State) :
    KeepsPower s (execVfEnableChange enable numVfs s) :=
  whenHost_keepsPower s fun u => by simp only [hostEvent_power, modHost_power, vfChange_power]
@[simp] theorem execConventionalReset_keepsPower (s : State) : KeepsPower s (execConventionalReset s) :=
  whenHost_keepsPower s fun u => by simp only [hostEvent_power, modHost_power, flr_power]
@[simp] theorem denyRange_power (s : State) (fn addr : Nat) : (denyRange s fn addr).power = s.power := by
  simp only [denyRange, wakeFn_power, modHost_power]
@[simp] theorem transCompletion_power (s : State) (fn tag : Nat) (c : TransCpl) : (transCompletion s fn tag c).power = s.power := by
  simp only [transCompletion]
  repeat' split
  all_goals simp only [lateCompletion_power, unexpected_power, reqDone_power, askTrans_power, failRange_power,
    hostError_power, denyRange_power, hgCount_power, wakeFn_power, modHost_power]
@[simp] theorem execTranslationCompletion_keepsPower (fn : Func) (tag : Nat) (c : TransCpl) (s : State) :
    KeepsPower s (execTranslationCompletion fn tag c s) :=
  whenHost_keepsPower s fun u => by simp only [implies_true, withTags_power, transCompletion_power]
@[simp] theorem invalidateReq_power (s : State) (f : Func) (itag base size : Nat) : (invalidateReq s f itag base size).power = s.power := by
  simp only [invalidateReq, power_ite, ite_self, aer_power, modHost_power]
@[simp] theorem execInvalidateRequest_keepsPower (fn : Func) (itag base size : Nat) (s : State) :
    KeepsPower s (execInvalidateRequest fn itag base size s) :=
  whenHost_keepsPower s fun u => by split <;> simp only [power_ite, ite_self, invalidateReq_power]
@[simp] theorem execInvalidateCompletion_keepsPower (fn : Func) (s : State) : KeepsPower s (execInvalidateCompletion fn s) :=
  whenHost_keepsPower s fun u => by split <;> simp only [power_ite, ite_self, emit_power, modHost_power]
@[simp] theorem dropPage_power (s : State) (p : PageReq) : (dropPage s p).power = s.power := by simp only [dropPage, modHost_power]
@[simp] theorem dropLacking_power (s : State) (fn range : Nat) : (dropLacking s fn range).power = s.power := by
  simp only [dropLacking, modHost_power]
@[simp] theorem prgResponse_power (s : State) (f : Func) (index : Nat) (r : PrgCode) : (prgResponse s f index r).power = s.power := by
  simp only [prgResponse]
  repeat' split
  all_goals simp only [aer_power, dropPage_power, wakeFn_power, dropLacking_power, failRange_power, modFn_power]
@[simp] theorem execPrgResponse_keepsPower (fn : Func) (index : Nat) (r : PrgCode) (s : State) :
    KeepsPower s (execPrgResponse fn index r s) :=
  whenHost_keepsPower s fun _ => prgResponse_power ..
@[simp] theorem execPageRequestTimeout_keepsPower (fn : Func) (index : Nat) (s : State) :
    KeepsPower s (execPageRequestTimeout fn index s) :=
  whenRunning_keepsPower s fun u => by split <;> simp only [power_ite, ite_self, failRange_power, modHost_power]
@[simp] theorem execPageRequestIndexRelease_keepsPower (fn : Func) (index : Nat) (s : State) :
    KeepsPower s (execPageRequestIndexRelease fn index s) :=
  whenRunning_keepsPower s fun u => by split <;> simp only [power_ite, ite_self, wakeFn_power, dropPage_power]

/-! ### Sessions of the host -/

@[simp] theorem prirdoReply_power (s : State) (vf : Nat) (m : Bytes) : (prirdoReply s vf m).power = s.power := by
  simp only [prirdoReply, reply_power]
@[simp] theorem helloAccept_power (s : State) (vf : Nat) (m : Bytes) (version : Nat) : (helloAccept s vf m version).power = s.power := by
  simp only [helloAccept, power_ite, ite_self, generateOp_power, keypairOp_power, drew_power, emptySlot_power, prirdoReply_power]
@[simp] theorem prirdoHello_power (s0 : State) (vf : Nat) (m : Bytes) : (prirdoHello s0 vf m).power = s0.power := by
  unfold prirdoHello
  dsimp only
  split
  · exact (helloAccept_power ..).trans (touchSlot_power ..)
  · exact touchSlot_power ..
  · exact (prirdoReply_power ..).trans (touchSlot_power ..)
@[simp] theorem prirdoCmd_power (vf : Nat) (s : State) (f : State → State) (hf : ∀ t, (f t).power = t.power) :
    (prirdoCmd vf s f).power = s.power := by
  simp only [prirdoCmd, power_ite, ite_self, replyMs_power, hf]
@[simp] theorem execHello_keepsPower (vf : Nat) (msg : Bytes) (s : State) : KeepsPower s (execHello vf msg s) :=
  whenPilot_keepsPower s fun u => by simp only [implies_true, prirdoCmd_power, prirdoHello_power]
@[simp] theorem endSession_power (s : State) (i : Nat) : (endSession s i).power = s.power := by simp only [endSession, emptySlot_power]
@[simp] theorem vaultRelease_power (s : State) (i vf : Nat) (transcript e : Bytes) :
    (vaultRelease s i vf transcript e).1.power = s.power := by
  simp only [vaultRelease, releaseOp_power]
@[simp] theorem releaseEntry_power (i vf : Nat) (x : Session) (acc : State × List (Option Byte)) (e : Bytes) :
    (releaseEntry i vf x acc e).1.power = acc.1.power := by
  simp only [releaseEntry]
  split
  · rfl
  split
  · rfl
  · split <;> exact (power_fst ‹_›).trans (vaultRelease_power ..)
theorem releaseEntries_power (i vf : Nat) (x : Session) (es : List Bytes) (acc : State × List (Option Byte)) :
    (es.foldl (releaseEntry i vf x) acc).1.power = acc.1.power := by
  induction es generalizing acc with
  | nil => rfl
  | cons e es ih => rw [List.foldl_cons, ih, releaseEntry_power]
@[simp] theorem releaseRun_power (s : State) (i vf : Nat) (x : Session) (m : Bytes) : (releaseRun s i vf x m).power = s.power := by
  simp only [releaseRun, power_ite, prirdoReply_power, drew_power, touchSlot_power, State.setBerth_power, ite_self, releaseEntries_power]
@[simp] theorem prirdoRelease_power (s : State) (vf : Nat) (m : Bytes) : (prirdoRelease s vf m).power = s.power := by
  simp only [prirdoRelease]
  repeat' split
  all_goals simp only [prirdoReply_power, endSession_power, releaseRun_power]
@[simp] theorem execPrirdoRelease_keepsPower (vf : Nat) (msg : Bytes) (s : State) : KeepsPower s (execPrirdoRelease vf msg s) :=
  whenPilot_keepsPower s fun u => by simp only [implies_true, prirdoCmd_power, prirdoRelease_power]
@[simp] theorem prirdoEnd_power (s : State) (vf : Nat) (m : Bytes) : (prirdoEnd s vf m).power = s.power := by
  simp only [prirdoEnd]
  repeat' split
  all_goals simp only [prirdoReply_power, endSession_power]
@[simp] theorem execPrirdoEnd_keepsPower (vf : Nat) (msg : Bytes) (s : State) : KeepsPower s (execPrirdoEnd vf msg s) :=
  whenPilot_keepsPower s fun u => by simp only [implies_true, prirdoCmd_power, prirdoEnd_power]
@[simp] theorem execPrirdoReservedType_keepsPower (vf : Nat) (msg : Bytes) (s : State) : KeepsPower s (execPrirdoReservedType vf msg s) :=
  whenPilot_keepsPower s fun u => by simp only [power_ite, ite_self, implies_true, prirdoCmd_power, prirdoReply_power]
@[simp] theorem execPrirdoSessionTimeout_keepsPower (slot : Nat) (s : State) : KeepsPower s (execPrirdoSessionTimeout slot s) :=
  whenPilot_keepsPower s fun u => by simp only [power_ite, ite_self, endSession_power]

/-! ### Restarts -/

@[simp] theorem strikeMailbox_power (s : State) (f : Func) : (strikeMailbox s f).power = s.power := by
  unfold strikeMailbox
  split <;> simp only [retryAnswer_power]
@[simp] theorem strike_power (s : State) : (strike s).power = s.power := by
  simp only [strike, foldl_power, implies_true, strikeMailbox_power, endSession_power]
@[simp] theorem mismatch_power (s : State) : (mismatch s).power = s.power := by
  unfold mismatch
  split <;> simp only [power_ite, ite_self, halt_power, firmwareHalt_power, strike_power]
@[simp] theorem execLockstepMismatch_keepsPower (s : State) : KeepsPower s (execLockstepMismatch s) :=
  whenRunning_keepsPower s fun _ => mismatch_power ..
@[simp] theorem rebroadcast_power (s : State) : (rebroadcast s).power = s.power := by
  simp only [rebroadcast, foldl_power, implies_true, sendCmd_power]
@[simp] theorem regate_power (s : State) : (regate s).power = s.power := by
  simp only [regate, power_ite, ite_self, foldl_power, implies_true, gateJob_power]
@[simp] theorem recloseLinks_power (s : State) : (recloseLinks s).power = s.power := by
  simp only [recloseLinks, power_ite, ite_self, foldl_power, implies_true, batchIfReady_power, closePilot_power, departures_power,
    startFormation_power]
@[simp] theorem raiseDue_power (s : State) : (raiseDue s).power = s.power := by
  simp only [raiseDue, foldl_power, implies_true, raiseLost_power]
@[simp] theorem takeWaiting_power (s : State) : (takeWaiting s).power = s.power := by
  simp only [takeWaiting, mgmtAct_power, finishWaiting_power, foldl_power, pilotTakes_power, wipeUnwiped_power, recloseLinks_power,
    regate_power, raiseDue_power, implies_true]
@[simp] theorem aqPop_power (s : State) : (aqPop s).power = s.power := by
  simp only [aqPop, power_ite, ite_self, foldl_power, implies_true, startRinse_power, popAlarm_power]
@[simp] theorem takeAlarms_power (s : State) : (takeAlarms s).power = s.power := by
  simp only [takeAlarms, foldl_power, implies_true, aqPop_power]
@[simp] theorem warmResume_power (s : State) (codeDigest : Bytes) : (warmResume s codeDigest).power = s.power := by
  simp only [warmResume, power_ite, ite_self, firmwareHalt_power, takeWaiting_power, takeAlarms_power, rebroadcast_power, record_power,
    showStat_power]
@[simp] theorem execWarmRestartGuardExpiry_keepsPower (s : State) : KeepsPower s (execWarmRestartGuardExpiry s) :=
  whenRunning_keepsPower s fun _ => rfl
@[simp] theorem pilotHalts_power (s : State) (c : Byte) : (pilotHalts s c).power = s.power := by
  unfold pilotHalts
  split <;> simp only [halt_power, pilotHalt_power]
@[simp] theorem execPilotHalt_keepsPower (code : Byte) (s : State) : KeepsPower s (execPilotHalt code s) :=
  whenRunning_keepsPower s fun _ => pilotHalts_power ..
@[simp] theorem islandRestart_power (s : State) (i : Island) : (islandRestart s i).power = s.power := by
  unfold islandRestart
  split <;> simp only [foldl_power, implies_true, alarm_power, sendSite_power]
@[simp] theorem execIslandRestart_keepsPower (isl : Island) (s : State) : KeepsPower s (execIslandRestart isl s) :=
  whenRunning_keepsPower s fun _ => islandRestart_power ..
@[simp] theorem pllStop_power (s : State) (i : Island) : (pllStop s i).power = s.power := by simp only [pllStop, State.setIsland_power]
@[simp] theorem standCores_power (s : State) : (standCores s).power = s.power := by simp only [standCores, power_ite, ite_self]
@[simp] theorem resumeCores_power (s : State) : (resumeCores s).power = s.power := by simp only [resumeCores, power_ite, ite_self]
@[simp] theorem pllLoss_power (s : State) (i : Island) (readable spareOk : Bool) : (pllLoss s i readable spareOk).power = s.power := by
  simp only [pllLoss]
  repeat' split
  all_goals simp only [pllStop_power, darnAt_power, arrayFault_power, engineFault_power, islandRestart_power,
    standCores_power]
@[simp] theorem execPllLockLoss_keepsPower (isl : Island) (s : State) (stateReadable spareOk : Bool) :
    KeepsPower s (execPllLockLoss isl s stateReadable spareOk) :=
  whenPress_keepsPower s fun _ => pllLoss_power ..
@[simp] theorem execVaultIslandRestart_keepsPower (s : State) (cutLevel : BitVec 3) : KeepsPower s (execVaultIslandRestart s cutLevel) :=
  whenRunning_keepsPower s fun u => by simp only [power_ite, ite_self, alarm_power, fuseCut_power]
@[simp] theorem execJrnAqPop_keepsPower (s : State) : KeepsPower s (execJrnAqPop s) :=
  whenCommanded_keepsPower s fun u => by simp only [power_ite, ite_self, aqPop_power, drainOne_power]

/-! ### The debug port -/

@[simp] theorem closeForDebug_power (s : State) : (closeForDebug s).power = s.power := by
  simp only [closeForDebug, foldl_power, implies_true, modLink_power, closeLink_power]
@[simp] theorem destroyForDebug_power (s : State) : (destroyForDebug s).power = s.power := by
  simp only [destroyForDebug, destroyAllNow_power, installRefused_power, closeForDebug_power]
@[simp] theorem grantMade_power (s : State) (mbox : Bool) (rights : BitVec 10) : (grantMade s mbox rights).power = s.power := by
  unfold grantMade
  split <;> simp only [drawNonce_power, note_power, mboxEnd_power]
@[simp] theorem requestRefused_power (s : State) (mbox : Bool) (code : Byte) : (requestRefused s mbox code).power = s.power := by
  simp only [requestRefused, power_ite, ite_self, drawNonce_power, note_power, mboxEnd_power]
@[simp] theorem grantRefused_power (s : State) (mbox : Bool) (code : Byte) : (grantRefused s mbox code).power = s.power := by
  simp only [grantRefused, requestRefused_power]
@[simp] theorem invasiveBegin_power (s : State) (mbox : Bool) (rights : BitVec 10) : (invasiveBegin s mbox rights).power = s.power := by
  simp only [invasiveBegin, power_ite, ite_self, foldl_power, implies_true, startRinse_power, destroyForDebug_power]
@[simp] theorem grantGo_power (s : State) (mbox : Bool) (rights : BitVec 10) : (grantGo s mbox rights).power = s.power := by
  simp only [grantGo, power_ite, ite_self, grantRefused_power, grantMade_power, invasiveBegin_power]
@[simp] theorem execGrant_keepsPower (rights : BitVec 10) (s : State) : KeepsPower s (execGrant rights s) :=
  whenPressCommanded_keepsPower s fun _ => grantGo_power ..
@[simp] theorem invasiveComplete_power (s : State) : (invasiveComplete s).power = s.power := by
  unfold invasiveComplete
  split <;> simp only [power_ite, ite_self, grantMade_power, destroyForDebug_power, grantRefused_power]
@[simp] theorem execInvasiveGrantComplete_keepsPower (s : State) : KeepsPower s (execInvasiveGrantComplete s) :=
  whenPressCommanded_keepsPower s fun _ => invasiveComplete_power ..
@[simp] theorem serveDebug_power (s : State) : (serveDebug s).power = s.power := by
  simp only [serveDebug]
  repeat' split
  all_goals simp only [mboxEnd_power, grantRefused_power, grantGo_power, requestRefused_power]
@[simp] theorem execDebug_keepsPower (s : State) : KeepsPower s (execDebug s) :=
  whenPress_keepsPower s fun u => by simp only [power_ite, ite_self, mboxSubmit_power, serveDebug_power]
@[simp] theorem takeMbox_power (s : State) : (takeMbox s).power = s.power := by
  simp only [takeMbox]
  repeat' split
  all_goals simp only [serveTransition_power, serveDebug_power, serveResumeWipe_power, mboxEnd_power]
@[simp] theorem mboxCommand_power (s : State) (req : BitVec 4) : (mboxCommand s req).power = s.power := by
  simp only [mboxCommand, power_ite, ite_self, mboxEnd_power, mboxSubmit_power, takeMbox_power]
@[simp] theorem execRomPolicy_keepsPower (s : State) : KeepsPower s (execRomPolicy s) :=
  whenRunning_keepsPower s fun u => by simp only [takeMbox_power, romPolicy_power]
@[simp] theorem execEntropyStartupDone_keepsPower (pass : Bool) (s : State) : KeepsPower s (execEntropyStartupDone pass s) :=
  whenRunning_keepsPower s fun u => by simp only [takeMbox_power, entropyStartup_power]
@[simp] theorem execFlashSfdpDone_keepsPower (answers octal : Bool) (sectors : Nat) (s : State) :
    KeepsPower s (execFlashSfdpDone answers octal sectors s) :=
  whenRunning_keepsPower s fun u => by simp only [takeMbox_power, sfdpDone_power]
@[simp] theorem execFirmwareEntry_keepsPower (s : State) : KeepsPower s (execFirmwareEntry s) :=
  whenRunning_keepsPower s fun u => by simp only [takeMbox_power, firmwareEntry_power]
@[simp] theorem execWarmRestartResume_keepsPower (codeDigest : Bytes) (s : State) : KeepsPower s (execWarmRestartResume codeDigest s) :=
  whenRunning_keepsPower s fun u => by simp only [takeMbox_power, warmResume_power]

/-! ### Reads of a BAR -/

@[simp] theorem barReadGo_power (s : State) (f : Func) (o len : Nat) : (barReadGo s f o len).power = s.power := by
  simp only [barReadGo, power_ite, ite_self, emit_power, fragmentLook_power]

/-! ### Register writes -/

@[simp] theorem boardWrite_power (s : State) (o : Nat) (v : Word) : (boardWrite s o v).power = s.power := by
  simp only [boardWrite]
  repeat' split
  all_goals simp only [State.setSite_power]
@[simp] theorem fuseWrite_power (s : State) (o : Nat) (v : Word) : (fuseWrite s o v).power = s.power := by
  simp only [fuseWrite]
  repeat' split
  all_goals rfl
@[simp] theorem lcWrite_power (s : State) (o : Nat) (v : Word) : (lcWrite s o v).power = s.power := by
  simp only [lcWrite, power_ite, ite_self, mboxCommand_power]
@[simp] theorem vaultWrite_power (s : State) (o : Nat) (v : Word) : (vaultWrite s o v).power = s.power := by
  simp only [vaultWrite, power_ite, ite_self]
@[simp] theorem cryptoWrite_power (s : State) (o : Nat) (v : Word) : (cryptoWrite s o v).power = s.power := by
  simp only [cryptoWrite, power_ite, ite_self]
@[simp] theorem jrnWrite_power (s : State) (o : Nat) (v : Word) : (jrnWrite s o v).power = s.power := by
  simp only [jrnWrite, power_ite, ite_self]
@[simp] theorem piersWrite_power (s : State) (ns : List Nat) (o : Nat) (v : Word) : (piersWrite s ns o v).power = s.power := by
  simp only [piersWrite, foldl_power, implies_true, modPier_power]
@[simp] theorem gwsWrite_power (s : State) (ns : List Nat) (o : Nat) (v : Word) : (gwsWrite s ns o v).power = s.power := by
  simp only [gwsWrite, foldl_power, implies_true, modLink_power]
@[simp] theorem samplerWrite_power (s : State) (o : Nat) (v : Word) : (samplerWrite s o v).power = s.power := by
  simp only [samplerWrite, power_ite, ite_self]
@[simp] theorem ferryWrite_power (s : State) (o : Nat) (v : Word) : (ferryWrite s o v).power = s.power := by
  unfold ferryWrite
  split <;> simp only [power_ite, ite_self, modFerry_power, modCh_power]
@[simp] theorem hostWrite_power (s : State) (o : Nat) (v : Word) : (hostWrite s o v).power = s.power := by
  simp only [hostWrite]
  repeat' split
  all_goals simp only [modHost_power, setHslot_power]
@[simp] theorem cringWrite_power (s : State) (o : Nat) (v : Word) : (cringWrite s o v).power = s.power := by
  simp only [cringWrite, power_ite, ite_self]
@[simp] theorem sramWrite_power (s : State) (i : Nat) (v : Word) : (sramWrite s i v).power = s.power := by simp only [sramWrite]
@[simp] theorem execPilotAccessFault_keepsPower (a : PilotAccess) (s : State) : KeepsPower s (execPilotAccessFault a s) :=
  whenRunning_keepsPower s fun u => by simp only [power_ite, ite_self]
@[simp] theorem msixWrite_power (s : State) (f : Func) (entries o : Nat) (v : Word) : (msixWrite s f entries o v).power = s.power := by
  unfold msixWrite
  split <;> simp only [power_ite, ite_self, modFn_power]
@[simp] theorem mbxWrite_power (s : State) (f : Func) (o : Nat) (v : Word) : (mbxWrite s f o v).power = s.power := by
  simp only [mbxWrite, power_ite, ite_self, modFn_power]
@[simp] theorem barPut_power (s : State) (f : Func) (o : Nat) (v : Word) : (barPut s f o v).power = s.power := by
  simp only [barPut]
  repeat' split
  all_goals simp only [mbxWrite_power, chCommand_power, modCh_power, implies_true, setDeclErr_power, modBp_power, State.setBerth_power,
    msixWrite_power]
@[simp] theorem barWrite_power (s : State) (f : Func) (o : Nat) (v : Word) : (barWrite s f o v).power = s.power := by
  simp only [barWrite, barOpen_power, power_ite, aer_power, barPut_power, ite_self, implies_true]
@[simp] theorem barWritePair_power (s : State) (f : Func) (o : Nat) (low high : Word) : (barWritePair s f o low high).power = s.power := by
  simp only [barWritePair, barOpen_power, power_ite, aer_power, barPut_power, ite_self, implies_true]
@[simp] theorem barWriteBytes_power (s : State) (f : Func) (o : Nat) (data : Bytes) (en : BitVec 64) :
    (barWriteBytes s f o data en).power = s.power := by
  simp only [barWriteBytes, barOpen_power, power_ite, aer_power, modFn_power, ite_self, implies_true]
@[simp] theorem configWrite_power (s : State) (f : Func) (o : Nat) (v : Word) : (configWrite s f o v).power = s.power := by
  simp only [configWrite]
  repeat' split
  all_goals simp only [modFn_power]
@[simp] theorem jtagWrite_power (s : State) (a : Nat) (v : Word) : (jtagWrite s a v).power = s.power := by
  simp only [jtagWrite, power_ite, ite_self, lcWrite_power]
@[simp] theorem after_power (s : State) {f : State → Out} (h : KeepsPower s (f s)) : (after s f).power = s.power := by
  obtain ⟨t, ht, same⟩ := h
  rw [after, ht, same]
@[simp] theorem afterIf_power (s : State) (b : Bool) {f : State → Out} (h : KeepsPower s (f s)) : (afterIf s b f).power = s.power := by
  rw [afterIf, power_ite, after_power s h, ite_self]
@[simp] theorem fuseAct_power (s : State) (v : Word) : (fuseAct s v).power = s.power := by
  simp only [fuseAct]
  split <;> simp only [after_power, execProgram_keepsPower, execIncrement_keepsPower, execFinalise_keepsPower, execLockWrite_keepsPower,
    execLockRead_keepsPower, execResense_keepsPower, execResenseAll_keepsPower, execWipe_keepsPower, execSeal_keepsPower,
    execFuseReservedOp_keepsPower]
@[simp] theorem lcAct_power (s : State) (o : Nat) (v : Word) : (lcAct s o v).power = s.power := by
  simp only [lcAct, power_ite, afterIf_power, execGo_keepsPower, execGrant_keepsPower, execEndRequest_keepsPower, ite_self]
@[simp] theorem vaultAct_power (s : State) (v : Word) : (vaultAct s v).power = s.power := by
  simp only [vaultAct]
  split
  case h_14 =>
    split <;> simp only [after_power, execMaintEncap_keepsPower, execMaintDecap_keepsPower, execJobDraw_keepsPower,
      execJobEncap_keepsPower, execJobDecap_keepsPower, execPromote_keepsPower, execJobDrop_keepsPower, execMaintDraw_keepsPower,
      execVaultReservedOp_keepsPower]
  all_goals simp only [after_power, execGenerate_keepsPower, execWrite_keepsPower, execRead_keepsPower, execDerive_keepsPower,
    execDestroy_keepsPower, execAttr_keepsPower, execBerthOpen_keepsPower, execRotate_keepsPower, execRelease_keepsPower,
    execWrap_keepsPower, execUnwrap_keepsPower, execKeypair_keepsPower, execDestroyAll_keepsPower, execVaultReservedOp_keepsPower]
@[simp] theorem cryptoAct_power (s : State) (v : Word) : (cryptoAct s v).power = s.power := by
  simp only [cryptoAct]
  split <;> simp only [after_power, execSha384Op_keepsPower, execSha3Op_keepsPower, execHmacOp_keepsPower, execAesGcmEncrypt_keepsPower,
    execAesGcmDecrypt_keepsPower, execHybridSign_keepsPower, execHybridVerify_keepsPower, execDrbgRead_keepsPower,
    execCryptoReservedOp_keepsPower]
@[simp] theorem boardAct_power (s : State) (o : Nat) (v : Word) : (boardAct s o v).power = s.power := by
  simp only [boardAct, power_ite, mgmtRelease_power, afterIf_power, execOutGo_keepsPower, execInFullClear_keepsPower,
    execLoadEn_keepsPower, ite_self]
  split
  · rfl
  · split <;> simp only [afterIf_power, execAbort_keepsPower, execSend_keepsPower, execRxReadyClear_keepsPower]
@[simp] theorem pierAct_power (s : State) (t : PierTarget) (o : Nat) (v : Word) : (pierAct s t o v).power = s.power := by
  simp only [pierAct, power_ite, foldl_power, afterIf_power, execPierPark_keepsPower, execPierCommitGo_keepsPower,
    execPierZeroUninit_keepsPower, execPierZeroGo_keepsPower, implies_true, ite_self]
@[simp] theorem gwAct_power (s : State) (t : GwTarget) (o : Nat) (v : Word) : (gwAct s t o v).power = s.power := by
  simp only [gwAct, power_ite, foldl_power, afterIf_power, execGwPark_keepsPower, execClose_keepsPower, execGwCommitGo_keepsPower,
    execGwCfRxFree_keepsPower, execGwCfSend_keepsPower, implies_true, ite_self]
@[simp] theorem ferryAct_power (s : State) (o : Nat) (v : Word) : (ferryAct s o v).power = s.power := by
  rw [ferryAct, power_ite, afterIf_power s _ (execFerryCommit_keepsPower _ s)]
  split
  · rfl
  · split <;> simp only [afterIf_power, execFerryPchAbort_keepsPower, execFerryPchGo_keepsPower]
@[simp] theorem debugRun_power (s : State) (act : DebugAct) : (debugRun s act).power = s.power := by
  simp only [debugRun]
  repeat' split
  all_goals simp only [standCores_power, resumeCores_power, emit_power]

/-! ## What writes the power controller

The functions left out above: reset loads a power controller with every domain on, `domainOn` sets a bit, and `domainOff` clears
one that `execPwrDomainOff` has found to be none of 0, 1 and 19. -/

theorem alwaysOn_of_domOn {s t : State} (h : AlwaysOn s) (same : t.power.domOn = s.power.domOn) : AlwaysOn t := by
  unfold AlwaysOn
  rw [same]
  exact h
theorem alwaysOn_of_power {s t : State} (h : AlwaysOn s) (same : t.power = s.power) : AlwaysOn t :=
  alwaysOn_of_domOn h (congrArg Power.domOn same)
theorem next_ite_alwaysOn {s t : State} (c : Prop) [Decidable c] (hs : AlwaysOn s) (ht : AlwaysOn t) :
    CompletesWith (.next (if c then t else s)) AlwaysOn :=
  ⟨_, rfl, by split <;> assumption⟩
theorem KeepsPower.alwaysOn {s : State} {o : Out} (h : KeepsPower s o) (on : AlwaysOn s) : CompletesWith o AlwaysOn := by
  obtain ⟨t, ht, same⟩ := h
  exact ⟨t, ht, alwaysOn_of_power on same⟩
theorem after_alwaysOn {s : State} {f : State → Out} (h : CompletesWith (f s) AlwaysOn) : AlwaysOn (after s f) := by
  obtain ⟨t, ht, on⟩ := h
  rwa [after, ht]

/-! ### Reset and package power -/

theorem afterReset_power (s : State) (cut : BitVec 3) : (afterReset s cut).power = powerReset := rfl
theorem afterReset_alwaysOn (s : State) (cut : BitVec 3) : AlwaysOn (afterReset s cut) := by
  unfold AlwaysOn
  rw [afterReset_power]
  decide

/-! ### The power controller -/

theorem domainOn_domOn (s : State) (pd : Nat) : (domainOn s pd).power.domOn = s.power.domOn ||| (1#20 <<< pd) := by
  rw [domainOn, domainFresh_power, foldl_power _ fun t ix => State.setIsland_power ..]
theorem domainOn_alwaysOn {s : State} (h : AlwaysOn s) (pd : Nat) : AlwaysOn (domainOn s pd) := by
  obtain ⟨h0, h1, h19⟩ := h
  simp only [AlwaysOn, domainOn_domOn, BitVec.getLsbD_or, h0, h1, h19, Bool.true_or, and_self]
theorem domainOff_domOn (s : State) (pd : Nat) : (domainOff s pd).power.domOn = s.power.domOn &&& ~~~(1#20 <<< pd) := by
  simp only [domainOff, power_ite, markSaturated_power, checkCommit_power, foldl_power, islandDark_power, implies_true, ite_self,
    groupDark_power, closeGroup_power, requeueGroup_power]
theorem getLsbD_switchedOff (x : BitVec 20) {pd k : Nat} (hk : k < 20) (other : pd ≠ k) :
    (x &&& ~~~(1#20 <<< pd)).getLsbD k = x.getLsbD k := by
  have clear : (1#20 <<< pd).getLsbD k = false := by
    rw [← BitVec.twoPow_eq, BitVec.getLsbD_twoPow]
    simp only [other, decide_false, Bool.and_false]
  simp only [BitVec.getLsbD_and, BitVec.getLsbD_not, clear, hk, decide_true, Bool.not_false, Bool.and_true]
theorem domainOff_alwaysOn {s : State} (h : AlwaysOn s) {pd : Nat} (other : alwaysOn pd = false) : AlwaysOn (domainOff s pd) := by
  simp only [alwaysOn, Bool.or_eq_false_iff, beq_eq_false_iff_ne, and_assoc] at other
  obtain ⟨n0, n1, n19⟩ := other
  simp only [AlwaysOn, domainOff_domOn]
  rwa [getLsbD_switchedOff _ (by decide) n0, getLsbD_switchedOff _ (by decide) n1, getLsbD_switchedOff _ (by decide) n19]
theorem refuseDomain_domOn (s : State) (pd : Nat) : (refuseDomain s pd).power.domOn = s.power.domOn := rfl
theorem powerWrite_domOn (s : State) (o : Nat) (v : Word) : (powerWrite s o v).power.domOn = s.power.domOn := by
  unfold powerWrite
  split <;> rfl
theorem domainDone_domOn (s : State) (pd : Nat) : (domainDone s pd).power.domOn = s.power.domOn := by
  simp only [domainDone]
  split
  · rfl
  · simp only [power_ite, restage_power, foldl_power, releasePark_power, failTested_power, implies_true, ite_self]

theorem execPwrDomainOn_alwaysOn (pd : Nat) {s : State} (h : AlwaysOn s) : CompletesWith (execPwrDomainOn pd s) AlwaysOn :=
  next_ite_alwaysOn _ h (by
    dsimp only
    split
    · exact h
    · exact domainOn_alwaysOn h pd)
theorem execPwrDomainOff_alwaysOn (pd : Nat) {s : State} (h : AlwaysOn s) : CompletesWith (execPwrDomainOff pd s) AlwaysOn := by
  have absorbed : AlwaysOn (absorb s) := alwaysOn_of_power h (absorb_power s)
  have refused : AlwaysOn (refuseDomain (absorb s) pd) := alwaysOn_of_domOn absorbed (refuseDomain_domOn _ pd)
  refine next_ite_alwaysOn _ h ?_
  dsimp only
  split
  · exact absorbed
  split
  · exact refused
  next other =>
    split
    · exact absorbed
    split
    · exact domainOff_alwaysOn absorbed (Bool.eq_false_iff.mpr other)
    · exact refused
theorem execDomainPowerUpDone_alwaysOn (pd : Nat) {s : State} (h : AlwaysOn s) :
    CompletesWith (execDomainPowerUpDone pd s) AlwaysOn :=
  next_ite_alwaysOn _ h (alwaysOn_of_domOn h (domainDone_domOn s pd))

/-! ### Register writes: a store of the Pilot, and the debug port, which also starts what a write commands -/

theorem blockWrite_domOn (s : State) (b : Block) (o : Nat) (v : Word) : (blockWrite s b o v).power.domOn = s.power.domOn := by
  cases b with
  | power => exact powerWrite_domOn s o v
  | _ =>
    simp only [blockWrite, power_ite, State.setPgroup_power, State.setGgroup_power, modArray_power, vaultWrite_power, fuseWrite_power,
      lcWrite_power, cryptoWrite_power, jrnWrite_power, piersWrite_power, gwsWrite_power, samplerWrite_power, ferryWrite_power,
      hostWrite_power, boardWrite_power, cringWrite_power, ite_self]
theorem pilotWrite_domOn (s : State) (a : Nat) (v : Word) : (pilotWrite s a v).power.domOn = s.power.domOn := by
  unfold pilotWrite
  split
  · rfl
  · split
    · rw [sramWrite_power]
    · exact blockWrite_domOn ..
    · rfl
theorem pilotStore_domOn (s : State) (a size : Nat) (v : Word) : (pilotStore s a size v).power.domOn = s.power.domOn := by
  simp only [pilotStore]
  split
  · rfl
  split
  · exact pilotWrite_domOn s a v
  · split <;> rfl
theorem powerAct_alwaysOn {s : State} (h : AlwaysOn s) (v : Word) : AlwaysOn (powerAct s v) := by
  refine List.foldlRecOn _ _ h fun t on pd _ => after_alwaysOn ?_
  cases v.getLsbD pd
  · exact execPwrDomainOff_alwaysOn pd on
  · exact execPwrDomainOn_alwaysOn pd on
theorem blockAct_alwaysOn {s : State} (h : AlwaysOn s) (b : Block) (o : Nat) (v : Word) : AlwaysOn (blockAct s b o v) := by
  cases b with
  | power =>
    simp only [blockAct]
    split
    · exact powerAct_alwaysOn h v
    · exact h
  | _ =>
    refine alwaysOn_of_power h ?_
    simp only [blockAct, power_ite, vaultAct_power, fuseAct_power, lcAct_power, cryptoAct_power, pierAct_power, gwAct_power,
      ferryAct_power, boardAct_power, afterIf_power, execFuseTackCommit_keepsPower, execJrnAqPop_keepsPower, execRing_keepsPower,
      execHostPost_keepsPower, execPressPark_keepsPower, execHgPPop_keepsPower, execHgPRespSend_keepsPower, execReady_keepsPower,
      execForward_keepsPower, execCringSend_keepsPower, execCringRxFree_keepsPower, ite_self]
theorem debugWrite_alwaysOn {s : State} (h : AlwaysOn s) (a : Nat) (v : Word) : AlwaysOn (debugWrite s a v) := by
  have written : AlwaysOn (pilotWrite s a v) := alwaysOn_of_domOn h (pilotWrite_domOn s a v)
  unfold debugWrite
  split
  · split
    · exact blockAct_alwaysOn written ..
    · exact written
  · exact h
theorem debugAccess_alwaysOn {s : State} (h : AlwaysOn s) (act : DebugAct) (a : Nat) (v : Word) : AlwaysOn (debugAccess s act a v) := by
  unfold debugAccess
  split
  · exact h
  · split
    · exact debugWrite_alwaysOn h a v
    · exact alwaysOn_of_power h (emit_power ..)
    · exact alwaysOn_of_power h (debugRun_power ..)
theorem execDebugPortAccess_alwaysOn (act : DebugAct) (addr data : Word) {s : State} (h : AlwaysOn s) :
    CompletesWith (execDebugPortAccess act addr data s) AlwaysOn :=
  next_ite_alwaysOn _ h (debugAccess_alwaysOn h ..)
theorem execRegisterWrite_alwaysOn (p : RegPort) (addr : Nat) (value : Word) {s : State} (h : AlwaysOn s) :
    CompletesWith (execRegisterWrite p addr value s) AlwaysOn := by
  cases p with
  | pilot | pilotNarrow => exact next_ite_alwaysOn _ h (alwaysOn_of_domOn h (pilotStore_domOn ..))
  | jtag => exact (whenChained_keepsPower s fun _ => jtagWrite_power ..).alwaysOn h
  | bar => exact (whenHost_keepsPower s fun _ => barWrite_power ..).alwaysOn h
  | barPair => exact (whenHost_keepsPower s fun _ => barWritePair_power ..).alwaysOn h
  | barBytes => exact (whenHost_keepsPower s fun _ => barWriteBytes_power ..).alwaysOn h
  | barRead => exact (whenHost_keepsPower s fun _ => barReadGo_power ..).alwaysOn h
  | config => exact (whenHost_keepsPower s fun _ => configWrite_power ..).alwaysOn h
  | configRead =>
    dsimp only [execRegisterWrite]
    refine KeepsPower.alwaysOn (whenHost_keepsPower s fun t => ?_) h
    rw [power_ite, emit_power, ite_self]

/-! ### Every command, and the step -/

/-- The commands that may write the power controller. -/
def writesPower : Instr → Bool
  | .mbPorstNAssert _ | .packagePowerFail _ | .pwrDomainOn _ | .pwrDomainOff _ | .domainPowerUpDone _ => true
  | .debugPortAccess .. | .registerWrite .. => true
  | _ => false
theorem exec_keepsPower {i : Instr} (h : writesPower i = false) (s : State) : KeepsPower s (exec i s) := by
  cases i with
  | mbPorstNAssert | packagePowerFail | pwrDomainOn | pwrDomainOff | domainPowerUpDone | debugPortAccess | registerWrite => cases h
  | _ => simp [exec]
theorem exec_alwaysOn (i : Instr) {s : State} (h : AlwaysOn s) : CompletesWith (exec i s) AlwaysOn := by
  cases i with
  | mbPorstNAssert cut | packagePowerFail cut => exact ⟨_, rfl, afterReset_alwaysOn s cut⟩
  | pwrDomainOn pd => exact execPwrDomainOn_alwaysOn pd h
  | pwrDomainOff pd => exact execPwrDomainOff_alwaysOn pd h
  | domainPowerUpDone pd => exact execDomainPowerUpDone_alwaysOn pd h
  | debugPortAccess act addr data => exact execDebugPortAccess_alwaysOn act addr data h
  | registerWrite p addr value => exact execRegisterWrite_alwaysOn p addr value h
  | _ => exact (exec_keepsPower rfl s).alwaysOn h
/-- Settles O59: each command keeps the three domains on (`exec_alwaysOn`), and a step runs one command or none. -/
theorem alwaysOnDomains : Obligations.AlwaysOnDomains := by
  intro s t h hstep
  unfold step at hstep
  split at hstep
  · cases hstep
    exact h
  next c rest _ =>
    obtain ⟨u, hu, on⟩ := exec_alwaysOn c (s := { s with pending := rest }) (alwaysOn_of_power h rfl)
    cases hu.symm.trans hstep
    exact on
end Sys2Proof.Machine
end

section
/-! The handshakes of a Pier's lane (10, 01): a COMMIT, a fill and an invalidation reach it, and a broadcast runs until its last
acknowledgement. First a rule for each operation on the Piers, the channels and the broadcasts, then the commands. -/

namespace Sys2Proof.Machine

/-! ### The key cache (R345-R348) -/

@[simp] theorem keyEntry_keyInsert_self (x : PierSt) (b : Nat) (f : Option KeyFill) : keyEntry (keyInsert x b f) b = some f := by
  simp [keyEntry, keyInsert]
/-- What an invalidation leaves of the cache: the entries of the other berths. -/
theorem keyEntry_without (x : PierSt) (b c : Nat) :
    keyEntry { x with keys := x.keys.filter (fun e => !(e.1 == b)) } c = if c = b then none else keyEntry x c := by
  simp only [keyEntry, List.find?_filter]
  split
  · next hc => simp [hc]
  · next hc =>
    congr 2
    funext e
    by_cases he : e.1 = c <;> simp [he, hc]
theorem retryMisses_setPier_none (s : State) (n : Nat) (x : PierSt) (h : x.missQ = []) :
    retryMisses (s.setPier n x) n = s.setPier n x := by
  have same : { x with missQ := [] } = x := by rw [← h]
  simp only [retryMisses, modPier, State.setPier_pier, State.setPier_setPier, h, List.foldl_nil, same]
theorem parkDrained_unordered (s : State) (n : Nat) (h : (s.pier n).park = false) : parkDrained s n = s := by
  simp [parkDrained, h]
/-- With no line waiting and no order to park, a fill only enters the cache. -/
theorem pierFill_idle (s : State) (n b : Nat) (f : KeyFill) (hmiss : (s.pier n).missQ = []) (hpark : (s.pier n).park = false) :
    pierFill s n b (some f) = s.setPier n (keyInsert (s.pier n) b (some f)) := by
  let x := keyInsert (s.pier n) b (some f)
  have hp : ((s.setPier n x).pier n).park = false := by
    rw [State.setPier_pier]
    exact hpark
  exact (congrArg (parkDrained · n) (retryMisses_setPier_none s n x hmiss)).trans (parkDrained_unordered _ n hp)
/-- With nothing pinned, an invalidation drops entries and asks for none again. -/
theorem pierInvalidate_unpinned (s : State) (n : Nat) (which : Nat → Bool) (h : pinned (s.pier n) = []) :
    pierInvalidate s n which = s.setPier n { s.pier n with keys := (s.pier n).keys.filter (fun e => !which e.1) } := by
  simp [pierInvalidate, h]

/-! ### COMMIT at a Pier (R343, R344) -/

theorem pierCommit_new (s : State) (n : Nat) (seq : BitVec 16) (h : (s.pier n).seqSeen = false) :
    pierCommit s n seq = s.setPier n (applyStaged (s.pier n) n seq) := by
  simp [pierCommit, h]
theorem pierCommit_again (s : State) (n : Nat) (seq : BitVec 16) (hseen : (s.pier n).seqSeen = true) (hlast : (s.pier n).lastSeq = seq)
    (hdrain : (s.pier n).drain = []) : pierCommit s n seq = pierAck s n seq := by
  simp [pierCommit, hseen, hlast, hdrain]
/-- An acknowledgement changes the Pier's group and the list of acknowledgements alone. -/
theorem pierAck_frame (s : State) (n : Nat) (seq : BitVec 16) :
    { pierAck s n seq with pgroups := s.pgroups, lanes := { (pierAck s n seq).lanes with acks := s.lanes.acks } } = s := by
  unfold pierAck
  dsimp only
  split <;> rfl
theorem mem_pierAck_acks (s : State) (n : Nat) (seq : BitVec 16) : (n, seq) ∈ (pierAck s n seq).lanes.acks := by
  simp [pierAck]

/-! ### What reaches a lane (R42) -/

theorem takeCmd_commit_pier (s : State) (n : Nat) (seq : BitVec 16) (rest : List LaneCmd) (hn : n < 154)
    (h : tget [] s.lanes.cmds n = .commit seq :: rest) :
    takeCmd s n = pierCommit { s with lanes := { s.lanes with cmds := tset s.lanes.cmds n rest } } n seq := by
  simp [takeCmd, h, takeCommit, hn]
/-- A Pier that holds keys and is under no test takes the command that waits for it. -/
theorem exec_laneCommandAccept_pier (s : State) (n : Nat) (hacc : accepts s = true) (hkeys : holdsKeys s n = true)
    (htest : (s.island (.pier n)).service ≠ .spotTest) : exec (.laneCommandAccept (.pier n)) s = .next (takeCmd s n) := by
  have htest' : (tget islandInit s.isl n).service ≠ .spotTest := htest
  simp [exec, execLaneCommandAccept, hacc, islandIx, hkeys, htest']
/-- The vault's channel of an island left with these messages. -/
def withChannel (s : State) (ix : Nat) (ms : List LaneMsg) : State :=
  { s with vault := { s.vault with channels := tset s.vault.channels ix ms } }
@[simp] theorem withChannel_pier (s : State) (ix : Nat) (ms : List LaneMsg) (n : Nat) : (withChannel s ix ms).pier n = s.pier n := rfl
@[simp] theorem withChannel_channels (s : State) (ix : Nat) (ms : List LaneMsg) :
    tget [] (withChannel s ix ms).vault.channels ix = ms := tget_tset_self [] ix ms _
theorem channelHead_cons (s : State) (ix : Nat) (m : LaneMsg) (rest : List LaneMsg) (h : tget [] s.vault.channels ix = m :: rest) :
    channelHead s ix = some (m, withChannel s ix rest) := by
  simp [channelHead, h, withChannel]
theorem cacheUp_of_holdsKeys {s : State} {ix : Nat} (h : holdsKeys s ix = true) : cacheUp s ix = true := by
  simp [cacheUp, h]
/-- A Pier with no command of Pilot's waiting takes the fill at the head of its channel. -/
theorem exec_keyFillArrive_pier (s : State) (n b : Nat) (f : Option KeyFill) (rest : List LaneMsg) (hacc : accepts s = true)
    (hn : n < 154) (hkeys : holdsKeys s n = true) (hcmds : tget [] s.lanes.cmds n = [])
    (hch : tget [] s.vault.channels n = .fill b f :: rest) : exec (.keyFillArrive (.pier n)) s =
      .next (pierFill (withChannel s n rest) n b f) := by
  simp [exec, execKeyFillArrive, hacc, islandIx, channelHead_cons s n _ _ hch, isFill, cacheUp_of_holdsKeys hkeys, hcmds,
    takeLaneMsg, takeFill, hn]
/-- An island's acknowledgement on its way to the vault. -/
def withVaultAck (s : State) (ix : Nat) : State := { s with vault := { s.vault with acks := s.vault.acks ++ [ix] } }
/-- A Pier takes the invalidation at the head of its channel, and acknowledges it. -/
theorem exec_invalidation_pier (s : State) (n b : Nat) (e : Word) (rest : List LaneMsg) (hacc : accepts s = true) (hn : n < 154)
    (hkeys : holdsKeys s n = true) (hch : tget [] s.vault.channels n = .invalidate b e :: rest) :
    exec (.invalidation (.pier n)) s = .next (withVaultAck (pierInvalidate (withChannel s n rest) n (· == b)) n) := by
  simp [exec, execInvalidation, hacc, islandIx, channelHead_cons s n _ _ hch, isFill, cacheUp_of_holdsKeys hkeys,
    takeLaneMsg, takeInvalidation, hn, withVaultAck]

/-! ### A broadcast goes out (R28, R134) -/

/-- Staging changes the Piers alone. -/
theorem stageAll_frame (s : State) (b : Nat) (t1 t2 : List Window) (codes : List Nat) :
    { stageAll s b t1 t2 codes with piers := s.piers } = s :=
  List.foldlRecOn (motive := fun t : State => { t with piers := s.piers } = s) _ _ rfl (fun _ h _ _ => h)
theorem stageFor_frame (s : State) (k : BroadcastKind) : { stageFor s k with piers := s.piers } = s := by
  cases k with
  | tables b => exact stageAll_frame ..
  | gate b => exact stageAll_frame ..
@[simp] theorem stageFor_lanes (s : State) (k : BroadcastKind) : (stageFor s k).lanes = s.lanes :=
  (congrArg State.lanes (stageFor_frame s k) :)
@[simp] theorem stageFor_everyLane (s : State) (k : BroadcastKind) : everyLane (stageFor s k) = everyLane s :=
  (congrArg everyLane (stageFor_frame s k) :)
/-- Where it reaches a lane, a broadcast sends the next SEQ and waits for every acknowledgement. -/
theorem broadcastThen_reaching (s : State) (k : BroadcastKind) (done : State → State) (h : everyLane s ≠ []) :
    broadcastThen s k done = { stageFor s k with lanes := { (sendCmd s (everyLane s) (.commit s.lanes.seq)).lanes with
      seq := s.lanes.seq + 1
      bcasts := s.lanes.bcasts ++ [{ kind := some k, seq := s.lanes.seq, waiting := everyLane s }] } } := by
  simp [broadcastThen, h, sendCmd]
/-- A message put on the channels of a list of islands is what they gain. -/
theorem mem_tget_foldl_append {α : Type} (a c : α) (i : Nat) (l : List Nat) (t : Tbl (List α)) :
    c ∈ tget [] (l.foldl (fun t j => tmod [] t j (· ++ [a])) t) i ↔ c ∈ tget [] t i ∨ i ∈ l ∧ c = a := by
  induction l generalizing t with
  | nil => simp
  | cons j l ih =>
    rw [List.foldl_cons, ih, tget_tmod]
    by_cases hij : i = j
    · subst hij
      have here : i ∈ i :: l ∧ c = a ↔ c = a := and_iff_right List.mem_cons_self
      rw [if_pos rfl, here, List.mem_append, List.mem_singleton, or_assoc, or_iff_left_of_imp And.right]
    · have elsewhere : i ∈ j :: l ↔ i ∈ l := by rw [List.mem_cons, or_iff_right hij]
      rw [if_neg hij, elsewhere]
theorem mem_sendCmd_cmds (s : State) (l : List Nat) (c : LaneCmd) {i : Nat} (h : i ∈ l) : c ∈ tget [] (sendCmd s l c).lanes.cmds i :=
  (mem_tget_foldl_append c c i l s.lanes.cmds).mpr (.inr ⟨h, rfl⟩)
theorem exec_broadcast_tables (s : State) (b : Nat) (hup : pilotUp s = true) (hc : (s.berth b).commit = some .broadcast)
    (hrun : bcastRuns s (.tables b) = false) : exec (.broadcast (.tables b)) s = .next (broadcast s (.tables b)) := by
  simp [exec, execBroadcast, hup, hc, hrun]

/-! ### Acknowledgements, and the end of a commit (R28, R313, R321) -/

/-- The acknowledgement of the one broadcast that runs, taken off its list. -/
theorem ackBroadcasts_sole (s : State) (ix : Nat) (seq : BitVec 16) (k : Option BroadcastKind) (w : List Nat)
    (h : s.lanes.bcasts = [{ kind := k, seq := seq, waiting := w }]) :
    ackBroadcasts s ix seq =
      if w.filter (· != ix) = [] then broadcastDone { s with lanes := { s.lanes with bcasts := [] } } k
      else { s with lanes := { s.lanes with bcasts := [{ kind := k, seq := seq, waiting := w.filter (· != ix) }] } } := by
  cases hw : w.filter (· != ix) with
  | nil => simp [ackBroadcasts, h, hw]
  | cons j r => simp [ackBroadcasts, h, hw]
/-- The one acknowledgement under way, of a Pier, for the one broadcast that runs. -/
theorem exec_broadcastAck_sole (s : State) (n : Nat) (seq : BitVec 16) (k : Option BroadcastKind) (w : List Nat)
    (hup : pilotUp s = true) (hn : n < 154) (hacks : s.lanes.acks = [(n, seq)])
    (hbcasts : s.lanes.bcasts = [{ kind := k, seq := seq, waiting := w }]) : exec (.broadcastAck (.pier n)) s = .next (
      if w.filter (· != n) = [] then broadcastDone { s with lanes := { s.lanes with acks := [], bcasts := [] } } k
      else { s with lanes := { s.lanes with acks := [], bcasts := [{ kind := k, seq := seq, waiting := w.filter (· != n) }] } }) := by
  have not_gangway : ¬(154 ≤ n ∧ n < 206) := by omega
  have taken : exec (.broadcastAck (.pier n)) s = .next (ackBroadcasts { s with lanes := { s.lanes with acks := [] } } n seq) := by
    simp [exec, execBroadcastAck, hup, broadcastAck, islandIx, hacks, not_gangway]
  exact taken.trans (congrArg _ (ackBroadcasts_sole _ n seq k w hbcasts))
@[simp] theorem putResponse_out (s : State) (f : Func) (c m : Byte) (b : Bytes) : (putResponse s f c m b).out = s.out := by
  unfold putResponse
  dsimp only
  split <;> rfl
@[simp] theorem reply_out (s : State) (f : Func) (c : Byte) (b : Bytes) : (reply s f c b).out = .reply f c 0 b :: s.out := by
  rw [reply, replyMs, putResponse_out, emit_out _ _ (by simp [closedPath])]
@[simp] theorem reply_berth (s : State) (f : Func) (c : Byte) (m : Bytes) (b : Nat) : (reply s f c m).berth b = s.berth b :=
  (congrArg (State.berth · b) (reply_frame s f c m) :)
@[simp] theorem reply_lanes (s : State) (f : Func) (c : Byte) (m : Bytes) : (reply s f c m).lanes = s.lanes :=
  (congrArg State.lanes (reply_frame s f c m) :)
/-- A berth whose staged set has become the committed one. -/
def committedBerth (y : Berth) : Berth :=
  { y with t1 := y.t1Staged, t2 := y.t2Staged, sites := y.sitesStaged, commit := none, replyDue := false, wiped := 0 }
/-- A commit that no rinse waits for ends with its reply. -/
theorem tablesDone_replied (s : State) (b : Nat) (hc : (s.berth b).commit = some .broadcast) (hreply : (s.berth b).replyDue = true)
    (hgate : (s.berth b).gateDue = false) : (tablesDone s b).berth b = committedBerth (s.berth b) ∧
      (tablesDone s b).lanes = s.lanes ∧ (tablesDone s b).out = .reply .pf1 0x44 0 (statusBody 0) :: s.out := by
  have ends : tablesDone s b = reply
      (State.setBerth { s with cleanMap := rangesLess s.cleanMap (windowRanges (s.berth b).t1Staged) } b (committedBerth (s.berth b)))
      .pf1 0x44 (statusBody 0) := by
    simp [tablesDone, hc, hreply, hgate, committedBerth]
  rw [ends, reply_berth, State.setBerth_berth, reply_lanes, reply_out]
  exact ⟨rfl, rfl, rfl⟩

/-! ### The commands -/

section
variable (s : State) (n : Nat)

theorem laneCommandAccept_new (seq : BitVec 16) (hacc : accepts s = true) (hn : n < 154) (hkeys : holdsKeys s n = true)
    (htest : (s.island (.pier n)).service ≠ .spotTest) (hcmds : tget [] s.lanes.cmds n = [.commit seq])
    (hseen : (s.pier n).seqSeen = false) : exec (.laneCommandAccept (.pier n)) s =
      .next (State.setPier { s with lanes := { s.lanes with cmds := tset s.lanes.cmds n [] } } n (applyStaged (s.pier n) n seq)) := by
  rw [exec_laneCommandAccept_pier s n hacc hkeys htest, takeCmd_commit_pier s n seq [] hn hcmds]
  exact congrArg _ (pierCommit_new _ n seq hseen)
theorem laneCommandAccept_again (seq : BitVec 16) (hacc : accepts s = true) (hn : n < 154) (hkeys : holdsKeys s n = true)
    (hcmds : tget [] s.lanes.cmds n = [.commit seq]) (hseen : (s.pier n).seqSeen = true) (hlast : (s.pier n).lastSeq = seq)
    (hdrain : (s.pier n).drain = []) (htest : (s.island (.pier n)).service ≠ .spotTest) :
    CompletesWith (exec (.laneCommandAccept (.pier n)) s) (fun t => t.piers = s.piers ∧ (n, seq) ∈ t.lanes.acks ∧
      tget [] t.lanes.cmds n = [] ∧ t.links = s.links ∧ t.berths = s.berths ∧ t.vault = s.vault ∧ t.out = s.out) := by
  let u : State := { s with lanes := { s.lanes with cmds := tset s.lanes.cmds n [] } }
  have hexec : exec (.laneCommandAccept (.pier n)) s = .next (pierAck u n seq) := by
    rw [exec_laneCommandAccept_pier s n hacc hkeys htest, takeCmd_commit_pier s n seq [] hn hcmds]
    exact congrArg _ (pierCommit_again u n seq hseen hlast hdrain)
  have frame := pierAck_frame u n seq
  have cmds : (pierAck u n seq).lanes.cmds = tset s.lanes.cmds n [] := (congrArg (·.lanes.cmds) frame :)
  exact ⟨_, hexec, (congrArg State.piers frame :), mem_pierAck_acks u n seq, by rw [cmds, tget_tset_self],
    (congrArg State.links frame :), (congrArg State.berths frame :), (congrArg State.vault frame :), (congrArg State.out frame :)⟩
theorem keyFillArrive_enters (b : Nat) (f : KeyFill) (hacc : accepts s = true) (hn : n < 154) (hkeys : holdsKeys s n = true)
    (hcmds : tget [] s.lanes.cmds n = []) (hch : tget [] s.vault.channels n = [.fill b (some f)]) (hmiss : (s.pier n).missQ = [])
    (hpark : (s.pier n).park = false) : CompletesWith (exec (.keyFillArrive (.pier n)) s) (fun t =>
      keyEntry (t.pier n) b = some (some f) ∧ tget [] t.vault.channels n = [] ∧ (t.pier n).err = (s.pier n).err ∧ t.out = s.out) := by
  have hexec := exec_keyFillArrive_pier s n b (some f) [] hacc hn hkeys hcmds hch
  rw [pierFill_idle (withChannel s n []) n b f hmiss hpark, withChannel_pier] at hexec
  refine ⟨_, hexec, ?_, withChannel_channels s n [], ?_, rfl⟩ <;> rw [State.setPier_pier]
  · exact keyEntry_keyInsert_self ..
  · rfl
theorem invalidation_drops (b : Nat) (e : Word) (hacc : accepts s = true) (hn : n < 154) (hkeys : holdsKeys s n = true)
    (hch : tget [] s.vault.channels n = [.invalidate b e]) (hpin : pinned (s.pier n) = []) :
    CompletesWith (exec (.invalidation (.pier n)) s) (fun t =>
      keyEntry (t.pier n) b = none ∧ t.vault.acks = s.vault.acks ++ [n] ∧ tget [] t.vault.channels n = [] ∧ t.out = s.out ∧
      (∀ c, c ≠ b → keyEntry (t.pier n) c = keyEntry (s.pier n) c)) := by
  let x : PierSt := { s.pier n with keys := (s.pier n).keys.filter (fun k => !(k.1 == b)) }
  let t := withVaultAck ((withChannel s n []).setPier n x) n
  have hexec : exec (.invalidation (.pier n)) s = .next t := by
    rw [exec_invalidation_pier s n b e [] hacc hn hkeys hch, pierInvalidate_unpinned (withChannel s n []) n _ hpin]
    rfl
  have cache (c : Nat) : keyEntry (t.pier n) c = if c = b then none else keyEntry (s.pier n) c :=
    (congrArg (keyEntry · c) (State.setPier_pier (withChannel s n []) n x)).trans (keyEntry_without (s.pier n) b c)
  exact ⟨t, hexec, (cache b).trans (if_pos rfl), rfl, withChannel_channels s n [], rfl, fun c hc => (cache c).trans (if_neg hc)⟩
theorem broadcast_reaches (b : Nat) (hup : pilotUp s = true) (hc : (s.berth b).commit = some .broadcast)
    (hrun : bcastRuns s (.tables b) = false) (hlanes : everyLane s ≠ []) : CompletesWith (exec (.broadcast (.tables b)) s) (fun t =>
      t.lanes.seq = s.lanes.seq + 1 ∧
      t.lanes.bcasts = s.lanes.bcasts ++ [{ kind := some (.tables b), seq := s.lanes.seq, waiting := everyLane s }] ∧
      (∀ i ∈ everyLane s, .commit s.lanes.seq ∈ tget [] t.lanes.cmds i) ∧ t.berths = s.berths ∧ t.vault = s.vault) := by
  have hexec := exec_broadcast_tables s b hup hc hrun
  rw [broadcast, broadcastThen_reaching s _ _ hlanes] at hexec
  have frame := stageFor_frame s (.tables b)
  exact ⟨_, hexec, rfl, rfl, fun _ => mem_sendCmd_cmds s _ _, (congrArg State.berths frame :), (congrArg State.vault frame :)⟩
theorem broadcastAck_taken_off (j : Nat) (seq : BitVec 16) (k : Option BroadcastKind) (hup : pilotUp s = true) (hn : n < 154)
    (hj : j ≠ n) (hacks : s.lanes.acks = [(n, seq)]) (hbcasts : s.lanes.bcasts = [{ kind := k, seq := seq, waiting := [n, j] }]) :
    exec (.broadcastAck (.pier n)) s =
      .next { s with lanes := { s.lanes with acks := [], bcasts := [{ kind := k, seq := seq, waiting := [j] }] } } := by
  have left : [n, j].filter (· != n) = [j] := by simp [hj]
  rw [exec_broadcastAck_sole s n seq k [n, j] hup hn hacks hbcasts, left, if_neg (List.cons_ne_nil j [])]
theorem broadcastAck_ends_commit (b : Nat) (seq : BitVec 16) (hup : pilotUp s = true) (hn : n < 154)
    (hacks : s.lanes.acks = [(n, seq)]) (hbcasts : s.lanes.bcasts = [{ kind := some (.tables b), seq := seq, waiting := [n] }])
    (hc : (s.berth b).commit = some .broadcast) (hreply : (s.berth b).replyDue = true) (hgate : (s.berth b).gateDue = false) :
    CompletesWith (exec (.broadcastAck (.pier n)) s) (fun t =>
      (t.berth b).t1 = (s.berth b).t1Staged ∧ (t.berth b).t2 = (s.berth b).t2Staged ∧ (t.berth b).sites = (s.berth b).sitesStaged ∧
      (t.berth b).commit = none ∧ t.lanes.bcasts = [] ∧ t.out = .reply .pf1 0x44 0 [0, 0, 0, 0] :: s.out) := by
  let u : State := { s with lanes := { s.lanes with acks := [], bcasts := [] } }
  have none_left : [n].filter (· != n) = [] := by simp
  have hexec : exec (.broadcastAck (.pier n)) s = .next (tablesDone u b) := by
    rw [exec_broadcastAck_sole s n seq _ [n] hup hn hacks hbcasts, none_left, if_pos rfl]
    rfl
  obtain ⟨hberth, hlanes, hout⟩ := tablesDone_replied u b hc hreply hgate
  refine ⟨_, hexec, ?_⟩
  dsimp only
  rw [hberth, hlanes, hout]
  exact ⟨rfl, rfl, rfl, rfl, rfl, rfl⟩
end

/-- Settles O33: each clause is the rule above of its command. -/
theorem laneHandshakes : Obligations.LaneHandshakes :=
  ⟨laneCommandAccept_new, keyFillArrive_enters, invalidation_drops, broadcast_reaches, broadcastAck_taken_off, broadcastAck_ends_commit,
    laneCommandAccept_again⟩
end Sys2Proof.Machine
end

section
/-! The nonce of external time (R575): TIME_NONCE in each of its branches, and the end of the nonce's time. -/

namespace Sys2Proof.Machine

@[simp] theorem drawBytes_length (s : State) (n : Nat) : (drawBytes s n).length = n := by
  simp [drawBytes]
@[simp] theorem reply_pilot (s : State) (f : Func) (c : Byte) (m : Bytes) : (reply s f c m).pilot = s.pilot :=
  (congrArg State.pilot (reply_frame s f c m) :)
@[simp] theorem reply_vault (s : State) (f : Func) (c : Byte) (m : Bytes) : (reply s f c m).vault = s.vault :=
  (congrArg State.vault (reply_frame s f c m) :)

/-- The state in which a nonce of 48 drawn bytes stands in place of the one before it. -/
def withTimeNonce (s : State) : State :=
  { drew s 48 with pilot := { (drew s 48).pilot with timeNonce := some (drawBytes s 48) } }

section
variable (s : State) (hup : pilotUp s = true)
include hup

theorem exec_timeNonce_drbgOk (hok : s.vault.drbgOk = true) :
    exec (.timeNonce []) s = .next (reply (withTimeNonce s) .pf0 0x31 (statusBody 0 ++ drawBytes s 48)) := by
  simp [exec, execTimeNonce, hup, hok, withTimeNonce]
theorem exec_timeNonce_drbgFailed (hfail : s.vault.drbgOk = false) :
    exec (.timeNonce []) s = .next (reply s .pf0 0x31 (statusBody 0x05 ++ zeros 48)) := by
  simp [exec, execTimeNonce, hup, hfail]

/-- A fresh nonce draws 48 bytes, and besides the draw and the reply it changes the nonce alone. -/
theorem timeNonce_answers_fresh (hok : s.vault.drbgOk = true) : CompletesWith (exec (.timeNonce []) s) (fun t =>
    t = reply { s with pilot := { s.pilot with timeNonce := some (drawBytes s 48), drawn := t.pilot.drawn }, vault := t.vault } .pf0 0x31
      ([0, 0, 0, 0] ++ drawBytes s 48) ∧ (drawBytes s 48).length = 48 ∧ t.pilot.drawn = s.pilot.drawn + 48) := by
  refine ⟨_, exec_timeNonce_drbgOk s hup hok, ?_, drawBytes_length s 48, ?_⟩
  · rw [reply_pilot, reply_vault]
    rfl
  · rw [reply_pilot]
    rfl
end

theorem exec_timeNonce_withBody (s : State) (m : Bytes) (hup : pilotUp s = true) (hm : m ≠ []) :
    exec (.timeNonce m) s = .next (replyMs s .pf0 0x31 0x05 []) := by
  simp [exec, execTimeNonce, hup, hm]
theorem exec_timeNonceExpiry (s : State) (hacc : accepts s = true) :
    exec .timeNonceExpiry s = .next { s with pilot := { s.pilot with timeNonce := none } } := by
  simp [exec, execTimeNonceExpiry, hacc]

/-- Settles O53: TIME_NONCE by its branches (R575; the answer to a request with a body is log 112), and the end of the nonce's 10 s. -/
theorem timeNonce : Obligations.TimeNonce :=
  ⟨timeNonce_answers_fresh, exec_timeNonce_drbgFailed, exec_timeNonceExpiry, exec_timeNonce_withBody⟩
end Sys2Proof.Machine
end
